-- ==== Sys2Proof/Word.lean ====
section
/-! DEFINITION. Words, names and the small closed types that the instruction syntax and the state share. -/

namespace Sys2Proof

/-- A 64-bit scalar register, counter or control word (R50, R67). -/
abbrev Word := BitVec 64
/-- An instruction word or one 32-bit lane or element (R141, R55, R59). -/
abbrev W32 := BitVec 32
/-- One byte of memory (R1). -/
abbrev Byte := BitVec 8

/-- A sparse table: entries by key; an unlisted key reads as the default of the table. -/
abbrev SMap (α : Type) := List (Nat × α)

/-- The four strands of a core, in index order (R29). -/
inductive StrandId where
  | q | v | m | l
  deriving DecidableEq, Repr, Inhabited

/-- Global core number: 64 × K-die + core (R8, R28). -/
abbrev CoreIx := Fin 512

/-- The bits S and WC that every strand word carries (R141). -/
structure Hdr where
  s : Fin 2
  wc : Fin 8
  deriving DecidableEq, Repr

/-- Which opcode map reads a word: the map of a strand (shared half and its private half, R142) or the Awl's (R303). -/
inductive IMap where
  | strand (k : StrandId)
  | awl
  deriving DecidableEq, Repr

/-- An illegal operand use (R384): the lowest bit of the field at fault, whether a value and not the word is at fault, the
byte offset or lowest bit within a block or descriptor, and the REASON code. -/
structure Offence where
  bit : Nat
  val : Bool
  pos : Option Nat
  reason : Nat
  deriving DecidableEq, Repr

/-- A function with a bit in the readiness map (R20). -/
inductive UnitId where
  | core (d : Fin 8) (c : Fin 64)
  | quad (d : Fin 8) (q : Fin 16)
  | slice (d : Fin 8) (s : Fin 32)
  | heap (d : Fin 8)
  | nest (d : Fin 8)
  | cinch (d : Fin 8)
  | awl (d : Fin 8)
  | ring (d : Fin 8)
  | gway (d : Fin 8) (g : Fin 4)
  | link (n : Fin 22) (m : Fin 12)
  | attn (n : Fin 22) (e : Fin 64)
  | ccu (n : Fin 22)
  | rtree (n : Fin 22)
  | llc (n : Fin 22)
  | hbm (n : Fin 22)
  | lpdr (n : Fin 22)
  | pres (n : Fin 22)
  | host (h : Fin 2)
  | xport (h : Fin 2) (p : Fin 2)
  | graph (h : Fin 2)
  | coll (h : Fin 2)
  | barr (h : Fin 2)
  | tele (h : Fin 2)
  | fibre (i : Fin 256)
  deriving DecidableEq, Repr

/-- Read-modify-write operators of `amo.*` (R251). -/
inductive AmoOp where
  | add | and | or | xor | max | min | swap | cas
  deriving DecidableEq, Repr

/-- Operators of `red.*` (R252). -/
inductive RedOp where
  | add | max | min
  deriving DecidableEq, Repr

/-- What a remote party asks of a home: the operation of a space-2 or space-4 request (R125, R139). -/
inductive RemoteOp where
  | load (n : Nat)
  | store (bytes : List Byte)
  | amo (op : AmoOp) (word : Fin 2) (operand expected : Word)
  | red (op : RedOp) (f32 : Fin 2) (operand : W32)
  deriving DecidableEq, Repr

/-- How a request that left the module can fail at its target (R402, R407, R412, R403). -/
inductive RemoteFault where
  | xlate (level : Fin 4) (malformed : Bool)
  | perm (level : Fin 4) (have4 : Fin 16)
  | refused
  | poison
  deriving DecidableEq, Repr

/-- A remote access event: served here for one of this module's strands, answered by another module for one of them,
or arriving here from another module (R98, R249, R338). -/
inductive PodRequest where
  | own (c : CoreIx) (k : StrandId) (i : Nat)
  | answered (c : CoreIx) (k : StrandId) (i : Nat) (value : Word)
  | failed (c : CoreIx) (k : StrandId) (i : Nat) (f : RemoteFault)
  | incoming (source : Nat) (addr : Word) (op : RemoteOp)
  deriving DecidableEq, Repr

/-- What the hub of another module answers to a registered wait: the counter's value, or that its store is poisoned (R66,
R406). -/
inductive RemoteValue where
  | value (v : Word)
  | poisoned
  deriving DecidableEq, Repr

/-- A counter add that reaches a counter's holder (R67): one of this module's adds on its way, with the value that another
module's hub returns to a `bar`, or an add from another module to a counter of this one. -/
inductive AddArrival where
  | own (i : Nat) (returned : Word)
  | incoming (handle value : Word)
  deriving DecidableEq, Repr

/-- A request that a fabric port withdraws (R447): an outstanding access, a strand's remote wait, a counter add, or a line
of a Welt command on its way to another module. -/
inductive FabricRequest where
  | access (i : Nat)
  | wait (k : StrandId)
  | add (i : Nat)
  | line (i : Nat)
  deriving DecidableEq, Repr

/-- A host access through BAR2 or CXL.mem: an offset into the interleaved HBM4E region (R341, R342). -/
inductive HostAccess where
  | load (off len : Nat)
  | store (off : Nat) (bytes : List Byte)
  deriving DecidableEq, Repr

/-- What the patrol scrubber reads: a line of memory, a line of a core's tiles, an entry of a task heap, a block of an Awl's
candidate memory, or the partials of a reduce-state line (R362). -/
inductive ScrubSite where
  | line (pa : Nat)
  | tile (c : CoreIx) (line : Nat)
  | heapEntry (d : Fin 8) (i : Nat)
  | candidate (d : Fin 8) (block : Nat)
  | reducePartial (pa : Nat)
  deriving DecidableEq, Repr

/-- Which unit holds the copy of a memory line that a fault strikes (R403). -/
inductive LinePlace where
  | medium
  | llc (i : Fin 32)
  | l2 (d : Fin 8) (i : Fin 32)
  | l1 (c : CoreIx)
  deriving DecidableEq, Repr

/-- Where a single fault strikes (R355, R358). -/
inductive FaultSite where
  /-- bits within one protection word or transfer of a memory line, corrected or not -/
  | line (pa : Nat) (place : LinePlace) (correctable : Bool)
  /-- bits of one line of a tile -/
  | tile (c : CoreIx) (line : Nat) (correctable : Bool)
  /-- a core's architectural register state, with the location code of R405 -/
  | coreState (c : CoreIx) (location : Fin 6) (correctable : Bool)
  /-- the tag of a line in a cache, with its lease (R410): read from its other copy -/
  | cacheTag (pa : Nat) (place : LinePlace)
  /-- a word of a counter store -/
  | counter (handle : Word) (correctable : Bool)
  /-- an entry of a die's task heap -/
  | heapEntry (d : Fin 8) (i : Nat) (correctable : Bool)
  /-- a block of an Awl's candidate memory -/
  | candidate (d : Fin 8) (block : Nat) (correctable : Bool)
  /-- a word of a T-die's context table: the entry of a context -/
  | contextEntry (n : Fin 22) (ctx : Nat) (correctable : Bool)
  /-- a word of the signatures of the i-th queued entry of a T-die (R415) -/
  | signature (n : Fin 22) (i : Nat) (correctable : Bool)
  /-- a partial of a reduce-state line (R413) -/
  | reducePartial (pa : Nat) (correctable : Bool)
  /-- a wrong output of one logic element: the core freezes (R359) -/
  | logic (c : CoreIx)
  /-- a wrong output in an attention engine or the reduction tree: the execution is repeated (R359, R415) -/
  | attention (n : Fin 22)
  /-- a mismatch in a Cinch unit, an Awl's datapath, or a walker, heap, Awl, context or graph sequencer; on the word of the
  last mismatch there, or on another (R358, R359) -/
  | compare (u : UnitId) (again : Bool)
  /-- one flit of a die link or of an expander port (R438, R448) -/
  | flit (n : Fin 22) (m : Fin 12)
  /-- one flit of an optical channel (R444) -/
  | channelFlit (plane : Fin 2) (q : Fin 512) (again : Bool)
  /-- one flit of a host link (R450) -/
  | hostFlit (h : Fin 2)
  /-- a hub's egress path, sequencer compare or security root (R368) -/
  | egress (h : Fin 2)
  deriving DecidableEq, Repr

end Sys2Proof
end

