-- ==== Sys2Proof/Machine/Numeric.lean ====
section
/-! DEFINITION. Number formats and their arithmetic, exact and then rounded once (R74 to R95). -/

namespace Sys2Proof.Machine

/-! ## Exact dyadic numbers -/

/-- The number m × 2^e. -/
structure Dy where
  m : Int
  e : Int
  deriving DecidableEq, Repr

/-- An integer. -/
def Dy.int (n : Int) : Dy := ⟨n, 0⟩

/-- The integer by which a dyadic counts units of 2^e, for e at or below its exponent. -/
def Dy.at (a : Dy) (e : Int) : Int := a.m * 2 ^ (a.e - e).toNat

/-- Exact sum. -/
def Dy.add (a b : Dy) : Dy :=
  let e := min a.e b.e
  ⟨a.at e + b.at e, e⟩

/-- Negation. -/
def Dy.neg (a : Dy) : Dy := ⟨-a.m, a.e⟩
/-- Exact difference. -/
def Dy.sub (a b : Dy) : Dy := a.add b.neg
/-- Exact product. -/
def Dy.mul (a b : Dy) : Dy := ⟨a.m * b.m, a.e + b.e⟩
/-- Times a power of two. -/
def Dy.scale (a : Dy) (k : Int) : Dy := ⟨a.m, a.e + k⟩
/-- Exact comparison. -/
def Dy.lt (a b : Dy) : Bool :=
  let e := min a.e b.e
  decide (a.at e < b.at e)
/-- Exact comparison. -/
def Dy.le (a b : Dy) : Bool := !b.lt a
/-- Greatest integer not above. -/
def Dy.floor (a : Dy) : Int := if 0 ≤ a.e then a.m * 2 ^ a.e.toNat else a.m / 2 ^ (-a.e).toNat

/-- Round a positive magnitude m × 2^e to at most `p` significant bits, no unit below 2^emin, to nearest, ties to even:
the rounded count and its unit's exponent. -/
def roundMag (p : Nat) (emin : Int) (m : Nat) (e : Int) : Nat × Int :=
  let q := max (e + Nat.log2 m - (p - 1)) emin
  if q ≤ e then (m * 2 ^ (e - q).toNat, q)
  else
    let s := (q - e).toNat
    let t := m / 2 ^ s
    let r := m % 2 ^ s
    let h := 2 ^ (s - 1)
    (if r > h ∨ (r = h ∧ t % 2 = 1) then t + 1 else t, q)

/-! ## Numbers with infinities and NaN -/

/-- A number of a binary format: NaN, an infinity, or ±m × 2^e. -/
inductive Num where
  | nan
  | inf (neg : Bool)
  | fin (neg : Bool) (m : Nat) (e : Int)
  deriving DecidableEq, Repr

/-- The number of an F32 pattern (R74). -/
def f32 (w : W32) : Num :=
  let n := w.toNat
  let s := n / 2 ^ 31 == 1
  let x : Nat := n / 2 ^ 23 % 256
  let f : Nat := n % 2 ^ 23
  if x = 255 then (if f = 0 then .inf s else .nan)
  else if x = 0 then .fin s f (-149)
  else .fin s (f + 2 ^ 23) ((x : Int) - 150)

/-- The number of a BF16 pattern. -/
def bf16 (n : Nat) : Num := f32 (BitVec.ofNat 32 (n * 65536))

/-- The NaN that the device produces in F32 (R79). -/
def nanF : W32 := 0x7FC00000

/-- `RoundToF32` (R80). -/
def Num.toF32 : Num → W32
  | .nan => nanF
  | .inf s => if s then 0xFF800000 else 0x7F800000
  | .fin s m e =>
    let sign := if s then 2 ^ 31 else 0
    if m = 0 then BitVec.ofNat 32 sign
    else
      let r := roundMag 24 (-149) m e
      BitVec.ofNat 32 (min (r.1 + (r.2 + 149).toNat * 2 ^ 23) (255 * 2 ^ 23) + sign)

/-- Rounding to BF16 (R80, R81). -/
def Num.toBF16 : Num → Nat
  | .nan => 0x7FC0
  | .inf s => if s then 0xFF80 else 0x7F80
  | .fin s m e =>
    let sign := if s then 2 ^ 15 else 0
    if m = 0 then sign
    else
      let r := roundMag 8 (-133) m e
      min (r.1 + (r.2 + 133).toNat * 2 ^ 7) (255 * 2 ^ 7) + sign

/-- The signed dyadic of a finite number. -/
def Num.dy : Num → Dy
  | .fin s m e => ⟨if s then -(m : Int) else m, e⟩
  | _ => ⟨0, 0⟩

/-- A dyadic as a number; zero is +0. -/
def Dy.num (a : Dy) : Num := .fin (decide (a.m < 0)) a.m.natAbs a.e

/-- Negation. -/
def Num.neg : Num → Num
  | .nan => .nan
  | .inf s => .inf !s
  | .fin s m e => .fin (!s) m e

/-- Exact sum; an exact zero of opposite signs is +0 (R80). -/
def Num.add : Num → Num → Num
  | .nan, _ => .nan
  | _, .nan => .nan
  | .inf a, .inf b => if a = b then .inf a else .nan
  | .inf a, _ => .inf a
  | _, .inf b => .inf b
  | .fin a m e, .fin b n f =>
    let d := (Num.fin a m e).dy.add (Num.fin b n f).dy
    if d.m = 0 then .fin (a && b) 0 0 else d.num

/-- Exact product. -/
def Num.mul : Num → Num → Num
  | .nan, _ => .nan
  | _, .nan => .nan
  | .inf a, .inf b => .inf (a != b)
  | .inf a, .fin b n _ => if n = 0 then .nan else .inf (a != b)
  | .fin a m _, .inf b => if m = 0 then .nan else .inf (a != b)
  | .fin a m e, .fin b n f => .fin (a != b) (m * n) (e + f)

/-- Is it NaN? -/
def Num.isNan : Num → Bool
  | .nan => true
  | _ => false

/-- A key that orders the numbers that are not NaN: below −∞ < finite < +∞. -/
def Num.ltNum : Num → Num → Bool
  | .nan, _ => false
  | _, .nan => false
  | .inf a, .inf b => a && !b
  | .inf a, .fin .. => a
  | .fin .., .inf b => !b
  | .fin a m e, .fin b n f => (Num.fin a m e).dy.lt (Num.fin b n f).dy

/-- Numerical equality; ±0 are equal and NaN equals nothing. -/
def Num.eqNum (a b : Num) : Bool := !a.isNan && !b.isNan && !a.ltNum b && !b.ltNum a

/-- Sign bit of a number. -/
def Num.sign : Num → Bool
  | .nan => false
  | .inf s => s
  | .fin s _ _ => s

/-- Maximum where +0 exceeds −0 and a NaN gives NaN (R95, R201). -/
def maxF (a b : W32) : W32 :=
  let x := f32 a
  let y := f32 b
  if x.isNan || y.isNan then nanF
  else if x.ltNum y then b
  else if y.ltNum x then a
  else if x.sign then b else a

/-- Minimum where −0 is below +0 and a NaN gives NaN (R95, R201). -/
def minF (a b : W32) : W32 :=
  let x := f32 a
  let y := f32 b
  if x.isNan || y.isNan then nanF
  else if x.ltNum y then a
  else if y.ltNum x then b
  else if x.sign then a else b

/-- F32 sum, difference, product and fused multiply-add, each rounded once (R80). -/
def addF (a b : W32) : W32 := ((f32 a).add (f32 b)).toF32
/-- Difference. -/
def subF (a b : W32) : W32 := ((f32 a).add (f32 b).neg).toF32
/-- Product. -/
def mulF (a b : W32) : W32 := ((f32 a).mul (f32 b)).toF32
/-- a × b + c, rounded once. -/
def fmaF (a b c : W32) : W32 := (((f32 a).mul (f32 b)).add (f32 c)).toF32

/-- The exact sum of a list, first element first. -/
def sumNum : List Num → Num
  | [] => .fin false 0 0
  | [x] => x
  | x :: r => x.add (sumNum r)

/-! ## Conversions (R81) -/

/-- Round a dyadic to an integer, ties to even. -/
def Dy.round (a : Dy) : Int :=
  let f := a.floor
  let r := a.sub (.int f)
  let h : Dy := ⟨1, -1⟩
  if r.lt h then f else if h.lt r then f + 1 else if f % 2 = 0 then f else f + 1

/-- Saturate to two's complement of `n` bits. -/
def satInt (n : Nat) (v : Int) : Int := max (-(2 ^ (n - 1))) (min v (2 ^ (n - 1) - 1))

/-- F32 to a saturated integer of `n` bits; NaN to 0. -/
def Num.toInt (n : Nat) : Num → Int
  | .nan => 0
  | .inf s => satInt n (if s then -(2 ^ 64) else 2 ^ 64)
  | x => satInt n x.dy.round

/-- An integer as an F32 value. -/
def intF (v : Int) : W32 := (Dy.int v).num.toF32

/-! ## Logarithmic codes (R74 to R78). Formats: 0 L8, 1 L6. -/

/-- The table C of R76. -/
def lnsC (j : Nat) : Nat :=
  [0x800000, 0x85AAC3, 0x8B95C2, 0x91C3D3, 0x9837F0, 0x9EF532, 0xA5FED7, 0xAD583F, 0xB504F3, 0xBD08A4, 0xC5672A, 0xCE248C,
    0xD744FD, 0xE0CCDF, 0xEAC0C7, 0xF5257D].getD j 0

/-- Bits of the log field. -/
def lnsBits (fmt : Nat) : Nat := if fmt = 1 then 5 else 7

/-- The poison code. -/
def lnsPoison (fmt : Nat) : Nat := 2 ^ lnsBits fmt

/-- The log field of a code. -/
def lnsField (fmt c : Nat) : Nat := c % 2 ^ lnsBits fmt

/-- The sign of a code. -/
def lnsSign (fmt c : Nat) : Bool := c / 2 ^ lnsBits fmt % 2 == 1

/-- Log count of a code with a non-zero field. -/
def lnsCount (fmt c : Nat) : Int :=
  if fmt = 1 then 4 * ((lnsField fmt c : Int) - 16) else (lnsField fmt c : Int) - 64

/-- The linear value of a log count (R76). -/
def lnsMag (n : Int) : Dy := ⟨lnsC (n % 16).toNat, n / 16 - 23⟩

/-- The value of a code under a scale: NaN for poison. -/
def lnsValue (fmt c : Nat) (e : Int) : Num :=
  if lnsField fmt c = 0 then (if lnsSign fmt c then .nan else .fin false 0 0)
  else
    let v := lnsMag (lnsCount fmt c + 4 * e)
    .fin (lnsSign fmt c) v.m.natAbs v.e

/-- The nearest field among 0 to `n` to a magnitude, ties to the even field (R77). -/
def lnsNearest (fmt : Nat) (e : Int) (x : Dy) : Nat → Nat × Dy
  | 0 => (0, x)
  | n + 1 =>
    let best := lnsNearest fmt e x n
    let d := (lnsMag (lnsCount fmt (n + 1) + 4 * e)).sub x
    let a : Dy := ⟨d.m.natAbs, d.e⟩
    if a.lt best.2 ∨ (!best.2.lt a ∧ (n + 1) % 2 = 0) then (n + 1, a) else best

/-- `LnsEncode` (R77). -/
def lnsEncode (x : Num) (fmt : Nat) (e : Int) : Nat :=
  let top := 2 ^ lnsBits fmt - 1
  match x with
  | .nan => lnsPoison fmt
  | .inf s => top + if s then 2 ^ lnsBits fmt else 0
  | .fin s m k =>
    let f := (lnsNearest fmt e ⟨m, k⟩ top).1
    if m = 0 ∨ f = 0 then 0 else f + if s then 2 ^ lnsBits fmt else 0

/-- The larger of two magnitudes, infinities and NaN left out. -/
def maxMag (a : Dy) (x : Num) : Dy :=
  match x with
  | .fin _ m e => if a.lt ⟨m, e⟩ then ⟨m, e⟩ else a
  | _ => a

/-- `LnsScale` (R78). -/
def lnsScale (block : List Num) : Int :=
  let m := block.foldl maxMag ⟨0, 0⟩
  if m.m = 0 then 0
  else
    let k := m.e + Nat.log2 m.m.natAbs
    max (-128) (min (4 * (k - 2)) 127)

/-- Signed value of a byte. -/
def sbyte (n : Nat) : Int := if n % 256 < 128 then (n % 256 : Nat) else ((n % 256 : Nat) : Int) - 256

/-- The 6-bit codes of L6 bytes (R75): four to three bytes. -/
def unpack6 : List Byte → List Nat
  | a :: b :: c :: r =>
    let n := a.toNat + 256 * b.toNat + 65536 * c.toNat
    (n % 64) :: (n / 64 % 64) :: (n / 4096 % 64) :: (n / 262144) :: unpack6 r
  | _ => []

/-- L6 bytes of 6-bit codes. -/
def pack6 : List Nat → List Byte
  | a :: b :: c :: d :: r =>
    let n := a + 64 * b + 4096 * c + 262144 * d
    BitVec.ofNat 8 n :: BitVec.ofNat 8 (n / 256) :: BitVec.ofNat 8 (n / 65536) :: pack6 r
  | _ => []

/-! ## Vector functions (R86 to R90) -/

/-- Round a dyadic to an F32 value, as a dyadic. -/
def rndF (a : Dy) : Dy := (f32 a.num.toF32).dy

/-- The exact value of an F32 pattern. -/
def pat (w : W32) : Dy := (f32 w).dy

/-- The four steps from p = c4 to RoundToF32(d × p), with a rounding of choice (R87, R93). -/
def expPoly (rnd : Dy → Dy) (d : Dy) : Dy :=
  let p := rnd ((pat 0x3D635847).add (d.mul (pat 0x3C1D955B)))
  let p := rnd ((pat 0x3E75FDF0).add (d.mul p))
  let p := rnd ((pat 0x3F317218).add (d.mul p))
  rnd (d.mul p)

/-- y × 2^n of `Exp2F` before its last rounding, with a rounding of choice (R87, R93). -/
def exp2Core (rnd : Dy → Dy) (x : Dy) : Dy :=
  let n := x.floor
  let u := x.sub (.int n)
  let j := (u.scale 4).floor
  let d := u.sub ⟨j, -4⟩
  let p := expPoly rnd d
  let h : Dy := ⟨lnsC j.toNat, -23⟩
  (rnd (h.add (h.mul p))).scale n

/-- `Exp2F` (R87). -/
def exp2F (w : W32) : W32 :=
  match f32 w with
  | .nan => nanF
  | .inf s => if s then 0 else 0x7F800000
  | x =>
    if !x.dy.lt (.int 128) then 0x7F800000
    else if x.dy.lt (.int (-150)) then 0
    else (exp2Core rndF x.dy).num.toF32

/-- Exponent and mantissa of a positive magnitude: m × 2^e = 2^ex × mm with 1 ≤ mm < 2 (R88). -/
def normal (m : Nat) (e : Int) : Int × Dy := (e + Nat.log2 m, ⟨m, -(Nat.log2 m : Int)⟩)

/-- The largest j with C[j] × 2^-23 at or below mm, from `n` down. -/
def logIndex (mm : Dy) : Nat → Nat
  | 0 => 0
  | n + 1 => if (⟨lnsC (n + 1), -23⟩ : Dy).le mm then n + 1 else logIndex mm n

/-- `Log2F` (R88). -/
def log2F (w : W32) : W32 :=
  match f32 w with
  | .nan => nanF
  | .inf s => if s then nanF else 0x7F800000
  | .fin s m e =>
    if m = 0 then 0xFF800000
    else if s then nanF
    else
      let (ex, mm) := normal m e
      let j := logIndex mm 15
      let g : Dy := if j = 0 then .int 1 else ⟨lnsC (16 - j), -24⟩
      let y := rndF ((mm.mul g).sub (.int 1))
      let p := rndF ((pat 0x3EF6384F).add (y.mul (pat 0xBEB8AA3B)))
      let p := rndF ((pat 0xBF38AA3B).add (y.mul p))
      let p := rndF ((pat 0x3FB8AA3B).add (y.mul p))
      let p := rndF (y.mul p)
      (((Dy.int ex).add ⟨j, -4⟩).add p).num.toF32

/-- a / b with 64 more bits and a sticky bit, for one rounding. -/
def quotient (a b : Nat) : Dy := ⟨2 * (a * 2 ^ 64 / b) + (if a * 2 ^ 64 % b = 0 then 0 else 1), -65⟩

/-- `RecipF` (R89). -/
def recipF (w : W32) : W32 :=
  match f32 w with
  | .nan => nanF
  | .inf s => if s then 0x80000000 else 0
  | .fin s m e =>
    if m = 0 then (if s then 0xFF800000 else 0x7F800000)
    else
      let (ex, mm) := normal m e
      let j := ((mm.sub (.int 1)).scale 4).floor
      let y0 := rndF (quotient 32 (33 + 2 * j.toNat))
      let er := rndF ((Dy.int 1).sub (mm.mul y0))
      let step := fun p : Dy => rndF (er.add (er.mul p))
      let p := step (step (step (step er)))
      let y := rndF (y0.add (y0.mul p))
      (Num.fin s y.m.natAbs (y.e - ex)).toF32

/-- Integer square root, bit by bit from 2^(n−1) down. -/
def isqrtFrom (v : Nat) : Nat → Nat → Nat
  | 0, r => r
  | n + 1, r => if (r + 2 ^ n) * (r + 2 ^ n) ≤ v then isqrtFrom v n (r + 2 ^ n) else isqrtFrom v n r

/-- sqrt(a / b) with 64 more bits and a sticky bit; the 32 seeds are irrational (R90). -/
def sqrtQuot (a b : Nat) : Dy := ⟨2 * isqrtFrom (a * 2 ^ 128 / b) 66 0 + 1, -65⟩

/-- `RsqrtF` (R90). -/
def rsqrtF (w : W32) : W32 :=
  match f32 w with
  | .nan => nanF
  | .inf s => if s then nanF else 0
  | .fin s m e =>
    if m = 0 then (if s then 0xFF800000 else 0x7F800000)
    else if s then nanF
    else
      let (ex0, mm0) := normal m e
      let odd := ex0 % 2 = 1
      let mm := if odd then mm0.scale 1 else mm0
      let ex := if odd then ex0 - 1 else ex0
      let y0 := rndF (if mm.lt (.int 2) then sqrtQuot 32 (33 + 2 * ((mm.sub (.int 1)).scale 4).floor.toNat)
        else sqrtQuot 16 (33 + 2 * ((mm.sub (.int 2)).scale 3).floor.toNat))
      let er := rndF ((Dy.int 1).sub ((mm.mul y0).mul y0))
      let p := rndF ((⟨63, -8⟩ : Dy).add (er.mul ⟨231, -10⟩))
      let p := rndF ((⟨35, -7⟩ : Dy).add (er.mul p))
      let p := rndF ((⟨5, -4⟩ : Dy).add (er.mul p))
      let p := rndF ((⟨3, -3⟩ : Dy).add (er.mul p))
      let p := rndF ((⟨1, -1⟩ : Dy).add (er.mul p))
      let p := rndF (er.mul p)
      let y := rndF (y0.add (y0.mul p))
      (Num.fin false y.m.natAbs (y.e - ex / 2)).toF32

/-! ## Matrix products (R82 to R85) -/

/-- The exact sum and the poison of one row of L6 or L8 codes against one column, from K position `k` on. -/
def lnsDot (fmt k : Nat) (sa sw : List Int) : List Nat → List Nat → Option Dy
  | a :: as, w :: ws =>
    match lnsDot fmt (k + 1) sa sw as ws with
    | none => none
    | some d =>
      if a = lnsPoison fmt ∨ w = lnsPoison fmt then none
      else if lnsField fmt a = 0 ∨ lnsField fmt w = 0 then some d
      else
        let n := lnsCount fmt a + lnsCount fmt w + 4 * sa.getD (k / 64) 0 + 4 * sw.getD (k / 64) 0
        let v := lnsMag n
        some (d.add (if lnsSign fmt a != lnsSign fmt w then v.neg else v))
  | _, _ => some ⟨0, 0⟩

/-- One accumulator element after one L6 or L8 multiply (R82, R83). -/
def lnsElem (acc : W32) (d : Option Dy) : W32 :=
  match d with
  | none => nanF
  | some v =>
    match f32 acc with
    | .nan => nanF
    | .inf _ => acc
    | x => (x.dy.add v).num.toF32

/-- The sum of the products of two BF16 rows (R84). -/
def bfDot : List Nat → List Nat → Num
  | a :: as, b :: bs => ((bf16 a).mul (bf16 b)).add (bfDot as bs)
  | _, _ => .fin false 0 0

/-- One accumulator element after a BF16 multiply; an exact zero is +0 (R83, R84). -/
def bfElem (acc : W32) (d : Num) : W32 :=
  match (f32 acc).add d with
  | .fin s m e => if m = 0 then 0 else (Num.fin s m e).toF32
  | x => x.toF32

/-- The sum of the products of two I8 rows (R85). -/
def i8Dot : List Nat → List Nat → Int
  | a :: as, b :: bs => sbyte a * sbyte b + i8Dot as bs
  | _, _ => 0

/-! ## Attention arithmetic (R91 to R94): a number in the internal form is a `Num` with at most 40 significant bits. -/

/-- `RoundInt` (R91). -/
def Num.roundInt : Num → Num
  | .fin s m e =>
    if m = 0 then .fin false 0 0
    else
      let r := roundMag 40 (e - 64) m e
      let v : Dy := ⟨r.1, r.2⟩
      if v.lt ⟨1, -126⟩ then .fin false 0 0
      else if (⟨2 ^ 40 - 1, 472⟩ : Dy).lt v then .inf s
      else .fin s r.1 r.2
  | x => x

/-- A dyadic rounded to the internal form, as a dyadic. -/
def rndI (a : Dy) : Dy := a.num.roundInt.dy

/-- `Exp2A` (R93). -/
def exp2A : Num → Num
  | .nan => .nan
  | .inf s => if s then .fin false 0 0 else .inf false
  | x =>
    if x.dy.lt (.int (-160)) then .fin false 0 0
    else if !x.dy.lt (.int 512) then .inf false
    else (exp2Core rndI x.dy).num.roundInt

/-- A BF16 input of the engine: a subnormal is flushed to +0 (R92). -/
def bfIn (n : Nat) : Num :=
  match bf16 n with
  | .fin s m e => if m < 2 ^ 23 then .fin false 0 0 else .fin s m e
  | x => x

/-- The larger of two internal numbers; NaN propagates. -/
def Num.maxN (a b : Num) : Num := if a.isNan || b.isNan then .nan else if a.ltNum b then b else a

/-- Read-out of an internal number (R94). -/
def Num.readOut (x : Num) : W32 :=
  let r := x.toF32
  if r.toNat / 2 ^ 23 % 256 = 0 then 0 else r

/-- The running state of one query row (R92): maximum, normaliser and output row. -/
structure AttnRow where
  m : Num
  l : Num
  o : List Num
  deriving DecidableEq, Repr

/-- The exact sum of exact products of two lists of numbers. -/
def dotNum : List Num → List Num → Num
  | a :: as, b :: bs => (a.mul b).add (dotNum as bs)
  | _, _ => .fin false 0 0

/-- One key row (R92). Zero times infinity, and a sum of infinities of opposite sign, give NaN as in IEEE 754: the spec says so for
`-inf - (-inf)` alone (R93; PRESUMED, log 54). -/
def AttnRow.step (r : AttnRow) (scale : Num) (q k v : List Num) : AttnRow :=
  let dot := (dotNum q k).roundInt
  let s := (scale.mul dot).roundInt
  let mn := r.m.maxN s
  let alpha := exp2A ((r.m.add mn.neg).roundInt)
  let pw := exp2A ((s.add mn.neg).roundInt)
  { m := mn
    l := ((r.l.mul alpha).add pw).roundInt
    o := (r.o.zip v).map fun p => ((p.1.mul alpha).add (pw.mul p.2)).roundInt }

/-- The state before the first key (R92). -/
def AttnRow.start (d : Nat) : AttnRow := ⟨.inf true, .fin false 0 0, List.replicate d (.fin false 0 0)⟩

end Sys2Proof.Machine
end

