-- ==== Sys2Proof/Machine/Sparse.lean ====
section
/-! DEFINITION. Sparse tables: lookup, update and removal by key, in rising key order. -/

namespace Sys2Proof.Machine

/-- The entry with key `k`, if the table lists one. -/
def slook {α : Type} : SMap α → Nat → Option α
  | [], _ => none
  | (j, v) :: r, k => if j = k then some v else slook r k

/-- The entry with key `k`, or what an unlisted key reads as. -/
def sget {α : Type} (d : α) (m : SMap α) (k : Nat) : α := (slook m k).getD d

/-- Set the entry with key `k`, keeping the keys in rising order. -/
def sput {α : Type} : SMap α → Nat → α → SMap α
  | [], k, v => [(k, v)]
  | (j, w) :: r, k, v =>
    if j = k then (k, v) :: r else if k < j then (k, v) :: (j, w) :: r else (j, w) :: sput r k v

/-- Remove what the table lists under key `k`. -/
def sdel {α : Type} : SMap α → Nat → SMap α
  | [], _ => []
  | (j, w) :: r, k => if j = k then sdel r k else (j, w) :: sdel r k

/-- Set the entries `k`, `k + 1`, … to the listed values. -/
def sputs {α : Type} (m : SMap α) (k : Nat) : List α → SMap α
  | [] => m
  | v :: vs => sputs (sput m k v) (k + 1) vs

/-- The `n` entries from key `k` on. -/
def sgets {α : Type} (d : α) (m : SMap α) (k : Nat) : Nat → List α
  | 0 => []
  | n + 1 => sget d m k :: sgets d m (k + 1) n

end Sys2Proof.Machine
end

