-- ==== Sys2Proof/Machine/StateCore.lean ====
section
/-! DEFINITION. What one core holds (R29 to R73, R111, R214 to R246, R382): plain data. Every field's default is its
value at module reset; the doc comment of a field gives its width, its rule and what the reset value rests on. -/

namespace Sys2Proof.Machine

/-- One level of a hardware loop (R171). -/
structure LoopLevel where
  start : Nat
  stop : Nat
  count : Nat
  deriving DecidableEq, Repr

/-- The trap state of a strand (R382). -/
structure TrapRegs where
  /-- %tcause: 64 bits, SYND [7:0], INH [8], PAST [9]; R382; reset 0 -/
  cause : Word := 0
  /-- %tepc: 64 bits, PC [14:0]; R382; reset 0 -/
  epc : Word := 0
  /-- %tword: 64 bits, WORD [31:0]; R382; reset 0 -/
  word : Word := 0
  /-- %taddr: 64 bits; R382; reset 0 -/
  addr : Word := 0
  /-- %tinfo: 64 bits; R382, R383; reset 0 -/
  info : Word := 0
  /-- %tvec: 64 bits, EN [0], ENTRY [15:1]; R382; reset 0 -/
  vec : Word := 0
  /-- %tscr: 64 bits; R382; reset 0 -/
  scr : Word := 0
  deriving DecidableEq, Repr

/-- Why a word is not ready (R31): it waits for a queue entry to pop, for a free entry to push, or for something else. -/
inductive Wait where
  | pop (partner : StrandId)
  | push (partner : StrandId)
  | other
  deriving DecidableEq, Repr

/-- A strand found in its join slot: the cycle of the finding, what its word waits for, and the queues the word pops from
and pushes to (R32, R35, R54). -/
structure JoinRec where
  cycle : Nat
  waits : List Wait
  pops : List StrandId
  pushes : List StrandId
  deriving DecidableEq, Repr

/-- What holds back a strand's next word after an instruction that waits (R174, R175, R176, R194, R224, R244, R254). -/
inductive Block where
  | none
  /-- `cwait` or `bar`: until the counter holds the value; the word's index and loop stack, for a trap at it -/
  | counter (handle value : Word) (pc : Nat) (loops : List LoopLevel)
  /-- a `bar` whose own add has not been made; n participants -/
  | barrier (handle n : Word) (tok : Nat) (pc : Nat) (loops : List LoopLevel)
  /-- a remote wait, registered at the other module's hub or not yet (R66) -/
  | remote (handle value : Word) (registered : Bool) (pc : Nat) (loops : List LoopLevel)
  /-- `mfence` at the strand's own word: its markers are placed, behind every command older than the token -/
  | fence (mask : Nat) (tok : Nat)
  /-- `mwait`: until the entries that target the accumulator and entered the queue in an earlier cycle have retired -/
  | accum (c : Nat) (cycle : Nat)
  /-- `trwait` -/
  | treadle
  /-- `twait` -/
  | tile (t : Nat)
  /-- until the variable-latency result with this token has been written -/
  | result (tok : Nat)
  /-- `tlbinv`: until none of these engine commands (core and token) still holds a dropped translation -/
  | drained (pend : List (Nat × Nat))
  /-- `cwb`, `cinv`: until the write-backs with this token have reached their homes -/
  | writeBacks (tok : Nat)
  /-- `coll`: while the collective with this token is beyond the 16 in flight (R340) -/
  | collective (tok : Nat)
  deriving DecidableEq, Repr

/-- One strand (R29, R30, R50). -/
structure Strand where
  /-- running or stopped: 1 bit; R30; reset stopped -/
  running : Bool := false
  /-- program counter: word index 0 to 24,576; R29; reset 0 (DESIGN CHOICE 0, log 3) -/
  pc : Nat := 0
  /-- first cycle in which the stall count and any transfer delay of the previous word have elapsed; R144, R149; reset 0 -/
  readyAt : Nat := 0
  /-- x0 to x31: 32 of 64 bits; R50; reset 0 (R39 states it at launch; DESIGN CHOICE 0 before, log 3) -/
  x : SMap Word := []
  /-- loop stack: four levels; R171; reset empty (DESIGN CHOICE empty, log 3) -/
  loops : List LoopLevel := []
  /-- loop stack set aside by a handler; R385; reset empty -/
  aside : List LoopLevel := []
  /-- trap state; R382; reset 0 -/
  trap : TrapRegs := {}
  /-- %dmsub: 64 bits; R69; reset 0 -/
  dmsub : Word := 0
  /-- what holds back the next word; R174 to R176; reset none -/
  block : Block := .none
  /-- what held back the next word when the handler was entered; R385, R418; reset none -/
  asideBlock : Block := .none
  /-- the join slot; R32; reset empty -/
  join : Option JoinRec := none
  deriving DecidableEq, Repr

/-- One entry of a queue register: reserved at issue, written later, visible to readiness from a cycle on (R53). -/
structure QEntry where
  tok : Nat
  val : Option (Word × Nat)
  deriving DecidableEq, Repr

/-- One directed queue between two strands (R51 to R53). -/
structure Queue where
  /-- up to eight entries of 64 bits, head first; R51; reset empty -/
  entries : List QEntry := []
  /-- the cycle of the latest pop and the pops made in it, whose places are not yet free; R52, R53; reset 0 -/
  popCycle : Nat := 0
  popCount : Nat := 0
  deriving DecidableEq, Repr

/-- A mask pair (R61). -/
structure MaskPair where
  /-- row mask: 128 bits; R61, R39; reset all ones (R39 states it at launch; DESIGN CHOICE all ones before, log 3) -/
  row : BitVec 128 := BitVec.allOnes 128
  /-- column mask: 192 bits; R61, R39; reset all ones (R39 states it at launch; DESIGN CHOICE all ones before, log 3) -/
  col : BitVec 192 := BitVec.allOnes 192
  deriving DecidableEq, Repr

/-- Where a result goes: a scalar register (a queue alias writes the entry reserved under the word's token), a 32-lane V
destination together with `lat` (R56), or a mask pair (R225). -/
inductive Result where
  | x (r : Nat) (v : Word)
  | vec (code : Nat) (lanes : List W32)
  | mask (k : Nat) (m : MaskPair)
  deriving DecidableEq, Repr

/-- A fixed-latency write on its way (R145, R146): the strand, the word's token, the result and the cycle it lands in. -/
structure FixedWrite where
  strand : StrandId
  tok : Nat
  res : Result
  land : Nat
  /-- it leaves `lat` as it is: a write made again after a discard, past which a later result has reached `lat` (R123, R199) -/
  bare : Bool := false
  deriving DecidableEq, Repr

/-- A variable-latency result on its way (R145, R199); `known` once the value has been fetched. -/
structure VarResult where
  strand : StrandId
  tok : Nat
  res : List Result
  known : Bool
  deriving DecidableEq, Repr

/-- A special-register write that takes effect in the next cycle (R177). -/
structure SprWrite where
  strand : StrandId
  num : Nat
  val : Word
  deriving DecidableEq, Repr

/-- Vector state (R55, R56). -/
structure VecState where
  /-- grid: 1,024 elements of 32 bits, key 32i + j; R55, R39; reset 0 (R39 states it at launch; DESIGN CHOICE 0 before, log 3) -/
  grid : SMap W32 := []
  /-- o0 to o7: 8 x 32 lanes of 32 bits, key 32n + k; R56, R39; reset 0 (R39 states it at launch; DESIGN CHOICE 0 before, log 3) -/
  ofile : SMap W32 := []
  /-- lat: 32 lanes of 32 bits; R56, R39; reset 0 (R39 states it at launch; DESIGN CHOICE 0 before, log 3) -/
  lat : SMap W32 := []
  deriving DecidableEq, Repr

/-- Kinds of an outstanding access of a strand (R247, R251, R252, R210, R211, R225, R254). -/
inductive MopKind where
  | load (d : Nat) (sx : Bool)
  | store (bytes : List Byte)
  | amo (op : AmoOp) (d : Nat) (operand expected : Word)
  | red (op : RedOp) (f32 : Bool) (operand : W32)
  | vld (code : Nat)
  | vst (bytes : List Byte)
  | mkld (k : Nat)
  | tseal (t : Nat)
  | tdrop (t : Nat)
  deriving DecidableEq, Repr

/-- A part of a range of global memory that lies in one translation granule: its first PA, its length and the leaf's KV; the
translation is held by an engine from issue on (R399). -/
structure Seg where
  pa : Nat
  len : Nat
  kv : Bool
  deriving DecidableEq, Repr

/-- What a discarded strand returns to (R123, R379): its own state, the vector state (strand V), the mask pairs (strand M)
and the strand's fixed-latency writes on their way as they stood before the word, and the cycle in which they stood so. -/
structure Snapshot where
  strand : Strand
  vec : VecState
  masks : SMap MaskPair
  fixed : List FixedWrite
  cycle : Nat
  /-- the cycle of the latest variable-latency write of `lat` that it has taken, and the token of its word (R58) -/
  latBy : Nat × Nat := (0, 0)
  deriving DecidableEq, Repr

/-- How a walk failed an access: the level, a malformed entry, and HAVE where a leaf lacks a permission (R396). -/
structure WalkFail where
  level : Nat
  malf : Bool
  perm : Option Nat
  deriving DecidableEq, Repr

/-- An access that has issued and is not yet performed (R123, R125). -/
structure MemOp where
  strand : StrandId
  tok : Nat
  kind : MopKind
  space : Nat
  addr : Word
  len : Nat
  ord : Nat
  scope : Nat
  /-- module time of the first sending, for the 100 µs of R447 -/
  sent : Nat
  /-- PA, KV and RED of a `red` in space 0, which is translated before it is posted (R398) -/
  home : Option (Nat × Bool × Bool) := none
  /-- the parts of the bytes of a load, store or atomic in space 0 whose check passed as the word issued: none while it has
  not passed (R398) -/
  segs : List Seg := []
  /-- the end of the coalesced walk that the access waited for, where its check failed: level, and malformed or the leaf's
  permissions (R105, R400) -/
  walk : Option WalkFail := none
  /-- eviction class that the policy's thresholds give, none for the page's own (R115) -/
  cls : Option Nat := none
  /-- tokens of accesses of other strands that a bundle orders before this one (R124) -/
  after : List Nat := []
  /-- a read of this access, made ahead, has marked a line (R403) -/
  found : Bool := false
  /-- the core has stopped since, and no fault of the access is reported (R327) -/
  orphan : Bool := false
  snap : Snapshot
  deriving DecidableEq, Repr

/-- A pop made by a word younger than an access that has not retired (R123). -/
structure PopRec where
  strand : StrandId
  partner : StrandId
  tok : Nat
  entry : QEntry
  deriving DecidableEq, Repr

/-- A weight plane (R60, R217). -/
structure Plane where
  /-- 2 bits: 0 EMPTY, 1 LOADING, 2 LOADED, 3 COMPUTING; R60, R69 (%wstate); reset 0 -/
  state : Nat := 0
  /-- format tag of the last `wld` to issue for the plane; R217; reset none -/
  issueTag : Option Nat := none
  /-- format tag: 0 L8, 1 L6, 2 BF16, 3 I8; R60; reset 0 (DESIGN CHOICE 0, log 3) -/
  tag : Nat := 0
  /-- canonical W operand and scale strip, by byte; R60, R110, R39; reset 0 (R39 states it at launch; DESIGN CHOICE 0 before, log 3) -/
  bytes : SMap Byte := []
  deriving DecidableEq, Repr

/-- An operand of `wld` or `mma`: a tile group or a tile handle (R154, R218). -/
inductive OperandSrc where
  | tile (t : Nat)
  | handle (h : Word)
  deriving DecidableEq, Repr

/-- Work of an array-queue entry (R214). Formats: 0 L8, 1 L6, 2 BF16, 3 I8. -/
inductive ArrOp where
  | wld (fmt p : Nat) (src : OperandSrc)
  | mma (fmt c p : Nat) (mask : MaskPair) (z : Bool) (src : OperandSrc)
  | mzero (c : Nat)
  | mdrain (c t : Nat) (mask : MaskPair) (desc : Word)
  | mpbld (block : List Byte)
  | lutld (block : List Byte)
  | trgo (tcb : List Byte) (masks : List MaskPair) (looka lookd : Nat)
  deriving DecidableEq, Repr

/-- An entry of the array queue (R214, R215, R223). -/
structure ArrEntry where
  tok : Nat
  op : ArrOp
  /-- core cycle in which it entered the queue (R62) -/
  entered : Nat := 0
  /-- counter handle of the `wcp.mm` it follows (R261) -/
  follow : Option Word := none
  started : Bool := false
  /-- next beat of a multiply, or next row of a drain -/
  beat : Nat := 0
  /-- stopped by OPND until strand M's handler returns or abandons it (R223) -/
  stopped : Bool := false
  /-- checksum mismatches of the next row (R360) -/
  fails : Nat := 0
  /-- scale-and-bias words read at a drain's start (R227) -/
  sb : List W32 := []
  /-- the scale-and-bias words come from lines in which an error was found (R403) -/
  sbBad : Bool := false
  /-- accumulator rows that a drain has read, and the lines it has written (R228, R229) -/
  image : SMap (List W32) := []
  wrote : List Nat := []
  /-- operand lines that the fetcher has read, by their number in the operand (R220) -/
  lines : SMap (List Byte) := []
  /-- module time of the request of an operand line at another module that has not arrived (R421) -/
  since : Option Nat := none
  /-- translations of an operand by handle, and the K-block of its pages (R218, R399) -/
  segs : List Seg := []
  geom : Nat := 64
  /-- `%mprog` describes it (R223) -/
  noted : Bool := false
  deriving DecidableEq, Repr

/-- A drain slot of a treadle run: its number, the end drain that uses it (none for a stitch's own drain), the accumulator
image it reads, its scale-and-bias words, the next row, and lines that were refused and are still to be written (R238). -/
structure DrainSlot where
  slot : Nat
  endDrain : Option Nat
  c : Nat
  t : Nat
  desc : Word
  mask : MaskPair
  image : SMap (List W32)
  sb : List W32
  rows : Nat
  pend : List (Nat × List Byte)
  deriving DecidableEq, Repr

/-- A treadle run (R234 to R246). -/
structure Run where
  /-- token and core cycle in which its entry entered the array queue -/
  tok : Nat
  entered : Nat
  tcb : List Byte
  masks : List MaskPair
  looka : Nat
  lookd : Nat
  /-- stitches to run, lowered by `trstop` (R244) -/
  stitches : Nat
  /-- next global beat -/
  g : Nat
  /-- core cycle in which that beat is due -/
  due : Nat
  slots : List DrainSlot
  /-- checksum mismatches of the next row (R360) -/
  fails : Nat
  deriving DecidableEq, Repr

/-- A tile's entry of the tile table (R111). -/
structure TileEntry where
  /-- STATE: 2 bits, 0 EMPTY, 1 FILLING, 2 FULL, 3 DRAINING; R111; reset 0 -/
  state : Nat := 0
  /-- EXPECT: 6 bits; R111; reset 32 -/
  expect : Nat := 32
  /-- PRES: 32 bits; R111; reset 0 -/
  pres : BitVec 32 := 0
  deriving DecidableEq, Repr

/-- A Welt command in the core's queue (R257). -/
structure WeltCmd where
  tok : Nat
  /-- L opcode 0x20 to 0x25 -/
  op : Nat
  a : Word
  b : Word
  desc : Word
  /-- expected version of `wcp.cond`, follow-on word of `wcp.mm` -/
  extra : Word
  /-- completion counter handle, all ones for none -/
  k : Word
  /-- format and K-block of the pages of a matrix operand: 0 L8, 1 L6, 2 BF16, 3 I8 (R259) -/
  fmt : Nat := 0
  geom : Nat := 64
  /-- translations held of the global source and of the global destination (R399) -/
  segs : List Seg := []
  dsegs : List Seg := []
  /-- destination lines written, and those on their way to tiles -/
  done : List Nat := []
  sent : List Nat := []
  /-- lines read and not yet written, with their poison (R259, R260) -/
  held : SMap (List Byte × Bool) := []
  /-- source pieces that have been read for a line, each at a point of its own, with their poison: key of the destination line
  and the piece (R132, R133) -/
  pieces : SMap (List Byte × Bool) := []
  /-- the mask pair of the follow-on word, taken as the last byte of its group lands (R261) -/
  follow : Option MaskPair := none
  /-- module time of the first request that another module has not answered (R447) -/
  since : Option Nat := none
  deriving DecidableEq, Repr

/-- An Awl run waiting in a launch queue (R193, R299). -/
structure AwlReq where
  tok : Nat
  slot : Nat
  gen : Nat
  entry : Nat
  arg : Word
  k : Word
  asid : Nat
  root : Nat
  /-- its place in the order in which the Awl took runs, none while it has not been taken (R299) -/
  taken : Option Nat := none
  deriving DecidableEq, Repr

/-- A deferred slot (R407, R426). -/
structure Deferred where
  synd : Nat
  addr : Word
  info : Word
  deriving DecidableEq, Repr

/-- A held engine trap (R418, R419). -/
structure EngineTrap where
  strand : StrandId
  synd : Nat
  addr : Word
  info : Word
  /-- first cycle in which it may be taken -/
  due : Nat
  deriving DecidableEq, Repr

/-- A pre-emption request (R317): the record it serves, the cycle of the core in which it was raised, and whether it is
served only at a `yield`. -/
structure PreReq where
  record : Nat
  cycle : Nat
  atYield : Bool
  deriving DecidableEq, Repr

/-- What a core is doing (R37, R40 to R42). -/
inductive Work where
  | idle
  | launch
  /-- an iteration of the record with this identity on the core's die, and its linear number -/
  | iteration (record linear : Nat)
  /-- a save into the pool area of the record's iteration -/
  | saving (record linear area : Nat)
  /-- a restore from the pool area -/
  | restoring (record linear area : Nat)
  /-- an abandoned unit whose engine queues drain (R387) -/
  | draining
  deriving DecidableEq, Repr

/-- A core's boot mailbox (R36). -/
structure Mailbox where
  /-- IMAGE: 64 bits; R36; reset 0 -/
  image : Word := 0
  /-- ARG: 64 bits; R36; reset 0 -/
  arg : Word := 0
  /-- CTL.GO: 1 bit; R36; reset 0 -/
  go : Bool := false
  /-- STAT.STATE: 3 bits; R36; reset 0 -/
  state : Nat := 0
  /-- STAT.REF: 1 bit; R36; reset 0 -/
  ref : Bool := false
  /-- STAT.SYND: 8 bits; R36; reset 0 -/
  synd : Nat := 0
  /-- IMAGE and ARG latched at the accepted GO; R37; reset 0 -/
  latchedImage : Word := 0
  latchedArg : Word := 0
  deriving DecidableEq, Repr

/-- An overlay load in progress (R181): the parts of memory that hold its segment, translated as the `ovl` issued, and the bytes
that stood there then. -/
structure OvlLoad where
  tok : Nat
  d : Nat
  src : Nat
  dest : Nat
  count : Nat
  segs : List Seg
  bytes : List Byte
  /-- the core's cycle in which the `ovl` issued -/
  cycle : Nat
  /-- what strand Q returns to if the load faults (R181) -/
  snap : Snapshot
  deriving DecidableEq, Repr

/-- An agent whose messages to one die or module form an ordered stream (R333). -/
inductive Sender where
  /-- a core's fabric port -/
  | port (core : Nat)
  /-- a core's Welt engine -/
  | welt (core : Nat)
  /-- a core's context command path, for a command whose first T-die is `die` -/
  | context (core die : Nat)
  /-- the collective engines of hub die 16 -/
  | collective
  /-- the graph engine of hub die 16, at the end of a replay -/
  | replay
  /-- the graph engine for an ADD node of the replay with this generation -/
  | graph (gen : Nat)
  /-- an engine of a K-die, whose messages form no stream of R333 -/
  | unit (unit : UnitId)
  deriving DecidableEq, Repr

/-- The agent of R333 that a sender is, as a code and a number; none where R333 lists none. -/
def Sender.stream : Sender → Option (Nat × Nat)
  | .port c => some (0, c)
  | .welt c => some (1, c)
  | .context c _ => some (2, c)
  | .collective => some (3, 16)
  | .replay => some (4, 16)
  | .graph _ => some (4, 16)
  | .unit _ => none

/-- A counter add on its way to the counter's holder (R67, R127, R173). -/
structure Add where
  handle : Word
  value : Nat
  /-- for a posted `cadd`: core, strand and token of the word -/
  src : Option (Nat × StrandId × Nat)
  /-- the add of a `bar` with n participants -/
  bar : Option Nat
  /-- module time of the first sending -/
  sent : Nat
  /-- who sent it -/
  sender : Sender
  deriving DecidableEq, Repr

/-- One core (R28). -/
structure Core where
  /-- cycles of the core's arithmetic clock since reset (model's own count); R144; reset 0 -/
  cycle : Nat := 0
  /-- tokens given to issued words (model's own count); reset 0 -/
  seq : Nat := 0
  /-- strand Q; R29; reset: see Strand -/
  q : Strand := {}
  /-- strand V; R29; reset: see Strand -/
  v : Strand := {}
  /-- strand M; R29; reset: see Strand -/
  m : Strand := {}
  /-- strand L; R29; reset: see Strand -/
  l : Strand := {}
  /-- the twelve directed queues, key 4 x from + to; R51; reset empty -/
  queues : SMap Queue := []
  /-- %joinmask: 64 bits; R69; reset 0xF -/
  joinmask : Word := 0xF
  /-- %sbcheck: 64 bits; R69; reset 0 -/
  sbcheck : Word := 0
  /-- %spsplit: 64 bits; R69; reset 2 -/
  spsplit : Word := 2
  /-- %cycle: 64 bits; R69; reset 0 -/
  cyc : Nat := 0
  /-- %ctx: 64 bits; R69; reset 0 -/
  ctx : Word := 0
  /-- %lineage.lo: 64 bits; R69; reset 0 -/
  lineageLo : Word := 0
  /-- %lineage.hi: 64 bits; R69; reset 0 -/
  lineageHi : Word := 0
  /-- %mprog: 64 bits; R69; reset 0 -/
  mprog : Word := 0
  /-- %tmiss: 64 bits; R69; reset 0 -/
  tmiss : Word := 0
  /-- %tlook.a: 64 bits; R69; reset 8 -/
  tlooka : Word := 8
  /-- %tlook.d: 64 bits; R69; reset 4 -/
  tlookd : Word := 4
  /-- demand queues of the strands, 32 entries of 64 bits each, key strand index; R71; reset empty -/
  demands : SMap (List Word) := []
  /-- demand events the quad network holds for each strand; R71; reset empty -/
  demandNet : SMap (List Word) := []
  /-- grid, operand file and lat; R55, R56; reset 0 -/
  vec : VecState := {}
  /-- fixed-latency writes on their way, in issue order; R145; reset none -/
  fixed : List FixedWrite := []
  /-- variable-latency results on their way; R145; reset none -/
  vars : List VarResult := []
  /-- special-register writes of this cycle; R177; reset none -/
  sprs : List SprWrite := []
  /-- accesses not yet performed, in issue order; R123; reset none -/
  mops : List MemOp := []
  /-- pops that a discard would undo; R123; reset none -/
  popLog : List PopRec := []
  /-- engine traps taken behind an access that has not retired, with the token reached, which a discard would undo; R123;
  reset none -/
  trapLog : List (Nat × EngineTrap) := []
  /-- tokens of the accesses that each strand's last bundle ordered before its later ones, key strand index; R124; reset none -/
  barrier : SMap (List Nat) := []
  /-- the token past each strand's last word with an effect that no discard undoes (model's own count), key strand index;
  R123; reset 0 -/
  gave : SMap Nat := []
  /-- replays in a row of a strand's oldest load, key strand index; R409; reset 0 -/
  replays : SMap Nat := []
  /-- the value that a strand last loaded from another module's counter, key 4 x handle + strand index; R122; reset none -/
  seen : SMap Nat := []
  /-- the cycle of the latest write of `lat` and the token of its word; R58; reset 0 -/
  latBy : Nat × Nat := (0, 0)
  /-- a0 to a3: rows of 192 elements of 32 bits, key 128n + i; R59, R39; reset 0 (R39 states it at launch; DESIGN CHOICE 0 before, log 3) -/
  acc : SMap (List W32) := []
  /-- w0; R60; reset EMPTY -/
  w0 : Plane := {}
  /-- w1; R60; reset EMPTY -/
  w1 : Plane := {}
  /-- mk0 to mk7; R61, R39; reset all ones (R39 states it at launch; DESIGN CHOICE all ones before, log 3) -/
  masks : SMap MaskPair := []
  /-- mask parameter store: ROWS; R231, R233; reset 0 (R233 states it at launch; DESIGN CHOICE 0 before, log 3) -/
  mpRows : Nat := 0
  /-- mask parameter store: the vectors, by byte from offset 16 of the block; R231; reset 0 (R233 states it at launch; DESIGN CHOICE 0 before, log 3) -/
  mpBytes : List Byte := []
  /-- activation table: 2,048 bytes; R232, R233; reset 0 (R233 states it at launch; DESIGN CHOICE 0 before, log 3) -/
  lut : List Byte := []
  /-- array queue: 8 entries; R214; reset empty -/
  arr : List ArrEntry := []
  /-- treadle run; R234; reset none -/
  run : Option Run := none
  /-- tile table: 320 entries; R111; reset EMPTY, EXPECT 32 -/
  tiles : SMap TileEntry := []
  /-- scratchpad bytes, by byte offset; R111; reset 0 (DESIGN CHOICE 0, log 4) -/
  pad : SMap Byte := []
  /-- lines of tiles with data poison, by line number 32t + n; R361, R403; reset none -/
  padPoison : List Nat := []
  /-- lines of tiles with an uncorrectable error that no read has found yet; R355, R403; reset none -/
  padDamaged : List Nat := []
  /-- instruction memory: 24,576 words of 32 bits; R40, R141; reset 0 -/
  imem : SMap W32 := []
  /-- the core holds a loaded image; R40; reset no -/
  loaded : Bool := false
  /-- header VA of the most recent launch; R181; reset none -/
  header : Option Word := none
  /-- overlay loads in progress, oldest first; R181; reset none -/
  ovl : List OvlLoad := []
  /-- boot mailbox; R36; reset 0 -/
  mbox : Mailbox := {}
  /-- unit of work; R40; reset idle -/
  work : Work := .idle
  /-- the image load is in progress; R37; reset no -/
  loading : Bool := false
  /-- Welt queue: 32 commands; R257; reset empty -/
  welt : List WeltCmd := []
  /-- Awl launch queues, 8 runs per strand; R193, R299; reset empty -/
  awlq : SMap (List AwlReq) := []
  /-- deferred slots, key 2 x strand index + (0 Welt, 1 fabric); R407; reset empty -/
  deferred : SMap (Option Deferred) := []
  /-- held engine traps in event order; R418, R419; reset none -/
  traps : List EngineTrap := []
  /-- space id bound by firmware: 16 bits; R102; reset 0 (DESIGN CHOICE 0, log 5) -/
  asid : Nat := 0
  /-- PA of the level-0 table bound by firmware: 48 bits; R102; reset 0 (DESIGN CHOICE 0, log 5) -/
  root : Nat := 0
  /-- pre-emption request; R317; reset none -/
  preq : Option PreReq := none
  /-- a word has issued or a strand has trapped in this cycle, so its bundle boundary is past; R318, R388; reset no -/
  acted : Bool := false
  /-- syndrome of a trap of this cycle that abandons the unit of work at the next bundle boundary; R387; reset none -/
  lost : Option Nat := none
  /-- a `yield` of this cycle serves the pre-emption request at the next bundle boundary; R189, R317; reset no -/
  yielded : Bool := false
  /-- frozen core: strand, word index and mismatches of the word; R359; reset none -/
  frozen : Option (StrandId × Nat × Nat) := none
  /-- order of dispatch, for the tie rule of R317 (model's own count); reset 0 -/
  dispatched : Nat := 0
  deriving DecidableEq, Repr

end Sys2Proof.Machine
end

