-- ==== Sys2Proof/Machine/StateDie.lean ====
section
/-! DEFINITION. What the T-dies, the K-dies' engines and the Awl hold (R271 to R328): plain data with reset defaults. -/

namespace Sys2Proof.Machine

/-- A lineage: depth and levels 0 to 7 and 8 to 15 (R69, R183). -/
structure Lineage where
  depth : Nat := 0
  lo : Word := 0
  hi : Word := 0
  deriving DecidableEq, Repr

/-- A page descriptor of a T-die (R275). -/
structure PageDesc where
  /-- offset of the 128 KiB page in its medium, none for a page that no pool could give (R276) -/
  page : Option Nat
  /-- medium: 0 HBM4E, 1 LPDDR-6 -/
  med : Nat
  /-- version: 16 bits, wraps -/
  version : Nat
  poisoned : Bool
  /-- share count 1 to 65,535 -/
  share : Nat
  deriving DecidableEq, Repr

/-- The state of one (layer, group) of a context at a T-die (R271, R274). -/
structure KvGroup where
  layer : Nat
  group : Nat
  heads : Nat
  hdim : Nat
  /-- token count N -/
  n : Nat
  /-- block table: page number to descriptor identity -/
  table : SMap Nat
  deriving DecidableEq, Repr

/-- An entry of a T-die's context table (R271). -/
structure CtxEntry where
  ctx : Nat
  lin : Lineage
  set : List Nat
  /-- next expected sequence value NX -/
  nx : Nat
  groups : List KvGroup
  deriving DecidableEq, Repr

/-- A queued entry of a T-die (R272): a context command, or a NOTE of one. -/
structure TEntry where
  /-- identity of the command -/
  cmd : Nat
  ctx : Nat
  seq : Nat
  /-- L opcode 0x28 to 0x2D, or 0 for a NOTE -/
  op : Nat
  /-- lineage of the record at the sequence take (R289) -/
  lin : Lineage
  /-- module time of arrival -/
  since : Nat
  /-- held for a context with no entry, or for a full table (R271) -/
  held : Bool := false
  /-- the record of a hold has been written -/
  logged : Bool := false
  /-- complete, and waiting for NX to pass it -/
  complete : Bool := false
  /-- a QUERY has started: the token count it reads, its layer and group, and its conflicts so far (R277, R284) -/
  started : Bool := false
  n : Nat := 0
  layer : Nat := 0
  group : Nat := 0
  conflicts : Nat := 0
  /-- an execution is running, with its signatures (R282, R283) -/
  running : Bool := false
  rsig : BitVec 512 := 0
  wsig : BitVec 512 := 0
  /-- module time since which a FORK waits for a table entry (R271) -/
  holdFrom : Option Nat := none
  /-- the first write that a fourth execution holds off, and when it came (R417) -/
  waits : List (Nat × Nat × Bool) := []
  deriving DecidableEq, Repr

/-- One T-die, package or expander (R8, R271 to R295). -/
structure TDie where
  /-- context table: 65,536 entries; R271; reset empty -/
  ctxs : SMap CtxEntry := []
  /-- queued entries: 16,384; R272; reset empty -/
  entries : List TEntry := []
  /-- prefixes of the last 1,024 CANCELs, newest first; R289; reset empty -/
  prefixes : List Lineage := []
  /-- free pages of the HBM4E KV pool, by offset; R276; reset none -/
  freeH : List Nat := []
  /-- free pages of the LPDDR-6 KV pool, by offset; R276; reset none -/
  freeL : List Nat := []
  /-- pages of the two pools; R276, R26; reset 0 -/
  sizeH : Nat := 0
  sizeL : Nat := 0
  /-- page descriptors; R275; reset none -/
  descs : SMap PageDesc := []
  /-- identities given to descriptors (model's own count); reset 0 -/
  nextDesc : Nat := 0
  /-- CONFIG.SHAPE: 1 bit; R294; reset 0 -/
  shape : Bool := false
  /-- CONFIG.ACTLIM: 11 bits; R294; reset 1,024 -/
  actlim : Nat := 1024
  /-- ACTLIM of the wave in progress; R293; reset 1,024 -/
  waveLim : Nat := 1024
  /-- ENGINE MAP: 64 x 6 bits; R294; reset e (an unlisted engine maps to itself) -/
  phys : SMap Nat := []
  /-- SPECULATION.REEXEC: 32 bits; R294; reset 0 -/
  reexec : Nat := 0
  /-- SPECULATION.HOLDS: 32 bits; R294; reset 0 -/
  holds : Nat := 0
  deriving DecidableEq, Repr

/-- A saved iteration (R318 to R321): its linear number, its pool area, the core state saved, the core-scope counters by index,
and counter adds that wait behind accesses saved with the core. -/
structure SavedIter where
  linear : Nat
  area : Nat
  core : Core
  counters : SMap Nat := []
  adds : List Add := []
  deriving DecidableEq, Repr

/-- A loop-nest record held by a walker (R183). -/
structure NestRec where
  /-- identity (model's own count) -/
  id : Nat
  cores : Word
  arg : Word
  entry : Nat
  /-- loop numbers by position, outermost first -/
  order : List Nat
  /-- START, LIMIT, STEP of loops 0 to 3 -/
  loops : List (Int × Int × Int)
  /-- END: counter handle, all ones for none -/
  endH : Word
  ctx : Nat
  flags : Nat
  lin : Lineage
  /-- VA of the record and die of the agent that submitted it (R372) -/
  va : Word
  agent : Nat
  /-- product of the counts -/
  total : Nat
  /-- next undispatched linear number -/
  next : Nat := 0
  /-- iterations running: core and linear number -/
  running : List (Nat × Nat) := []
  /-- cores whose iteration has ended and that are not free yet (R184) -/
  draining : List Nat := []
  saved : List SavedIter := []
  /-- iterations ended -/
  ended : Nat := 0
  /-- an iteration was lost to a fence or an abandon (R370, R387) -/
  lost : Bool := false
  /-- an iteration was stopped by a CANCEL that matched a popped task (R326) -/
  stopped : Bool := false
  deriving DecidableEq, Repr

/-- A task entry in the heap (R185, R323). -/
structure HeapEntry where
  key : Nat
  ctx : Nat
  flags : Nat
  lin : Lineage
  ptr : Word
  /-- the heap's pop count at acceptance -/
  stamp : Nat
  /-- an uncorrectable error struck it (R433) -/
  bad : Bool := false
  deriving DecidableEq, Repr

/-- An Awl slot (R296). -/
structure AwlSlot where
  occ : Bool := false
  /-- slot generation: 16 bits; R296; reset 0 -/
  gen : Nat := 0
  w : SMap W32 := []
  f : SMap W32 := []
  g : SMap Word := []
  key : List Byte := []
  draw : Word := 0
  nblk : Nat := 0
  /-- the NC candidates: token and logit -/
  cands : List (W32 × W32) := []
  /-- candidate blocks of the slot that read as uncorrectable (R429) -/
  badBlocks : List Nat := []
  /-- those of them whose mark the scrubber has recorded (R362) -/
  scrubbed : List Nat := []
  /-- penalty table: token and count -/
  pen : List (W32 × Nat) := []
  /-- draft tree: token and parent -/
  tree : List (W32 × Option Nat) := []
  deriving DecidableEq, Repr

/-- A run the Awl has taken (R299, R300). -/
structure AwlRun where
  req : AwlReq
  /-- strand that issued it, none for a graph run -/
  src : Option (Nat × StrandId)
  pc : Nat
  deriving DecidableEq, Repr

/-- One Awl (R296 to R310). -/
structure Awl where
  /-- program words: 8,192 of 32 bits; R302; reset 0 -/
  prog : SMap W32 := []
  /-- AWLCTL.HOLD: 1 bit; R302; reset 1 -/
  hold : Bool := true
  /-- 256 slots; R296; reset free, generation 0 -/
  slots : SMap AwlSlot := []
  /-- the graph engine's launch queue: 64 runs; R299; reset empty -/
  graphq : List AwlReq := []
  /-- runs executing, at most 8; R299; reset none -/
  runs : List AwlRun := []
  /-- AWLSTAT.FREEBLK: 11 bits; R302; reset 1,024 -/
  freeBlk : Nat := 1024
  /-- runs taken so far (model's own count); R299; reset 0 -/
  takes : Nat := 0
  deriving DecidableEq, Repr

/-- A CANCEL whose effects on a K-die are under way (R326). -/
structure CancelJob where
  /-- command identity -/
  cmd : Nat
  lin : Lineage
  deriving DecidableEq, Repr

/-- One K-die's shared units (R8, R315 to R328). -/
structure KDie where
  /-- records held, in acceptance order: 64; R182; reset none -/
  recs : List NestRec := []
  /-- identities given to records (model's own count); reset 0 -/
  nextRec : Nat := 0
  /-- Last[c]: identity of the record served last in class c; R316; reset none (an unlisted class has none) -/
  last : SMap Nat := []
  /-- iterations dispatched, for the tie rule of R317 (model's own count); reset 0 -/
  dispatches : Nat := 0
  /-- task heap in acceptance order: 16,384 entries; R323; reset empty -/
  heap : List HeapEntry := []
  /-- the heap's pop count; R323; reset 0 -/
  pops : Nat := 0
  /-- a refusal has been recorded since the last pop; R433; reset no -/
  heapLogged : Bool := false
  /-- RECV: 32 bits; R188; reset 0 -/
  recv : Nat := 0
  /-- DONE: 32 bits; R188; reset 0 -/
  done : Nat := 0
  /-- prefixes of the last 1,024 CANCELs, newest first; R289; reset empty -/
  prefixes : List Lineage := []
  /-- CANCELs whose effects are not all done; R326; reset none -/
  cancels : List CancelJob := []
  /-- save areas in use, of 64; R319; reset none -/
  areas : List Nat := []
  /-- the Awl; R296; reset: see Awl -/
  awl : Awl := {}
  deriving DecidableEq, Repr

/-- A context command on its way (R266 to R273). -/
structure CtxCmd where
  /-- identity (model's own count) -/
  id : Nat
  core : Nat
  tok : Nat
  /-- L opcode 0x28 to 0x2D -/
  op : Nat
  ctx : Nat
  seq : Nat
  set : List Nat
  /-- lineage of the record at the sequence take -/
  lin : Lineage
  recVa : Word
  blockVa : Word
  block : List Byte
  xc : Word
  /-- completion counter handle, all ones for none -/
  k : Word
  /-- translations held of the child record of a FORK -/
  child : List Seg
  /-- source bytes of an APPEND or QUERY, once read (R277), and the source lines among them that carried poison -/
  src : Option (List Byte) := none
  srcBad : List Nat := []
  /-- T-dies whose part is not complete -/
  pending : List Nat
  /-- K-dies whose part of a CANCEL is not complete -/
  kpending : List Nat := []
  failed : Bool := false
  dropped : Bool := false
  /-- delivered as a NOTE without rows because the core was stopped before its lines were read (R327) -/
  bare : Bool := false
  /-- its completion add is not made (R327) -/
  noAdd : Bool := false
  /-- its completion add is 2^32 because of an abandon (R387) -/
  lost : Bool := false
  /-- T-die partials by die number: m, l and o of each query row, in F32 words (R281) -/
  partials : SMap (List (List W32)) := []
  merged : Bool := false
  deriving DecidableEq, Repr

end Sys2Proof.Machine
end

