-- ==== Sys2Proof/Machine/StateHub.lean ====
section
/-! DEFINITION. What the hubs, the links, the memory side and the messages in flight hold (R14 to R27, R312 to R343,
R364 to R376, R438 to R451): plain data with reset defaults. -/

namespace Sys2Proof.Machine

/-- An island status word (R14). -/
structure Island where
  mhz : Nat := 0
  mv : Nat := 0
  pwr : Bool := false
  hot : Bool := false
  deriving DecidableEq, Repr

/-- A fault record (R366). -/
structure FaultRec where
  time : Nat
  synd : Nat
  die : Nat
  ukind : Nat
  cls : Nat
  uidx : Nat
  intr : Bool
  trap : Bool
  addr : Word
  info : Word
  deriving DecidableEq, Repr

/-- A die's fault log (R365). -/
structure FaultLog where
  /-- LOGHEAD.HEAD: 32 bits, held unwrapped; R365; reset 0 -/
  head : Nat := 0
  /-- LOGTAIL.TAIL: 32 bits, held unwrapped; R365; reset 0 -/
  tail : Nat := 0
  /-- LOGSTAT.LOST: 32 bits; R365; reset 0 -/
  lost : Nat := 0
  /-- ring of 256 records, key h mod 256; R365; reset empty (an unlisted record reads as zero) -/
  ring : SMap FaultRec := []
  deriving DecidableEq, Repr

/-- The host boot block and the firmware mailbox (R25, R26). -/
structure Boot where
  /-- IMG: 3 bits; R20, R24; reset 0 -/
  img : Nat := 0
  /-- BDOOR.GO: 1 bit; R25; reset 0 -/
  go : Bool := false
  /-- BLEN.LEN: 23 bits; R25; reset 0 -/
  blen : Nat := 0
  /-- staging window: 4 MiB; R25; reset 0 (reads 0 outside IMG 3 and 4; DESIGN CHOICE 0, log 3) -/
  staging : SMap Byte := []
  /-- module flash image; R22, R23; reset: the flash keeps what it holds (empty, DESIGN CHOICE, log 6) -/
  flash : List Byte := []
  /-- BOOTSTAT.REASON: 4 bits; R367; reset 0 -/
  reason : Nat := 0
  /-- BOOTSTAT.TRIES: 8 bits; R367; reset 0 -/
  tries : Nat := 0
  /-- security version of the running image; R27; reset 0 -/
  secver : Nat := 0
  /-- the module's identity key pair in the security root of each hub: public key and secret key; R27; reset none -/
  keys : List (List Byte × List Byte) := []
  /-- FCMD: 64 bits, FUNC [15:0]; R26; reset 0 -/
  fcmd : Word := 0
  /-- FARG0: 64 bits; R26; reset 0 -/
  farg0 : Word := 0
  /-- FARG1: 64 bits; R26; reset 0 -/
  farg1 : Word := 0
  /-- FDOOR.GO: 1 bit; R26; reset 0 -/
  fgo : Bool := false
  /-- FRES: 64 bits; R26; reset 0 -/
  fres : Word := 0
  /-- FSTAT.STATUS: 2 bits; R26; reset 0 -/
  fstat : Nat := 0
  /-- module power limit in W; R15; reset 3,600 -/
  limit : Nat := 3600
  deriving DecidableEq, Repr

/-- A latched replay (R313, R314). -/
structure Replay where
  gen : Nat
  recVa : Word
  done : Word
  /-- the record's nodes, 64 bytes each -/
  nodes : List (List Byte)
  /-- snapshot of gp0 to gp255 -/
  snapshot : SMap Word
  next : Nat := 0
  /-- dispatched nodes not yet complete: a token of a run, or the identity of a context command -/
  openRuns : List Nat := []
  openCmds : List Nat := []
  faulted : Bool := false
  /-- module time since which the next node waits, and whether a record of the wait was written (R432) -/
  since : Nat := 0
  logged : Bool := false
  /-- the next node was refused with status 1 since this time (R311, R432) -/
  refused : Option Nat := none
  deriving DecidableEq, Repr

/-- The graph engine of hub die 16 (R312). -/
structure Graph where
  /-- GREC.VA: 57 bits; R312; reset 0 -/
  grec : Word := 0
  /-- GSTAT.GEN: 32 bits; R312; reset 0 -/
  gen : Nat := 0
  /-- GSTAT.DROP: 1 bit; R312; reset 0 -/
  drop : Bool := false
  /-- GSTAT.FAULT: 1 bit; R312; reset 0 -/
  fault : Bool := false
  /-- GNODE.NEXT: 13 bits; R312; reset 0 -/
  gnode : Nat := 0
  /-- GFAULT: 64 bits; R431; reset 0 -/
  gfault : Word := 0
  /-- gp0 to gp255 pending: 64 bits each; R312; reset 0 -/
  gp : SMap Word := []
  /-- replays latched and not finished, oldest first: 2; R312; reset none -/
  replays : List Replay := []
  /-- address space bound to the graph engine; R300; reset 0 (DESIGN CHOICE 0, log 5) -/
  asid : Nat := 0
  root : Nat := 0
  /-- tokens given to graph runs (model's own count); reset 0 -/
  seq : Nat := 0
  deriving DecidableEq, Repr

/-- A message between package dies, or between a hub and an expander (R331, R333, R440): its sender, its destination, the intermediate
die, if it takes one, its sending gateway, its message tag of 16 bits, its stream sequence, and the module time of its first
sending. -/
structure Msg where
  src : Nat
  dst : Nat
  via : Nat
  gate : Nat
  tag : Nat
  seq : Nat
  sent : Nat
  deriving DecidableEq, Repr

/-- One end of a die link, which its link module stands for (R438 to R443). -/
structure Link where
  /-- WIDTH: 2 bits; R443; reset 0 -/
  width : Nat := 0
  /-- RATE: 1 bit; R443; reset 0 -/
  rate : Nat := 0
  /-- TRAIN: 1 bit; R443; reset 0 -/
  train : Bool := false
  /-- FAILS: 8 bits; R443; reset 0 -/
  fails : Nat := 0
  /-- REPLAYS: 16 bits; R443; reset 0 -/
  replays : Nat := 0
  /-- flits sent and not acknowledged, oldest first: 128, link sequence number and message; R438; reset none -/
  buffer : List (Nat × Msg) := []
  /-- the next link sequence number to send: 8 bits; R438; reset 0 -/
  nextSeq : Nat := 0
  /-- the next sequence number this end expects: 8 bits; R438; reset 0 -/
  expect : Nat := 0
  /-- this end discards until a replay; R438; reset no -/
  discard : Bool := false
  /-- failed transmissions in a row of the oldest flit, R441; reset 0 -/
  row : Nat := 0
  /-- the present 1 ms window, its CRC failures and its replays; R441, R443; reset 0 -/
  win : Nat := 0
  crcs : Nat := 0
  reps : Nat := 0
  /-- messages returned to the gateway's queue after a refusal; R439; reset none -/
  refused : List Msg := []
  /-- attempt of the retrain in progress, 0 to 2; R441; reset 0 -/
  attempt : Nat := 0
  deriving DecidableEq, Repr

/-- The contention state of a page that receives pod atomics (R338). -/
structure PageMode where
  cnt : Nat := 0
  last : Option Nat := none
  owner : Option Nat := none
  deriving DecidableEq, Repr

/-- A reduce-state line (R116): operator, type and the four partials of 32 elements. -/
structure RedLine where
  op : RedOp
  f32 : Bool
  parts : List (List W32)
  /-- partials that read as uncorrectable (R413) -/
  bad : Bool := false
  deriving DecidableEq, Repr

/-- A line that a cache holds, with its eviction class: 0 NORMAL, 1 EVICT-FIRST, 2 KEEP (R103, R114). Places number the
caches: the L1 of core c is c, the L2 slice s of K-die d is 512 + 32d + s, the LLC slice s of die n is 1,024 + 32n + s. -/
structure CacheLine where
  place : Nat
  line : Nat
  cls : Nat
  deriving DecidableEq, Repr

/-- A write-back on its way from a cache to the slice behind it (R118). -/
structure WriteBack where
  src : Nat
  dst : Nat
  line : Nat
  bytes : SMap Byte
  poison : Bool
  refused : Bool
  /-- what waits for it to reach the home, 0 for none -/
  tok : Nat
  /-- it goes on to the home (R195) -/
  home : Bool
  deriving DecidableEq, Repr

/-- A cached entry of a page table: space id, base of the range that it covers, its level and the entry (R105). -/
structure TlbEntry where
  asid : Nat
  page : Nat
  level : Nat
  entry : Word
  deriving DecidableEq, Repr

/-- A line on its way to a tile (R111). -/
structure Arrival where
  /-- issuing core, and the token of the Welt command, if it is one -/
  core : Nat
  cmd : Option Nat
  /-- target module, core and the lines from `line` on -/
  module : Nat
  target : Nat
  line : Nat
  bytes : List Byte
  /-- poison of each line -/
  poison : List Bool
  /-- refused continuously since, and recorded (R411) -/
  refused : Option Nat
  logged : Bool
  /-- first sending, for R447 -/
  sent : Nat
  deriving DecidableEq, Repr

/-- A context entry on its way to a T-die or a K-die (R266, R268). -/
structure CtxMsg where
  cmd : Nat
  die : Nat
  refused : Bool
  deriving DecidableEq, Repr

/-- A collective in flight (R263, R340, R434): its descriptor, its buffer's translations, its members by rank. -/
structure Coll where
  core : Nat
  tok : Nat
  group : Nat
  desc : Word
  /-- completion counter handle, all ones for none -/
  k : Word
  segs : List Seg
  members : List Nat
  /-- the members agree -/
  compared : Bool
  /-- module time of the issue, and then of the comparison (R434, R447) -/
  since : Nat
  deriving DecidableEq, Repr

/-- The hubs' shared registers (R20, R334, R339, R367, R374). -/
structure Hub where
  /-- boot block and firmware mailbox; R25, R26; reset: see Boot -/
  boot : Boot := {}
  /-- island status words: 26; R14; reset 0 -/
  islands : SMap Island := []
  /-- functions whose readiness bit is 1; R20; reset none -/
  ready : List UnitId := []
  /-- GEN: 32 bits; R20; reset 0 -/
  gen : Nat := 0
  /-- functions fenced since module reset; R369; reset none -/
  fenced : List UnitId := []
  /-- HISTAT: 26 bits; R367; reset 0 -/
  histat : BitVec 26 := 0
  /-- HIMASK: 26 bits; R367; reset 0x3FF_FFFF -/
  himask : BitVec 26 := BitVec.allOnes 26
  /-- host interrupts raised (MSI-X vector 0); R367; reset 0 -/
  interrupts : Nat := 0
  /-- host links that are down; R451; reset none -/
  hostDown : List Nat := []
  /-- host links trained as CXL 3.2, hub die numbers; the others are PCIe; R17, R342; reset none (DESIGN CHOICE none, log 3) -/
  cxl : List Nat := []
  /-- what the last host load through BAR2 or CXL.mem returned, none for Completer Abort; R341, R342, R450; reset none -/
  hostRead : Option (List Byte) := none
  /-- class C5 egress stop; R368; reset no -/
  egress : Bool := false
  /-- graph engine; R312; reset: see Graph -/
  graph : Graph := {}
  /-- GDEF: 256 of 64 bits; R339; reset 0 -/
  gdef : SMap Word := []
  /-- GLIST: 256 of 64 bits; R339; reset 0 -/
  glist : SMap Word := []
  /-- broken groups; R434; reset none -/
  broken : List Nat := []
  /-- FABID.MODULE: 12 bits; R334; reset 0 -/
  module : Nat := 0
  /-- FABID.VALID: 1 bit; R334; reset 0 -/
  valid : Bool := false
  /-- ROWMAP: 64 bits; R334; reset 0 -/
  rowmap : Word := 0
  /-- COLMAP: 64 bits; R334; reset 0 -/
  colmap : Word := 0
  /-- spare words of the fabric block, key 8 x plane + spare; R445; reset 0 -/
  spares : SMap Word := []
  /-- lost optical channels, 512 x plane + channel; R444; reset none -/
  lost : List Nat := []
  /-- this module's ends of the optical channels: the failures of their flits and their retrains, key 512 x plane + channel; R444;
  reset 0 -/
  channels : SMap Link := []
  /-- how often what the channels of other modules carry may have changed (model's own count); R446; reset 0 -/
  legs : Nat := 0
  /-- link modules, key 12 x die + module; R443; reset 0 -/
  links : SMap Link := []
  /-- export table: window page to package VA; R98; reset empty -/
  exports : SMap Word := []
  /-- address space bound to the export table; R98; reset 0 (DESIGN CHOICE 0, log 5) -/
  exportAsid : Nat := 0
  exportRoot : Nat := 0
  /-- contention state by page; R338; reset none -/
  modes : SMap PageMode := []
  /-- the atomic cache of hub die 16: pod line numbers of the pages that this module owns, its own or another's, latest first, at
  most 4,096; R338; reset empty -/
  atomics : List Nat := []
  /-- fault logs, key die number; R365; reset empty -/
  logs : SMap FaultLog := []
  /-- telemetry store in module flash, by byte offset of the word; R374; reset: kept (0, DESIGN CHOICE, log 6) -/
  tele : SMap Nat := []
  /-- counts collected since the last flush; R374; reset none -/
  telePend : SMap Nat := []
  /-- module time up to which powered seconds and temperature samples have been counted; R374, R375; reset 0 -/
  flushed : Nat := 0
  sampled : Nat := 0
  /-- fence list of the telemetry store: 64 entries; R369; reset: kept (empty, DESIGN CHOICE, log 6) -/
  fenceList : List (UnitId × Nat) := []
  /-- C0 and C1 events of a die's unit kind and the second they are counted in; R363; reset none -/
  bursts : SMap (Nat × Nat) := []
  /-- expanders attached, die numbers 18 to 21; R8, R18; reset none -/
  expanders : List Nat := []
  /-- expanders whose port runs UALink 200G, the others CXL 3.2; R343; reset none (DESIGN CHOICE none, log 3) -/
  ualink : List Nat := []
  /-- mismatches in a row on one word of a sequencer; R358, R359; reset none -/
  mismatches : List (UnitId × Nat) := []
  /-- sending of the oldest unacknowledged message of an expander whose port retrains for it, by die; R449; reset none -/
  xsince : SMap Nat := []
  /-- the message tag that each sending gateway gives next: 16 bits, key 4 x die + gateway; R440; reset 0 -/
  tags : SMap Nat := []
  /-- the stream sequence that a die's next message to a die takes, key 32 x sender + destination; R333; reset 0 -/
  streams : SMap Nat := []
  /-- copies that the sending gateways keep until the end-to-end acknowledgement, oldest first; R440; reset none -/
  held : List Msg := []
  /-- messages accepted whose end-to-end acknowledgement has not reached the sending gateway; R440; reset none -/
  acks : List Msg := []
  /-- message tags, or stream sequences at an expander, accepted at a die from a sending gateway, latest first: at most 4,096, key
  128 x destination + 4 x sender + gateway; R440, R448; reset none -/
  accepted : SMap (List Nat) := []
  deriving DecidableEq, Repr

end Sys2Proof.Machine
end

