-- ==== Sys2Proof/Syntax.lean ====
section
/-! DEFINITION. The ONE syntax of the machine's steps: one constructor per row of spec/opcode_table.json.
The words stand first and the events after them, each in the table's order. Strand words carry the header bits S and WC (`Hdr`) and their raw operand fields; Awl words carry their fields; the
events carry what the environment chooses (which core, which queue entry, what an outside party sends). -/

namespace Sys2Proof

/-- Every step of the FDN-9480 that the opcode table lists. -/
inductive Instr where
  /-- xd := Wrap(xa + xb, 64). (R166) -/
  | add (h : Hdr) (d : Fin 32) (a : Fin 32) (b : Fin 32)
  /-- xd := Wrap(xa - xb, 64). (R166) -/
  | sub (h : Hdr) (d : Fin 32) (a : Fin 32) (b : Fin 32)
  /-- Bitwise and of xa and xb. (R166) -/
  | and (h : Hdr) (d : Fin 32) (a : Fin 32) (b : Fin 32)
  /-- Bitwise or of xa and xb. (R166) -/
  | or (h : Hdr) (d : Fin 32) (a : Fin 32) (b : Fin 32)
  /-- Bitwise xor of xa and xb. (R166) -/
  | xor (h : Hdr) (d : Fin 32) (a : Fin 32) (b : Fin 32)
  /-- Shift xa left by xb[5:0]. (R166) -/
  | shl (h : Hdr) (d : Fin 32) (a : Fin 32) (b : Fin 32)
  /-- Logical shift of xa right by xb[5:0]. (R166) -/
  | shr (h : Hdr) (d : Fin 32) (a : Fin 32) (b : Fin 32)
  /-- Arithmetic shift of xa right by xb[5:0]. (R166) -/
  | sra (h : Hdr) (d : Fin 32) (a : Fin 32) (b : Fin 32)
  /-- xd := 1 if signed xa < xb, else 0. (R166) -/
  | slt (h : Hdr) (d : Fin 32) (a : Fin 32) (b : Fin 32)
  /-- xd := 1 if unsigned xa < xb, else 0. (R166) -/
  | sltu (h : Hdr) (d : Fin 32) (a : Fin 32) (b : Fin 32)
  /-- Signed minimum of xa and xb. (R166) -/
  | min (h : Hdr) (d : Fin 32) (a : Fin 32) (b : Fin 32)
  /-- Signed maximum of xa and xb. (R166) -/
  | max (h : Hdr) (d : Fin 32) (a : Fin 32) (b : Fin 32)
  /-- Unsigned minimum of xa and xb. (R166) -/
  | minu (h : Hdr) (d : Fin 32) (a : Fin 32) (b : Fin 32)
  /-- Unsigned maximum of xa and xb. (R166) -/
  | maxu (h : Hdr) (d : Fin 32) (a : Fin 32) (b : Fin 32)
  /-- xd := Wrap(xa × xb, 64). (R166) -/
  | mul (h : Hdr) (d : Fin 32) (a : Fin 32) (b : Fin 32)
  /-- xd := high 64 bits of the signed 128-bit product. (R166) -/
  | mulh (h : Hdr) (d : Fin 32) (a : Fin 32) (b : Fin 32)
  /-- xd := high 64 bits of the unsigned 128-bit product. (R166) -/
  | mulhu (h : Hdr) (d : Fin 32) (a : Fin 32) (b : Fin 32)
  /-- Signed quotient truncated toward zero, never trapping. (R167) -/
  | div (h : Hdr) (d : Fin 32) (a : Fin 32) (b : Fin 32)
  /-- Unsigned quotient, never trapping. (R167) -/
  | divu (h : Hdr) (d : Fin 32) (a : Fin 32) (b : Fin 32)
  /-- Signed remainder with the sign of xa. (R167) -/
  | rem (h : Hdr) (d : Fin 32) (a : Fin 32) (b : Fin 32)
  /-- Unsigned remainder. (R167) -/
  | remu (h : Hdr) (d : Fin 32) (a : Fin 32) (b : Fin 32)
  /-- Count of leading zero bits of xa. (R166) -/
  | clz (h : Hdr) (d : Fin 32) (a : Fin 32)
  /-- Count of 1 bits of xa. (R166) -/
  | popc (h : Hdr) (d : Fin 32) (a : Fin 32)
  /-- xd := xa + sign-extended imm11. (R168) -/
  | addi (h : Hdr) (d : Fin 32) (a : Fin 32) (i : Fin 2048)
  /-- xa and zero-extended imm11. (R168) -/
  | andi (h : Hdr) (d : Fin 32) (a : Fin 32) (i : Fin 2048)
  /-- xa or zero-extended imm11. (R168) -/
  | ori (h : Hdr) (d : Fin 32) (a : Fin 32) (i : Fin 2048)
  /-- xa xor zero-extended imm11. (R168) -/
  | xori (h : Hdr) (d : Fin 32) (a : Fin 32) (i : Fin 2048)
  /-- xd := 1 if signed xa < imm, else 0. (R168) -/
  | slti (h : Hdr) (d : Fin 32) (a : Fin 32) (i : Fin 2048)
  /-- xd := 1 if unsigned xa < sign-extended imm, else 0. (R168) -/
  | sltiu (h : Hdr) (d : Fin 32) (a : Fin 32) (i : Fin 2048)
  /-- Shift xa left by an immediate amount. (R168) -/
  | shli (h : Hdr) (d : Fin 32) (a : Fin 32) (i : Fin 64)
  /-- Logical shift of xa right by an immediate amount. (R168) -/
  | shri (h : Hdr) (d : Fin 32) (a : Fin 32) (i : Fin 64)
  /-- Arithmetic shift of xa right by an immediate amount. (R168) -/
  | srai (h : Hdr) (d : Fin 32) (a : Fin 32) (i : Fin 64)
  /-- xd := SignExtend(imm16, 64). (R169) -/
  | movi (h : Hdr) (d : Fin 32) (i : Fin 65536)
  /-- Writes imm16 into bits [31:16] of xd and keeps the other bits. (R169) -/
  | movk1 (h : Hdr) (d : Fin 32) (i : Fin 65536)
  /-- Writes imm16 into bits [47:32] of xd and keeps the other bits. (R169) -/
  | movk2 (h : Hdr) (d : Fin 32) (i : Fin 65536)
  /-- Writes imm16 into bits [63:48] of xd and keeps the other bits. (R169) -/
  | movk3 (h : Hdr) (d : Fin 32) (i : Fin 65536)
  /-- Branch when xa = 0. (R170) -/
  | beqz (h : Hdr) (a : Fin 32) (o : Fin 8192)
  /-- Branch when xa ≠ 0. (R170) -/
  | bnez (h : Hdr) (a : Fin 32) (o : Fin 8192)
  /-- Branch when xa < 0. (R170) -/
  | bltz (h : Hdr) (a : Fin 32) (o : Fin 8192)
  /-- Branch when xa ≥ 0. (R170) -/
  | bgez (h : Hdr) (a : Fin 32) (o : Fin 8192)
  /-- Branch when xa ≤ 0. (R170) -/
  | blez (h : Hdr) (a : Fin 32) (o : Fin 8192)
  /-- Branch when xa > 0. (R170) -/
  | bgtz (h : Hdr) (a : Fin 32) (o : Fin 8192)
  /-- Branch always. (R170) -/
  | br (h : Hdr) (o : Fin 8192)
  /-- Continue at p + offset21. (R170) -/
  | j (h : Hdr) (o : Fin 2097152)
  /-- x31 := p + 1, then continue at p + offset21. (R170) -/
  | jal (h : Hdr) (o : Fin 2097152)
  /-- Continue at the word index in xa. (R170) -/
  | jr (h : Hdr) (a : Fin 32)
  /-- xd := p + 1, then continue at the old xa. (R170) -/
  | jalr (h : Hdr) (d : Fin 32) (a : Fin 32)
  /-- Pushes a hardware-loop level repeating the next n words xa times, or skips the body when the count is zero. (R171) -/
  | loop (h : Hdr) (a : Fin 32) (i : Fin 1024)
  /-- Posts a saturating add of xb to counter xa, as a release at its scope. (R173) -/
  | cadd (h : Hdr) (a : Fin 32) (b : Fin 32) (c : Fin 8)
  /-- Holds the next word until counter xa reaches xb, then acts as an acquire. (R174) -/
  | cwait (h : Hdr) (a : Fin 32) (b : Fin 32) (c : Fin 8)
  /-- Adds 1 to counter xa and waits for the next multiple of n participants. (R175) -/
  | bar (h : Hdr) (a : Fin 32) (b : Fin 32) (c : Fin 8)
  /-- Waits until every earlier command of the masked engine queues has its memory effects, or traps on a filled deferred slot. (R176) -/
  | mfence (h : Hdr) (d : Fin 32) (a : Fin 32) (m : Fin 32)
  /-- xd := value of special register n. (R177) -/
  | sprd (h : Hdr) (d : Fin 32) (a : Fin 32) (n : Fin 2048)
  /-- Reading %dmdq pops the head of the strand's demand queue, waiting while it is empty. (R71) -/
  | sprdDmdq (h : Hdr) (d : Fin 32) (a : Fin 32)
  /-- Writes xa to special register n in the next cycle. (R177) -/
  | spwr (h : Hdr) (a : Fin 32) (n : Fin 2048)
  /-- Writing %joinmask changes the participating set from the next cycle. (R33) -/
  | spwrJoinmask (h : Hdr) (a : Fin 32)
  /-- Writing %spsplit writes back and invalidates L1 and sets the new scratchpad split, if every tile is EMPTY. (R72) -/
  | spwrSpsplit (h : Hdr) (a : Fin 32)
  /-- In strand M's handler, writing VALID 0 to %mprog abandons the interrupted multiply. (R223) -/
  | spwrMprog (h : Hdr) (a : Fin 32)
  /-- Writing %dmsub changes which cores' demand events the strand receives from the next cycle. (R71) -/
  | spwrDmsub (h : Hdr) (a : Fin 32)
  /-- Writing 1 to %tret returns from the handler: INH clears, the loop stack is restored and pc := %tepc. (R386) -/
  | spwrTret (h : Hdr) (a : Fin 32)
  /-- Stops the issuing strand. (R178) -/
  | halt (h : Hdr)
  /-- Issues and then takes a software trap with its code. (R179) -/
  | swi (h : Hdr) (i : Fin 2048)
  /-- Starts the named stopped strands at an entry word. (R180) -/
  | start (h : Hdr) (t : Fin 8) (e : Fin 32768)
  /-- Submits a loop-nest record to the nest walker of K-die xb and returns a status. (R182) -/
  | nest (h : Hdr) (d : Fin 32) (a : Fin 32) (b : Fin 32)
  /-- Offers a task entry to the heap of K-die xb and returns a status. (R186) -/
  | taskpush (h : Hdr) (d : Fin 32) (a : Fin 32) (b : Fin 32)
  /-- Takes an entry from the die's heap, setting xd, x(d+1), %ctx and the lineage. (R187) -/
  | taskpop (h : Hdr) (d : Fin 32) (a : Fin 32)
  /-- A pre-emption point at which a pending request is served. (R189) -/
  | yield (h : Hdr)
  /-- xd := the die's cancellation counts DONE and RECV. (R188) -/
  | canst (h : Hdr) (d : Fin 32)
  /-- Saves the unit of work into a 2 MiB save area and writes xd := 0 when done. (R190) -/
  | ssave (h : Hdr) (d : Fin 32) (a : Fin 32)
  /-- Restores a save area, or writes a refusal code to xd. (R191) -/
  | srest (h : Hdr) (d : Fin 32) (a : Fin 32)
  /-- Writes graph parameter gp(xa) into the pending set. (R192) -/
  | gpwr (h : Hdr) (a : Fin 32) (b : Fin 32)
  /-- Reads the pending value of graph parameter gp(xa). (R192) -/
  | gprd (h : Hdr) (d : Fin 32) (a : Fin 32)
  /-- Places a run in the strand's Awl launch queue. (R193) -/
  | awlrun (h : Hdr) (d : Fin 32) (a : Fin 32) (b : Fin 32)
  /-- Starts loading overlay segment xa into instruction memory. (R181) -/
  | ovl (h : Hdr) (d : Fin 32) (a : Fin 32)
  /-- Drops the package's translations covering VA xa in the core's address space. (R194) -/
  | tlbinv (h : Hdr) (a : Fin 32)
  /-- Drops every translation of the core's address space. (R194) -/
  | tlbinva (h : Hdr)
  /-- Writes back every dirty L1 and L2 line of a VA range and waits until each reaches its home. (R195) -/
  | cwb (h : Hdr) (a : Fin 32) (b : Fin 32)
  /-- Writes back and then invalidates every copy of the lines of a VA range. (R195) -/
  | cinv (h : Hdr) (a : Fin 32) (b : Fin 32)
  /-- Passes a function and argument to the module firmware and waits for its result. (R196) -/
  | fwcall (h : Hdr) (d : Fin 32) (a : Fin 32) (b : Fin 32)
  /-- F32 lane addition. (R201) -/
  | vfadd (h : Hdr) (d : Fin 128) (a : Fin 128) (b : Fin 128)
  /-- F32 lane subtraction. (R201) -/
  | vfsub (h : Hdr) (d : Fin 128) (a : Fin 128) (b : Fin 128)
  /-- F32 lane multiplication. (R201) -/
  | vfmul (h : Hdr) (d : Fin 128) (a : Fin 128) (b : Fin 128)
  /-- Fused F32 multiply-add into the destination, rounded once. (R201) -/
  | vfma (h : Hdr) (d : Fin 128) (a : Fin 128) (b : Fin 128)
  /-- F32 lane maximum. (R201) -/
  | vfmax (h : Hdr) (d : Fin 128) (a : Fin 128) (b : Fin 128)
  /-- F32 lane minimum. (R201) -/
  | vfmin (h : Hdr) (d : Fin 128) (a : Fin 128) (b : Fin 128)
  /-- F32 equality mask. (R201) -/
  | vfceq (h : Hdr) (d : Fin 128) (a : Fin 128) (b : Fin 128)
  /-- F32 less-than mask. (R201) -/
  | vfclt (h : Hdr) (d : Fin 128) (a : Fin 128) (b : Fin 128)
  /-- F32 less-or-equal mask. (R201) -/
  | vfcle (h : Hdr) (d : Fin 128) (a : Fin 128) (b : Fin 128)
  /-- BF16 half-lane addition. (R202) -/
  | vbadd (h : Hdr) (d : Fin 128) (a : Fin 128) (b : Fin 128)
  /-- BF16 half-lane subtraction. (R202) -/
  | vbsub (h : Hdr) (d : Fin 128) (a : Fin 128) (b : Fin 128)
  /-- BF16 half-lane multiplication. (R202) -/
  | vbmul (h : Hdr) (d : Fin 128) (a : Fin 128) (b : Fin 128)
  /-- Fused BF16 multiply-add into the destination. (R202) -/
  | vbfma (h : Hdr) (d : Fin 128) (a : Fin 128) (b : Fin 128)
  /-- 32-bit lane addition, wrapping. (R200) -/
  | vadd (h : Hdr) (d : Fin 128) (a : Fin 128) (b : Fin 128)
  /-- 32-bit lane subtraction, wrapping. (R200) -/
  | vsub (h : Hdr) (d : Fin 128) (a : Fin 128) (b : Fin 128)
  /-- Low 32 bits of the signed lane product. (R200) -/
  | vmul (h : Hdr) (d : Fin 128) (a : Fin 128) (b : Fin 128)
  /-- Bitwise lane and. (R200) -/
  | vand (h : Hdr) (d : Fin 128) (a : Fin 128) (b : Fin 128)
  /-- Bitwise lane or. (R200) -/
  | vor (h : Hdr) (d : Fin 128) (a : Fin 128) (b : Fin 128)
  /-- Bitwise lane xor. (R200) -/
  | vxor (h : Hdr) (d : Fin 128) (a : Fin 128) (b : Fin 128)
  /-- Lane shift left by B[4:0]. (R200) -/
  | vshl (h : Hdr) (d : Fin 128) (a : Fin 128) (b : Fin 128)
  /-- Logical lane shift right. (R200) -/
  | vshr (h : Hdr) (d : Fin 128) (a : Fin 128) (b : Fin 128)
  /-- Arithmetic lane shift right. (R200) -/
  | vsra (h : Hdr) (d : Fin 128) (a : Fin 128) (b : Fin 128)
  /-- Signed lane maximum. (R200) -/
  | vmax (h : Hdr) (d : Fin 128) (a : Fin 128) (b : Fin 128)
  /-- Signed lane minimum. (R200) -/
  | vmin (h : Hdr) (d : Fin 128) (a : Fin 128) (b : Fin 128)
  /-- Integer equality mask. (R200) -/
  | vceq (h : Hdr) (d : Fin 128) (a : Fin 128) (b : Fin 128)
  /-- Signed less-than mask. (R200) -/
  | vclt (h : Hdr) (d : Fin 128) (a : Fin 128) (b : Fin 128)
  /-- Selects A or B in each lane by the old destination. (R200) -/
  | vsel (h : Hdr) (d : Fin 128) (a : Fin 128) (b : Fin 128)
  /-- Lane shift left by an immediate count. (R200) -/
  | vshli (h : Hdr) (d : Fin 128) (a : Fin 128) (i : Fin 32)
  /-- Copies the lanes of A. (R208) -/
  | vmov (h : Hdr) (d : Fin 128) (a : Fin 128)
  /-- Converts two F32 values to BF16 halves of each lane. (R203) -/
  | vcvtfb (h : Hdr) (d : Fin 128) (a : Fin 128) (b : Fin 128)
  /-- Converts the selected BF16 half of each lane to F32. (R203) -/
  | vcvtbf (h : Hdr) (d : Fin 128) (a : Fin 128) (b : Fin 128)
  /-- Scales F32 lanes and rounds them to saturated I32. (R203) -/
  | vcvtfi (h : Hdr) (d : Fin 128) (a : Fin 128) (b : Fin 128)
  /-- Converts scaled I32 lanes to F32. (R203) -/
  | vcvtif (h : Hdr) (d : Fin 128) (a : Fin 128) (b : Fin 128)
  /-- Encodes 64 F32 elements as an L8 block with its scale. (R204) -/
  | vcvtl8 (h : Hdr) (d : Fin 128) (a : Fin 128) (b : Fin 128)
  /-- Encodes 64 F32 elements as an L6 block with its scale. (R204) -/
  | vcvtl6 (h : Hdr) (d : Fin 128) (a : Fin 128) (b : Fin 128)
  /-- Expands 32 L8 codes of a block to F32. (R205) -/
  | vxl8 (h : Hdr) (d : Fin 128) (a : Fin 128) (b : Fin 128)
  /-- Expands 32 L6 codes of a block to F32. (R205) -/
  | vxl6 (h : Hdr) (d : Fin 128) (a : Fin 128) (b : Fin 128)
  /-- Exp2F of each lane. (R206) -/
  | vexp2 (h : Hdr) (d : Fin 128) (a : Fin 128)
  /-- Log2F of each lane. (R206) -/
  | vlog2 (h : Hdr) (d : Fin 128) (a : Fin 128)
  /-- RecipF of each lane. (R206) -/
  | vrcp (h : Hdr) (d : Fin 128) (a : Fin 128)
  /-- RsqrtF of each lane. (R206) -/
  | vrsq (h : Hdr) (d : Fin 128) (a : Fin 128)
  /-- F32 sum of the 32 lanes, rounded once, written to every lane. (R207) -/
  | vredadd (h : Hdr) (d : Fin 128) (a : Fin 128)
  /-- F32 maximum of the lanes, written to every lane. (R207) -/
  | vredmax (h : Hdr) (d : Fin 128) (a : Fin 128)
  /-- F32 minimum of the lanes, written to every lane. (R207) -/
  | vredmin (h : Hdr) (d : Fin 128) (a : Fin 128)
  /-- Wrapped I32 sum of the lanes, written to every lane. (R207) -/
  | vrediadd (h : Hdr) (d : Fin 128) (a : Fin 128)
  /-- D[k] := A[B[k][4:0]]. (R208) -/
  | vperm (h : Hdr) (d : Fin 128) (a : Fin 128) (b : Fin 128)
  /-- Rotates the lanes of A by an immediate count. (R208) -/
  | vrot (h : Hdr) (d : Fin 128) (a : Fin 128) (i : Fin 32)
  /-- Writes xr[31:0] to every lane. (R209) -/
  | vbcast (h : Hdr) (d : Fin 128) (r : Fin 32)
  /-- xr := one lane of A, zero-extended. (R209) -/
  | vext (h : Hdr) (v : Fin 128) (r : Fin 32) (l : Fin 32)
  /-- Writes a sign-extended imm7 to every lane. (R208) -/
  | vimm (h : Hdr) (d : Fin 128) (i : Fin 128)
  /-- Loads one scratchpad line into a vector once its presence bit is set. (R210) -/
  | vld (h : Hdr) (v : Fin 128) (t : Fin 512) (l : Fin 32)
  /-- Stores a vector to one scratchpad line and sets its presence bit. (R211) -/
  | vst (h : Hdr) (v : Fin 128) (t : Fin 512) (l : Fin 32)
  /-- Copies 32 elements of an accumulator row after the earlier operations on it retire. (R212) -/
  | mvaccRow (h : Hdr) (d : Fin 128) (c : Fin 4) (g : Fin 8) (x : Fin 32)
  /-- Copies 32 elements of an accumulator column after the earlier operations on it retire. (R212) -/
  | mvaccCol (h : Hdr) (d : Fin 128) (c : Fin 4) (g : Fin 8) (x : Fin 32)
  /-- Copies an accumulator row without waiting, with whole operations per row. (R63) -/
  | mvaccRowPeek (h : Hdr) (d : Fin 128) (c : Fin 4) (g : Fin 8) (x : Fin 32)
  /-- Copies an accumulator column without waiting, with whole operations per row. (R63) -/
  | mvaccColPeek (h : Hdr) (d : Fin 128) (c : Fin 4) (g : Fin 8) (x : Fin 32)
  /-- Loads an L8 W operand from a tile group into a weight plane. (R217) -/
  | wldL8Tile (h : Hdr) (p : Fin 2) (t : Fin 512)
  /-- Loads an L8 W operand through a tile handle into a weight plane. (R217) -/
  | wldL8Handle (h : Hdr) (p : Fin 2) (a : Fin 32)
  /-- Loads an L6 W operand from a tile group. (R217) -/
  | wldL6Tile (h : Hdr) (p : Fin 2) (t : Fin 512)
  /-- Loads an L6 W operand through a tile handle. (R217) -/
  | wldL6Handle (h : Hdr) (p : Fin 2) (a : Fin 32)
  /-- Loads a BF16 W operand from a tile group. (R217) -/
  | wldBf16Tile (h : Hdr) (p : Fin 2) (t : Fin 512)
  /-- Loads a BF16 W operand through a tile handle. (R217) -/
  | wldBf16Handle (h : Hdr) (p : Fin 2) (a : Fin 32)
  /-- Loads an I8 W operand from a tile group. (R217) -/
  | wldI8Tile (h : Hdr) (p : Fin 2) (t : Fin 512)
  /-- Loads an I8 W operand through a tile handle. (R217) -/
  | wldI8Handle (h : Hdr) (p : Fin 2) (a : Fin 32)
  /-- Multiplies an L8 A tile group by a weight plane into an accumulator. (R221) -/
  | mmaL8Tile (h : Hdr) (c : Fin 4) (p : Fin 2) (k : Fin 8) (z : Fin 2) (t : Fin 512)
  /-- Multiplies an L8 A operand fetched through a tile handle. (R221) -/
  | mmaL8Handle (h : Hdr) (c : Fin 4) (p : Fin 2) (k : Fin 8) (z : Fin 2) (a : Fin 32)
  /-- Multiplies an L6 A tile group. (R221) -/
  | mmaL6Tile (h : Hdr) (c : Fin 4) (p : Fin 2) (k : Fin 8) (z : Fin 2) (t : Fin 512)
  /-- Multiplies an L6 A operand through a tile handle. (R221) -/
  | mmaL6Handle (h : Hdr) (c : Fin 4) (p : Fin 2) (k : Fin 8) (z : Fin 2) (a : Fin 32)
  /-- Multiplies a BF16 A tile group. (R221) -/
  | mmaBf16Tile (h : Hdr) (c : Fin 4) (p : Fin 2) (k : Fin 8) (z : Fin 2) (t : Fin 512)
  /-- Multiplies a BF16 A operand through a tile handle. (R221) -/
  | mmaBf16Handle (h : Hdr) (c : Fin 4) (p : Fin 2) (k : Fin 8) (z : Fin 2) (a : Fin 32)
  /-- Multiplies an I8 A tile group with wrapping I32 sums. (R221) -/
  | mmaI8Tile (h : Hdr) (c : Fin 4) (p : Fin 2) (k : Fin 8) (z : Fin 2) (t : Fin 512)
  /-- Multiplies an I8 A operand through a tile handle. (R221) -/
  | mmaI8Handle (h : Hdr) (c : Fin 4) (p : Fin 2) (k : Fin 8) (z : Fin 2) (a : Fin 32)
  /-- Enqueues a drain of an accumulator into a tile group under a mask pair and descriptor. (R226) -/
  | mdrain (h : Hdr) (c : Fin 4) (k : Fin 8) (t : Fin 512) (a : Fin 32)
  /-- Enqueues the zeroing of every element of an accumulator. (R224) -/
  | mzero (h : Hdr) (c : Fin 4)
  /-- Loads a mask pair from a scratchpad line. (R225) -/
  | mkld (h : Hdr) (k : Fin 8) (t : Fin 512) (l : Fin 32)
  /-- Sets a mask pair to row and column ranges. (R225) -/
  | mkrng (h : Hdr) (k : Fin 8) (a : Fin 32) (b : Fin 32)
  /-- Sets every bit of a mask pair. (R225) -/
  | mkall (h : Hdr) (k : Fin 8)
  /-- Reads a mask parameter block and enqueues its installation. (R231) -/
  | mpbld (h : Hdr) (a : Fin 32)
  /-- Reads an activation table and enqueues its installation. (R232) -/
  | lutld (h : Hdr) (a : Fin 32)
  /-- Holds strand M until the earlier entries targeting an accumulator have retired. (R224) -/
  | mwait (h : Hdr) (c : Fin 4)
  /-- Reads a TCB and enqueues a treadle run. (R234) -/
  | trgo (h : Hdr) (a : Fin 32)
  /-- Ends an active run after the stitch in progress. (R244) -/
  | trstop (h : Hdr)
  /-- Holds strand M until no treadle run is active. (R244) -/
  | trwait (h : Hdr)
  /-- Loads 1 to 8 bytes in the policy's space, optionally sign-extended. (R247) -/
  | ld (h : Hdr) (d : Fin 32) (a : Fin 32) (p : Fin 32) (n : Fin 4) (x : Fin 2)
  /-- Stores 1 to 8 bytes of xd in the policy's space. (R247) -/
  | st (h : Hdr) (d : Fin 32) (a : Fin 32) (p : Fin 32) (n : Fin 4)
  /-- Prefetches a space-0 line without reporting faults. (R250) -/
  | pf (h : Hdr) (a : Fin 32) (p : Fin 32) (n : Fin 4)
  /-- Atomic add at the home, returning the old value. (R251) -/
  | amoAdd (h : Hdr) (d : Fin 32) (a : Fin 32) (b : Fin 32) (p : Fin 32) (z : Fin 2)
  /-- Atomic and, returning the old value. (R251) -/
  | amoAnd (h : Hdr) (d : Fin 32) (a : Fin 32) (b : Fin 32) (p : Fin 32) (z : Fin 2)
  /-- Atomic or, returning the old value. (R251) -/
  | amoOr (h : Hdr) (d : Fin 32) (a : Fin 32) (b : Fin 32) (p : Fin 32) (z : Fin 2)
  /-- Atomic xor, returning the old value. (R251) -/
  | amoXor (h : Hdr) (d : Fin 32) (a : Fin 32) (b : Fin 32) (p : Fin 32) (z : Fin 2)
  /-- Atomic signed maximum, returning the old value. (R251) -/
  | amoMax (h : Hdr) (d : Fin 32) (a : Fin 32) (b : Fin 32) (p : Fin 32) (z : Fin 2)
  /-- Atomic signed minimum, returning the old value. (R251) -/
  | amoMin (h : Hdr) (d : Fin 32) (a : Fin 32) (b : Fin 32) (p : Fin 32) (z : Fin 2)
  /-- Atomic swap, returning the old value. (R251) -/
  | amoSwap (h : Hdr) (d : Fin 32) (a : Fin 32) (b : Fin 32) (p : Fin 32) (z : Fin 2)
  /-- Atomic compare-and-swap against xd, returning the old value. (R251) -/
  | amoCas (h : Hdr) (d : Fin 32) (a : Fin 32) (b : Fin 32) (p : Fin 32) (z : Fin 2)
  /-- Sends one element to be added at its address, with no result. (R252) -/
  | redAdd (h : Hdr) (a : Fin 32) (b : Fin 32) (p : Fin 32) (z : Fin 2)
  /-- Sends one element for a maximum reduction. (R252) -/
  | redMax (h : Hdr) (a : Fin 32) (b : Fin 32) (p : Fin 32) (z : Fin 2)
  /-- Sends one element for a minimum reduction. (R252) -/
  | redMin (h : Hdr) (a : Fin 32) (b : Fin 32) (p : Fin 32) (z : Fin 2)
  /-- Sets EXPECT of an EMPTY tile and clears its presence bits. (R254) -/
  | talloc (h : Hdr) (t : Fin 512) (c : Fin 32)
  /-- Zero-fills the absent lines of a tile and makes it FULL. (R254) -/
  | tseal (h : Hdr) (t : Fin 512)
  /-- Holds strand L until the tile is FULL. (R254) -/
  | twait (h : Hdr) (t : Fin 512)
  /-- xd := the tile's table entry. (R254) -/
  | tstat (h : Hdr) (d : Fin 32) (t : Fin 512)
  /-- Clears the presence bits of a FILLING or FULL tile, making it EMPTY. (R254) -/
  | tdrop (h : Hdr) (t : Fin 512)
  /-- Welt copy from global memory into tiles. (R258) -/
  | wcpIn (h : Hdr) (a : Fin 32) (b : Fin 32) (c : Fin 32) (k : Fin 32)
  /-- Welt copy from local tiles to global memory. (R258) -/
  | wcpOut (h : Hdr) (a : Fin 32) (b : Fin 32) (c : Fin 32) (k : Fin 32)
  /-- Welt copy from local tiles to remote tiles. (R258) -/
  | wcpRt (h : Hdr) (a : Fin 32) (b : Fin 32) (c : Fin 32) (k : Fin 32)
  /-- Welt copy from global to global memory. (R258) -/
  | wcpGg (h : Hdr) (a : Fin 32) (b : Fin 32) (c : Fin 32) (k : Fin 32)
  /-- Conditional copy out that writes only if the version word matches. (R260) -/
  | wcpCond (h : Hdr) (a : Fin 32) (b : Fin 32) (c : Fin 32) (k : Fin 32)
  /-- Copies an A operand in and then issues a follow-on multiply. (R261) -/
  | wcpMm (h : Hdr) (a : Fin 32) (b : Fin 32) (c : Fin 32) (k : Fin 32)
  /-- Hands a collective on a named buffer to the hub's collective engines. (R263) -/
  | coll (h : Hdr) (a : Fin 32) (b : Fin 32) (c : Fin 32) (k : Fin 32)
  /-- Takes a sequence value and sends an APPEND of KV rows to the context's set. (R268) -/
  | kvapp (h : Hdr) (a : Fin 32) (b : Fin 32) (c : Fin 32) (k : Fin 32)
  /-- Takes a sequence value and sends a QUERY whose merged result lands in tiles. (R268) -/
  | kvqry (h : Hdr) (a : Fin 32) (b : Fin 32) (c : Fin 32) (k : Fin 32)
  /-- Takes a sequence value and sends a FORK that creates a child context. (R268) -/
  | kvfork (h : Hdr) (a : Fin 32) (b : Fin 32) (k : Fin 32)
  /-- Takes a sequence value and sends a CANCEL by lineage prefix to every die of the module. (R268) -/
  | kvcan (h : Hdr) (a : Fin 32) (b : Fin 32) (k : Fin 32)
  /-- Takes a sequence value and sends a MIGRATE of one page. (R268) -/
  | kvmig (h : Hdr) (a : Fin 32) (b : Fin 32) (k : Fin 32)
  /-- Takes a sequence value and sends a RELABEL, replacing the record's lineage. (R268) -/
  | kvrel (h : Hdr) (a : Fin 32) (b : Fin 32) (k : Fin 32)
  /-- wd := Wrap(wa + wb, 32). (R304) -/
  | awlAdd (d : Fin 16) (a : Fin 16) (b : Fin 16)
  /-- wd := Wrap(wa - wb, 32). (R304) -/
  | awlSub (d : Fin 16) (a : Fin 16) (b : Fin 16)
  /-- Bitwise and of wa and wb. (R304) -/
  | awlAnd (d : Fin 16) (a : Fin 16) (b : Fin 16)
  /-- Logical shift of wa right by wb[4:0]. (R304) -/
  | awlShr (d : Fin 16) (a : Fin 16) (b : Fin 16)
  /-- wd := 1 if signed wa < wb, else 0. (R304) -/
  | awlSlt (d : Fin 16) (a : Fin 16) (b : Fin 16)
  /-- wd := wa + sign-extended imm14. (R304) -/
  | awlAddi (d : Fin 16) (a : Fin 16) (i : Fin 16384)
  /-- wd := sign-extended imm18. (R304) -/
  | awlWli (d : Fin 16) (i : Fin 262144)
  /-- F32 addition. (R304) -/
  | awlFadd (d : Fin 16) (a : Fin 16) (b : Fin 16)
  /-- F32 multiplication. (R304) -/
  | awlFmul (d : Fin 16) (a : Fin 16) (b : Fin 16)
  /-- F32 maximum as vfmax. (R304) -/
  | awlFmax (d : Fin 16) (a : Fin 16) (b : Fin 16)
  /-- fd := RecipF(fa). (R304) -/
  | awlFrcp (d : Fin 16) (a : Fin 16)
  /-- fd := Exp2F(fa). (R304) -/
  | awlFexp2 (d : Fin 16) (a : Fin 16)
  /-- fd := Log2F(fa). (R304) -/
  | awlFlog2 (d : Fin 16) (a : Fin 16)
  /-- fd := RoundToF32 of signed wa. (R304) -/
  | awlFcvt (d : Fin 16) (a : Fin 16)
  /-- wd := F32 fa converted to I32. (R304) -/
  | awlFint (d : Fin 16) (a : Fin 16)
  /-- fd := the bits of wa. (R304) -/
  | awlFbits (d : Fin 16) (a : Fin 16)
  /-- wd := the bits of fa. (R304) -/
  | awlWbits (d : Fin 16) (a : Fin 16)
  /-- Loads a word from ARG + wa + imm. (R304) -/
  | awlLw (d : Fin 16) (a : Fin 16) (i : Fin 16384)
  /-- Stores wd to ARG + wa + imm. (R304) -/
  | awlSw (d : Fin 16) (a : Fin 16) (i : Fin 16384)
  /-- Branch when wa = wb. (R304) -/
  | awlBeq (a : Fin 16) (b : Fin 16) (o : Fin 16384)
  /-- Branch when wa ≠ wb. (R304) -/
  | awlBne (a : Fin 16) (b : Fin 16) (o : Fin 16384)
  /-- Branch when signed wa < wb. (R304) -/
  | awlBlt (a : Fin 16) (b : Fin 16) (o : Fin 16384)
  /-- Continue at p + off26. (R304) -/
  | awlJmp (o : Fin 67108864)
  /-- Ends the run, which then makes its counter add. (R300) -/
  | awlStop
  /-- Replaces the candidate list with wb candidates from memory. (R305) -/
  | awlCld (a : Fin 16) (b : Fin 16)
  /-- Applies presence and frequency penalties to the candidate logits. (R309) -/
  | awlCpen (d : Fin 16) (a : Fin 16) (b : Fin 16)
  /-- Sorts the candidates and keeps the top k. (R306) -/
  | awlCtopk (a : Fin 16)
  /-- Samples a candidate index from the softmax by a draw. (R307) -/
  | awlCpick (d : Fin 16) (a : Fin 16) (b : Fin 16)
  /-- Reads the token and logit of candidate wb. (R304) -/
  | awlCget (d : Fin 16) (a : Fin 16) (b : Fin 16)
  /-- Makes one SHAKE256 draw into ga and a uniform value into fd. (R308) -/
  | awlRdraw (d : Fin 16) (a : Fin 16)
  /-- Adds to a token's base penalty count. (R309) -/
  | awlPadd (d : Fin 16) (a : Fin 16) (b : Fin 16)
  /-- Writes a 16-byte token record as one granule. (R308) -/
  | awlTok (a : Fin 16) (b : Fin 16)
  /-- Creates the next draft-tree node. (R310) -/
  | awlDnode (d : Fin 16) (a : Fin 16) (b : Fin 16)
  /-- Returns the deepest node whose whole path is accepted. (R310) -/
  | awlDbest (d : Fin 16) (a : Fin 16) (b : Fin 16)
  /-- Commits a draft path to the base penalty counts and empties the tree. (R310) -/
  | awlDcommit (d : Fin 16) (a : Fin 16)
  /-- Power good or module reset starts the boot ROM with IMG 0, then IMG 1, with every register, counter, slot and readiness bit at reset. (R24) -/
  | powerGood
  /-- The boot ROM finishes verifying the flash image and moves IMG to 2 on success, or to 3 or 6 on failure, writing BOOTSTAT. (R22) -/
  | flashImageVerificationEnd (uce agree : Bool)
  /-- A host write of 1 to BDOOR.GO while IMG is 3 starts verification of the staged image (IMG 4); in any other state it has no effect. (R25) -/
  | bdoorGo
  /-- Verification of the host image ends with IMG 5 and the image running from the window, or with a return to IMG 3 and REASON set. (R24) -/
  | hostImageVerificationEnd (agree : Bool)
  /-- A host write to the staging window is accepted only while IMG is 3 and is ignored otherwise. (R25) -/
  | stagingWindowWrite (off : Nat) (bytes : List Byte)
  /-- Firmware mailbox function 0x0001 returns the module power limit in FRES. (R26) -/
  | readPowerLimit
  /-- Firmware mailbox function 0x0002 sets the module power limit, clamped to 1,200 to 3,600 W, and returns the limit now in force. (R15) -/
  | setPowerLimit
  /-- Firmware mailbox function 0x0003 resets a counter, forwarding the request to the holding module, and returns 0, 1 or 2. (R67) -/
  | counterReset (reachable : Bool)
  /-- Firmware mailbox function 0x0004 sizes the HBM4E and LPDDR-6 KV pools of one T-die, or refuses with 1. (R276) -/
  | sizeKvPools
  /-- Firmware mailbox function 0x0005 clears the fence list of the telemetry store. (R369) -/
  | clearFenceList
  /-- Firmware mailbox function 0x0006 sets the module number and FABID.VALID, or returns 1 when VALID is already 1. (R334) -/
  | setModuleNumber
  /-- A firmware mailbox request with any other FUNC code, or one made outside IMG states 2 and 5, ends at once with STATUS 3 and FRES all ones. (R26) -/
  | undefinedFirmwareFunction
  /-- A function finishes its bring-up and sets its readiness bit, with GEN raised by 1 and ALLUP updated. (R19) -/
  | functionReady (u : UnitId)
  /-- Firmware changes an island's clock and supply between two of its cycles and writes the island status word. (R12) -/
  | operatingPointChange (i : Fin 26) (mhz : Nat) (mv : Nat) (pwr hot : Bool)
  /-- A die's hottest junction reaches 95 °C, and firmware lowers its island operating points and the T-die's active-bank limit, with a THERM event. (R16) -/
  | dieReaches95c (n : Fin 22) (points : List (Nat × Nat)) (actlim : Nat)
  /-- A die reaches 110 °C, and the hub writes the event to the telemetry store and removes power from the whole module. (R16) -/
  | dieReaches110c (n : Fin 22)
  /-- A write of 1 to a core's boot mailbox GO is refused as not ready or busy, or is accepted, latching IMAGE and ARG and starting the overlay loader. (R37) -/
  | bootMailboxGo (c : CoreIx)
  /-- The overlay loader either refuses the image with STATE 5 and IMGBAD or LOADF, or finishes copying it and starts strand Q at the entry word with STATE 2. (R38) -/
  | imageLoadEnd (c : CoreIx)
  /-- A launch's core has all four strands stopped and every engine queue empty, and STATE becomes 3. (R39) -/
  | launchEnd (c : CoreIx)
  /-- The nest walker searches its records for a core that has become free and ready, then dispatches or resumes the lowest-numbered iteration of the chosen record. (R316) -/
  | nestIterationDispatch (c : CoreIx)
  /-- A nest iteration's four strands have stopped and its queues have drained, and the walker makes the END add once every iteration of the record has ended. (R41) -/
  | iterationEnd (c : CoreIx)
  /-- The core finds every participant in its join slot with a queue dependence inside the join, and the chosen strand takes RDVDL. (R35) -/
  | rendezvousDeadlock (c : CoreIx)
  /-- A strand reaches a word whose OP lies in a reserved cell of its map and takes a precise RSVOP trap in stage 1. (R389) -/
  | rsvopTrap (w : W32)
  /-- A strand's program counter reaches word 24,576 by falling through and takes IRANGE. (R392) -/
  | irangeTrap
  /-- In the cycle after an engine event, the strand's next word does not issue and the strand traps there with OPND, STRICT or POISON, unless the trap is held. (R418) -/
  | engineTrap (c : CoreIx)
  /-- A fixed-latency result lands in its destination, and in lat for a 32-lane V result, L cycles after its word issued. (R145) -/
  | fixedLatencyWrite (c : CoreIx)
  /-- The frozen core resumes with the recomputed word written, or is fenced after three mismatches. (R359) -/
  | coreFreezeEnd (c : CoreIx) (third sequencer : Bool) (index : Nat)
  /-- A variable-latency result arrives and is written to its destination, and to lat for vld and mvacc. (R199) -/
  | variableLatencyResult (c : CoreIx) (k : StrandId) (i : Nat)
  /-- The quad demand network delivers a held demand event into a subscriber's demand queue once an entry is free. (R71) -/
  | demandDelivery (c : CoreIx) (k : StrandId)
  /-- The holding hub answers a registered remote wait with the counter's value once the counter reaches the operand. (R66) -/
  | remoteWaitAnswer (c : CoreIx) (k : StrandId) (value : RemoteValue)
  /-- A remote-wait registration refused by a full hub is sent again after its backoff. (R66) -/
  | remoteWaitResend (c : CoreIx) (k : StrandId) (accepted : Bool)
  /-- An add reaches the counter's holder and sets the counter to min(value + v, 2^64 - 1), writing a CNTSAT record at saturation. (R67) -/
  | counterAddArrival (a : AddArrival)
  /-- A page-table walk ends, and every access coalesced on it completes or faults on its one result. (R105) -/
  | tableWalkEnd (c : CoreIx) (va : Nat)
  /-- A load performed ahead retires: its lease is checked, it reports its fault, or the strand's work from it onward is discarded and replayed. (R123) -/
  | loadRetirement (c : CoreIx) (k : StrandId) (changed : Bool)
  /-- The home renews a lapsed lease, extending rts or supplying the new value of the line. (R120) -/
  | leaseRenewal (line : Nat)
  /-- Whole lines from a Welt engine reach a tile and are accepted, setting presence and perhaps making the tile FULL, or are refused at a FULL or DRAINING tile. (R112) -/
  | arrival (i : Nat)
  /-- The sender's Welt engine resends a refused arrival. (R45) -/
  | arrivalRetry (i : Nat)
  /-- An arrival that has been refused continuously for 1 ms causes one ARRWAIT record, and the resends continue. (R411) -/
  | arrivalWaitRecord (i : Nat)
  /-- A red reaches its home and is absorbed into a reduce-state partial, or is applied as an atomic when the page has RED 0. (R116) -/
  | redAtHome (c : CoreIx) (i : Nat)
  /-- A cache level evicts a line or superblock by eviction class, merging any reduce-state line and writing back dirty lines. (R114) -/
  | lineEviction (line : Nat)
  /-- A write-back reaches a slice and enters its write-back buffer, or is refused when the buffer is full. (R118) -/
  | writeBackArrival (i : Nat)
  /-- A sender resends a refused write-back. (R118) -/
  | writeBackResend (i : Nat)
  /-- An atomic executes in its line's home slice ALU as one point in the global order. (R138) -/
  | atomicAtHome (c : CoreIx) (k : StrandId)
  /-- A pod atomic reaches its target, updates the page's contention counter and mode, and executes at the home or the owner. (R338) -/
  | podAtomicAtHome (r : PodRequest)
  /-- A space-2 load or store reaches its target core and waits for presence, writes under the store rule, or is refused as SPREF. (R249) -/
  | space2AccessAtTarget (r : PodRequest)
  /-- A pod load or store reaches its target module and is translated, checked and served in per-source arrival order. (R98) -/
  | podAccessAtTarget (r : PodRequest)
  /-- A posted store or red fails at its target, which writes a record; the issuing strand's deferred slot is filled if empty. (R407) -/
  | postedAccessFailure (c : CoreIx) (i : Nat) (f : RemoteFault)
  /-- An overlay load writes its last word, writes xd := 0 and releases strands waiting on its words, or traps LOADF. (R181) -/
  | overlayLoadEnd (c : CoreIx)
  /-- A weight-load entry starts: its plane becomes LOADING and takes the entry's format tag. (R217) -/
  | weightLoadStart (c : CoreIx) (i : Nat)
  /-- The last byte of a weight load lands: the plane becomes LOADED and its source tiles become EMPTY. (R217) -/
  | weightLoadEnd (c : CoreIx) (i : Nat)
  /-- A multiply entry starts once its plane and accumulator conditions hold, and its plane becomes COMPUTING. (R215) -/
  | multiplyStart (c : CoreIx) (i : Nat)
  /-- A row of a multiply completes, and its checksum either commits it or causes a replay from that beat. (R360) -/
  | multiplyRowComplete (c : CoreIx) (i : Nat) (mismatch : Bool)
  /-- A multiply retires: its tiles become EMPTY, VALID of %mprog clears and the plane returns to LOADED. (R216) -/
  | multiplyRetire (c : CoreIx) (i : Nat)
  /-- An mzero entry retires after writing zero to every element of its accumulator. (R224) -/
  | mzeroRetire (c : CoreIx) (i : Nat)
  /-- A drain entry starts, sets EXPECT of each output tile and reads its scale-and-bias lines. (R229) -/
  | drainStart (c : CoreIx) (i : Nat)
  /-- A drain writes one whole output line as an arrival, once all its bytes are known. (R229) -/
  | drainLineWrite (c : CoreIx) (i : Nat)
  /-- A drain retires after writing its last line, applying CLR to the rows it read. (R216) -/
  | drainEnd (c : CoreIx) (i : Nat)
  /-- An mpbld or lutld entry installs its block in the mask parameter store or the activation table. (R231) -/
  | tableInstall (c : CoreIx) (i : Nat)
  /-- A remote operand line is not delivered 100 µs after its request, so the multiply stops with OPND cause 1 (stops for poison or fences follow the same rule). (R421) -/
  | operandLineTimeout (c : CoreIx) (i : Nat) (cause : Fin 3)
  /-- A trgo entry starts its treadle run: the named planes become COMPUTING and demands due before the run are raised. (R234) -/
  | treadleRunStart (c : CoreIx) (i : Nat)
  /-- Global beat g's cycle comes: the beat enters if ready, raising demands and moving tiles, and is otherwise held, or the run stops under STRICT or POISON. (R238) -/
  | treadleBeat (c : CoreIx)
  /-- The last drain slot is written or the last stitch completes: the run ends, END is added and the array returns to instruction mode. (R243) -/
  | treadleRunEnd (c : CoreIx)
  /-- When the last byte of a wcp.mm group lands, the follow-on word enters the array queue, or is refused as FOLLOW. (R261) -/
  | followOnEntry (c : CoreIx) (i : Nat)
  /-- A Welt engine reads one line, waiting for presence on a local tile, and writes it to its destination. (R257) -/
  | weltLine (c : CoreIx) (i : Nat) (j : Nat)
  /-- Every effect of a Welt command has been performed, and the engine adds 1 to xk. (R257) -/
  | weltCommandComplete (c : CoreIx) (i : Nat)
  /-- At the destination home, wcp.cond compares the version word, then writes and adds 1, or adds 2^32. (R260) -/
  | conditionalCopyCommit (c : CoreIx) (i : Nat)
  /-- The group's collective engines compare descriptors, COUNT and order, and mark a mismatched collective failed with 2^32. (R434) -/
  | collectiveCompare (i : Nat) (m : Bool)
  /-- A collective finishes its ordered reduction or exchange, and each member's xk receives 1. (R264) -/
  | collectiveComplete (i : Nat) (failed : Bool) (others : List (Nat × List Byte))
  /-- A context command or NOTE reaches a T-die and is accepted into its context queue, held for a missing entry, dropped by a retained prefix, or refused. (R272) -/
  | contextEntryArrival (i : Nat)
  /-- The issuing side resends a refused context entry after a backoff. (R272) -/
  | contextEntryResend (i : Nat)
  /-- A NOTE, or an entry executing as one, reaches NX and completes, advancing NX and N where it stands for an APPEND. (R272) -/
  | noteComplete (n : Fin 22) (i : Nat)
  /-- An APPEND starts at a T-die, allocates pages, copies on write and writes the rows it holds, and advances N. (R277) -/
  | appendExecute (n : Fin 22) (i : Nat)
  /-- A QUERY execution starts on a T-die's logical engines, building the read signature, and holds off writes on its fourth execution. (R278) -/
  | queryExecute (n : Fin 22) (i : Nat)
  /-- A query execution ends: the signatures are intersected, and the partial is committed through the reduction tree or the query executes again. (R283) -/
  | queryExecutionEnd (n : Fin 22) (i : Nat)
  /-- A FORK creates the child entry on a T-die and shares the parent's descriptors, or executes as a NOTE, or is dropped by a retained prefix. (R286) -/
  | forkExecute (n : Fin 22) (i : Nat)
  /-- A RELABEL replaces its context's lineage and depth on the T-die. (R291) -/
  | relabelExecute (n : Fin 22) (i : Nat)
  /-- A MIGRATE copies a page to the named medium, updates its descriptor and version, and frees the old page. (R292) -/
  | migrateExecute (n : Fin 22) (i : Nat)
  /-- A CANCEL reaches a T-die, which drops, stops and removes every matching context, freeing its pages, and retains the prefix. (R288) -/
  | cancelArrivalTdie (n : Fin 22) (i : Nat)
  /-- Every T-die and the issuing side have completed a context command, and xk receives 1, 2^32 or 2^48. (R273) -/
  | contextCommandCompletion (i : Nat)
  /-- Once every T-die partial has arrived, the Cinch merges them in ascending die number and writes the QUERY result tiles. (R281) -/
  | cinchMerge (i : Nat)
  /-- An entry with s ≠ 0 held 1 ms for a context with no entry completes with the failure add and a CTXF record. (R271) -/
  | contextHoldTimeout (n : Fin 22) (i : Nat)
  /-- An entry held more than 1 ms for a full context table causes a die fault record and the host interrupt. (R271) -/
  | tableFullHoldTimeout (n : Fin 22) (i : Nat)
  /-- A write held off by a fourth query execution for more than 100 µs causes one CTXF record. (R417) -/
  | writeHoldTimeout (n : Fin 22)
  /-- A T-die starts a wave of bank activations under the ACTLIM it reads then. (R293) -/
  | activationWave (n : Fin 22)
  /-- The Awl takes a run from its queues, checks its generation and starts it at its entry word, or drops it. (R300) -/
  | awlRunStart (d : Fin 8) (i : Nat)
  /-- An ADMIT run occupies a free slot from its admission record and raises the slot generation, or adds 2^32. (R301) -/
  | awlAdmit (d : Fin 8) (i : Nat)
  /-- A RETIRE run returns an occupied slot's blocks and frees the slot. (R301) -/
  | awlRetire (d : Fin 8) (i : Nat)
  /-- A host write to an Awl program word lands while IDLE is 1, and is otherwise dropped with an AWLF record of cause 7. (R302) -/
  | awlProgramWordWrite (d : Fin 8) (i : Nat) (w : W32)
  /-- A write to AWLCTL.HOLD stops or allows the Awl's starting of runs. (R302) -/
  | awlctlWrite (d : Fin 8) (w : Word)
  /-- A write of 1 to GCTL.GO latches a replay with a snapshot of the parameters, or sets DROP when two replays are outstanding, or FAULT for a bad record. (R313) -/
  | gctlGo
  /-- A write to GREC sets the graph record address, and is ignored while OUTST is non-zero. (R312) -/
  | grecWrite (w : Word)
  /-- A replay's next node dispatches once its predecessor has dispatched and its wait is satisfied, or the replay ends with a graph fault. (R314) -/
  | graphNodeDispatch
  /-- A NEST or TASK node refused with status 1 is dispatched again after a backoff, with a HEAPF record after 1 ms. (R311) -/
  | graphNodeRedispatch
  /-- Every dispatched node of a replay has completed, and DONE receives 1, or 2^32 after a graph fault. (R314) -/
  | graphReplayEnd (i : Nat)
  /-- A node whose WAITH wait has lasted 100 ms causes one GRAPHF record, and the wait goes on. (R432) -/
  | graphWaitRecord
  /-- The walker raises a pre-emption request on the core running the lowest-class iteration when a higher class has work. (R317) -/
  | preemptionRequest (d : Fin 8) (i : Nat)
  /-- A pre-emption request is served at a bundle boundary or a yield, and the core's state is saved to a pool area. (R318) -/
  | preemptionService (c : CoreIx)
  /-- The save of a pre-empted iteration completes, and the core becomes free. (R318) -/
  | saveEnd (c : CoreIx)
  /-- A saved iteration begins restoring on a free, ready core of its record. (R320) -/
  | iterationResume (c : CoreIx)
  /-- The restore completes, and the iteration continues with its saved pending writes landing. (R320) -/
  | restoreEnd (c : CoreIx)
  /-- A CANCEL reaches a K-die, which raises RECV, retains the prefix and applies it to every later pop, dispatch and push. (R325) -/
  | cancelArrivalKdie (d : Fin 8) (i : Nat)
  /-- A core whose lineage matches a CANCEL stops at a bundle boundary, with its queues discarded or delivered as stated. (R327) -/
  | cancelCoreStop (c : CoreIx)
  /-- The die has purged heap entries and records, freed saved areas and stopped cores for a CANCEL, and DONE advances. (R326) -/
  | cancelEffectsDone (d : Fin 8) (i : Nat)
  /-- An intermediate die forwards a phase-two message on its direct link to the destination. (R331) -/
  | messageForward (i : Nat)
  /-- An intermediate module forwards a two-hop pod message from its row plane to its column plane. (R336) -/
  | podForward (i : Nat)
  /-- A flit reaches a link receiver and is accepted, refused for lack of a buffer, or discarded on a CRC or sequence error. (R438) -/
  | flitReceive (n : Fin 22) (m : Fin 12) (crcOk room : Bool)
  /-- The sender replays from a discarded flit, and retrains the link after four failed transmissions or 64 failures in 1 ms. (R438) -/
  | flitReplay (n : Fin 22) (m : Fin 12)
  /-- A message whose flit was refused for lack of a buffer is sent again with a new link sequence number. (R439) -/
  | flitRefusalResend (n : Fin 22) (m : Fin 12) (i : Nat)
  /-- A link receiver loses lock, and the link module starts a retrain. (R441) -/
  | linkLossOfLock (n : Fin 22) (m : Fin 12)
  /-- A retrain attempt ends; the link keeps the passing width and rate, tries the next attempt, or goes down after three failures. (R441) -/
  | retrainAttemptEnd (n : Fin 22) (m : Fin 12) (pass : Bool)
  /-- An optical channel's retrain attempt ends; after three failures the channel is lost and a spare takes its place. (R444) -/
  | opticalRetrainAttemptEnd (plane : Fin 2) (q : Fin 512) (pass : Bool)
  /-- A fabric request still unanswered 100 µs after it was first sent is withdrawn and ends in LDOWN or the matching failure. (R447) -/
  | fabricRequestWithdrawal (c : CoreIx) (r : FabricRequest)
  /-- A message to an expander has been unacknowledged for 1 ms, so the hub retrains the port and resends. (R449) -/
  | expanderAckTimeout (n : Fin 22)
  /-- The port has carried no traffic 10 ms after the oldest unacknowledged message, and the expander is fenced with XTO. (R449) -/
  | expanderFenceTimeout (n : Fin 22)
  /-- The host link receives a TLP, and a poisoned or malformed write is dropped and reported through AER and a HOSTL record. (R450) -/
  | hostTlpReceive (h : Fin 2) (off : Nat) (damaged : Bool)
  /-- A host load or store through BAR2 or CXL.mem is served as an ordinary access at its home. (R342) -/
  | hostMemoryAccess (a : HostAccess)
  /-- The host link goes down, and a HOSTL record is written while work continues. (R451) -/
  | hostLinkDown (h : Fin 2)
  /-- The host link returns, and the interrupt is raised if any enabled HISTAT bit is 1. (R451) -/
  | hostLinkReturn (h : Fin 2) (narrow : Bool)
  /-- The patrol scrubber reads a line or word, writes back a corrected value or marks the line with data poison. (R362) -/
  | patrolScrub (x : ScrubSite)
  /-- Every second, the collected counts are written to the telemetry store in module flash. (R374) -/
  | telemetryFlush
  /-- Every 1 ms, each die's hottest junction is sampled into its thermal histogram. (R375) -/
  | thermalSample (temps : List Nat)
  /-- At orderly power-down, the counts are written to the telemetry store. (R374) -/
  | orderlyPowerDown
  /-- The host writes TAIL of a die fault log, and a write that would break the ring bounds is ignored. (R365) -/
  | logtailWrite (n : Fin 22) (w : Word)
  /-- The host writes a collective group entry, and VALID 1 defines the group again and clears a broken group. (R339) -/
  | gdefWrite (g : Fin 256) (w : Word)
  /-- A host write to a register with no row of its own stores RW fields, clears W1C bits and ignores RO fields. (R5) -/
  | registerWrite (off : Nat) (w : Word)
  /-- A single fault changes bits in one protection word, in one 32-byte DRAM transfer, or in one logic output for one cycle. (R355) -/
  | singleFault (f : FaultSite)
  /-- The module loses power without an orderly power-down, losing the telemetry counts collected since the last flush. (R374) -/
  | lossOfSupply
  /-- As a die's temperature falls, firmware raises the T-die's ACTLIM again, and it takes effect at the next wave boundary. (R293) -/
  | activeBankLimitRaise (n : Fin 22) (actlim : Nat)
  /-- Firmware changes a T-die's reduction-tree SHAPE or engine map while no QUERY executes there, and writes the T-die status words. (R279) -/
  | reductionTreeShapeChange (n : Fin 22) (shape : Bool) (map : List (Nat × Nat))
  deriving DecidableEq, Repr

end Sys2Proof
end

