-- ==== Sys2Proof/Machine/State.lean ====
section
/-! DEFINITION. The whole machine: one FDN-9480 module, plain data, and its state right after module reset. -/

namespace Sys2Proof.Machine

/-- What stops the machine. Safe: the hardware goes on or does not reach the point, and the model claims nothing. -/
inductive Fault where
  /-- the module has no power: no step of it exists until power good (R16, R374). Raised by `step` and by no word. Safe. -/
  | unpowered
  deriving DecidableEq, Repr

/-- What the model declines. -/
inductive Refusal where
  /-- raised by an arm of `exec` that has no meaning yet. Safe. -/
  | notModelled (mnemonic : String)
  deriving DecidableEq, Repr

/-- The agent whose word is being run: a strand of a core, or the run of a slot of a K-die's Awl. -/
structure Cur where
  core : Nat := 0
  strand : StrandId := .q
  die : Nat := 0
  slot : Nat := 0
  /-- fields of the fetched word that its format marks zero and that are not (R143) -/
  format : List Offence := []
  deriving DecidableEq, Repr

/-- What the word just tried did: issued, was not ready (why), with the queues it pops and pushes, or took a trap. -/
inductive Status where
  | issued (pops pushes : List StrandId)
  | waiting (waits : List Wait) (pops pushes : List StrandId)
  | trapped (stage1 : Bool) (pops pushes : List StrandId)
  deriving DecidableEq, Repr

/-- Who moves next (log 1). -/
inductive Mover where
  /-- a strand tries the word at its program counter -/
  | strand (core : Nat) (k : StrandId)
  /-- a core's arithmetic clock advances by one cycle -/
  | tick (core : Nat)
  /-- the run on a slot of a K-die's Awl runs its next word -/
  | awl (die slot : Nat)
  /-- an event of the machine or of its surroundings -/
  | event (i : Instr)
  deriving DecidableEq, Repr, Inhabited

/-- One turn: module time that passes first, in ns, and who moves. -/
structure Turn where
  dt : Nat
  mover : Mover
  deriving DecidableEq, Repr, Inhabited

/-- The whole module. -/
structure State where
  /-- turns to come; an empty list leaves the choice to `Config.turn` (model's own field, log 1); reset empty -/
  agenda : List Turn := []
  /-- steps taken, the argument of the free choices (model's own field, DESIGN CHOICE 0, log 1) -/
  tick : Nat := 0
  /-- free values drawn so far (model's own field, DESIGN CHOICE 0, log 2) -/
  draws : Nat := 0
  /-- the agent whose word is being run (model's own field, DESIGN CHOICE, log 1) -/
  cur : Cur := {}
  /-- what the last word tried did (model's own field, DESIGN CHOICE, log 1) -/
  status : Status := .issued [] []
  /-- the module is powered; R24, R374; reset yes -/
  powered : Bool := true
  /-- %time: nanoseconds since power good; R69; reset 0 -/
  now : Nat := 0
  /-- cores, key 64 x K-die + core; R8; reset: see Core -/
  cores : SMap Core := []
  /-- K-dies 0 to 7; R8; reset: see KDie -/
  kdies : SMap KDie := []
  /-- T-dies and expanders 8 to 15, 18 to 21; R8; reset: see TDie -/
  tdies : SMap TDie := []
  /-- hub dies; R8; reset: see Hub -/
  hub : Hub := {}
  /-- memory behind the T-dies, by die-local PA; R99; reset nothing listed (an unlisted byte reads 0, DESIGN CHOICE, log 7) -/
  mem : List Host.Cell := []
  /-- lines of memory with data poison, by PA of the line; R361; reset none -/
  poison : List Nat := []
  /-- lines of memory with an uncorrectable error that no read has found yet, by PA; R355, R403; reset none -/
  damaged : List Nat := []
  /-- die, UKIND and UIDX of the cache slice whose copy of a damaged line holds the error, by PA of the line; R403; reset none -/
  damagedBy : SMap (Nat × Nat × Nat) := []
  /-- dirty bytes held on compute dies, by PA of the byte; R107, R137; reset none -/
  dirty : List Host.Cell := []
  /-- the cache that holds a dirty line, by PA of the line: a place of `CacheLine`; R107, R114; reset none -/
  dirtyAt : SMap Nat := []
  /-- lines that the caches hold, with their eviction classes; R114; reset none -/
  cached : List CacheLine := []
  /-- a write of this step that a fourth query execution holds off (model's own field, DESIGN CHOICE none, log 1) -/
  heldWrite : Option Nat := none
  /-- leases [wts, rts] of lines, by PA of the line, and the latest logical time; R120; reset 0 -/
  leases : SMap (Nat × Nat) := []
  ltime : Nat := 0
  /-- reduce-state lines, by PA of the line; R116; reset none -/
  reds : SMap RedLine := []
  /-- write-backs on their way; R118; reset none -/
  wbs : List WriteBack := []
  /-- write-back buffers of the L2 and LLC slices: 16 entries each, key the slice's place; R118; reset empty -/
  wbuf : SMap Nat := []
  /-- entries of page tables that a TLB or a translation cache of the package holds; R105; reset none -/
  tlb : List TlbEntry := []
  /-- counters of the module, by handle: 64 bits; R64, R65, R67; reset 0 -/
  counters : SMap Nat := []
  /-- poisoned counters; R406; reset none -/
  badCounters : List Nat := []
  /-- counters whose saturation has been recorded; R373; reset none -/
  satCounters : List Nat := []
  /-- counter adds on their way; R67; reset none -/
  adds : List Add := []
  /-- lines on their way to tiles; R111; reset none -/
  arrivals : List Arrival := []
  /-- context commands not yet complete; R266; reset none -/
  cmds : List CtxCmd := []
  /-- identities given to context commands (model's own count); reset 0 -/
  nextCmd : Nat := 0
  /-- context entries on their way; R272; reset none -/
  ctxMsgs : List CtxMsg := []
  /-- collectives in flight: 16; R340; reset none -/
  colls : List Coll := []
  /-- messages in phase one of their routes; R331; reset none -/
  msgs : List Msg := []
  deriving DecidableEq, Repr

/-- The module right after module reset (R24): every field at its default. -/
def State.reset : State := {}

end Sys2Proof.Machine
end

