-- ==== Sys2Proof/Config.lean ====
section
/-! DEFINITION. What the spec leaves open: free values (opaque, with no body), and what one implementation fixes. -/

namespace Sys2Proof.Config

open Sys2Proof Sys2Proof.Machine

/-- The next turn where the agenda is empty: who moves next and how much time passes first is open (R48, R49; log 1). -/
opaque turn : Nat → Turn

/-- A free number for a choice the spec leaves open, drawn with the counter `State.draws` (log 2). -/
opaque freeNat : Nat → Nat

/-- A module at one place of a row (plane 0) or a column (plane 1) reaches the module at another: what other modules' channels carry is
open here, and may change with the count `Hub.legs` (R446; log 2). -/
opaque legUp : Nat → Nat → Nat → Nat → Bool

/-- The choice between the old and the new entry of a page table, by step and page (R105; log 48). -/
opaque pick : Nat → Nat → Nat

/-- The L2 slice of a K-die that holds a line, and the LLC slice of its T-die: which, the spec leaves open (R118; log 37). -/
opaque l2Slice : Nat → Nat
opaque llcSlice : Nat → Nat

/-- A free byte for a value the spec leaves unspecified (R38, R181, R190; log 2). -/
opaque freeByte : Nat → Byte

/-- ML-DSA-65 verification of a signature over a digest under a public key (R22): a standard named, not given. -/
opaque mlDsaVerify : List Byte → List Byte → List Byte → Bool

/-- The root-key digest fused in the hub (R22). -/
opaque rootKeyDigest : List Byte

/-- The fused minimum security version (R22). -/
opaque minSecurityVersion : Nat

/-- The device secret fused in the security root of hub die 16 + h (R27). -/
opaque deviceSecret : Nat → List Byte

/-- ML-DSA-65 key generation from a seed, public key and secret key, and signing (R27): a standard named, not given. -/
opaque mlDsaKeyGen : List Byte → List Byte × List Byte
opaque mlDsaSign : List Byte → List Byte → List Byte

/-- The host link of hub die 17 is connected (R17). -/
opaque secondLink : Bool

/-- Firmware's trim of an island's nominal supply, of the part: an offset in mV that R11 bounds by 25 either way. -/
opaque supplyTrim : Nat → Int

/-- The fused area key of a K-die (R322). -/
opaque areaKey : Nat → List Byte

/-- The device-specific engine image of a save area, by free number (R321). -/
opaque engineImage : Nat → List Byte

/-- The part of the interleaved region that is a K-die's save pool, which firmware chooses at boot (R319). -/
opaque savePool : Nat → Nat

/-- Where a T-die keeps the block-table entry of page `p` of a (context, layer, group): its PA (R275). -/
opaque blockTablePa : Nat → Nat → Nat → Nat → Nat → Nat

/-- Where a T-die keeps a page descriptor: its PA (R275). -/
opaque descriptorPa : Nat → Nat → Nat

/-- Size of the module flash image region in bytes (R376). -/
opaque flashSize : Nat

/-- Pages of 128 KiB of a medium of a T-die that firmware has free for its KV pool (R26, R276). -/
opaque freePages : Nat → Nat → Nat

/-- Where those pages begin, in pages (R276). -/
opaque poolBase : Nat → Nat → Nat

end Sys2Proof.Config
end

