-- ==== Sys2Proof/Decode.lean ====
section
/-! DEFINITION. From words to instructions and back (R141 to R161, R303, R304). `decode` is total: a word is an
instruction (with the fields that its format marks zero and that are not), a word with a reserved code, or a word with a
reserved OP. -/

namespace Sys2Proof

/-- What a word decodes to. -/
inductive Decoded where
  /-- the OP is a reserved cell of the map (R389) -/
  | reserved
  /-- a function or condition code is reserved (R390) -/
  | bad (offences : List Offence)
  /-- an instruction, with the offences of the fields its format marks zero (R143) -/
  | word (i : Instr) (offences : List Offence)
  deriving DecidableEq, Repr

/-- Field of `k` values whose lowest bit is `lo`. -/
def fld (w lo k : Nat) [NeZero k] : Fin k := Fin.ofNat k (w / 2 ^ lo)

/-- The offences of the zero fields (lowest bit, number of values) that are not zero (R143, REASON 2 of R384). -/
def zeros (w : Nat) : List (Nat × Nat) → List Offence
  | [] => []
  | (lo, k) :: r => if w / 2 ^ lo % k = 0 then zeros w r else ⟨lo, false, none, 2⟩ :: zeros w r

/-- S and WC of a strand word (R141). -/
def hdrOf (w : Nat) : Hdr := ⟨fld w 30 2, fld w 27 8⟩

/-- The shared map (R150, R151, R156, R157). The xa field of `sprd` and the xd and xa fields of `mfence`, which no rule uses or
marks zero, are ignored (DESIGN CHOICE, log 69). -/
def decodeShared (h : Hdr) (w : Nat) : Decoded :=
  match w / 0x200000 % 64 with
  | 1 =>
    match w % 64 with
    | 0 => .word (.add h (fld w 16 32) (fld w 11 32) (fld w 6 32)) (zeros w [])
    | 1 => .word (.sub h (fld w 16 32) (fld w 11 32) (fld w 6 32)) (zeros w [])
    | 2 => .word (.and h (fld w 16 32) (fld w 11 32) (fld w 6 32)) (zeros w [])
    | 3 => .word (.or h (fld w 16 32) (fld w 11 32) (fld w 6 32)) (zeros w [])
    | 4 => .word (.xor h (fld w 16 32) (fld w 11 32) (fld w 6 32)) (zeros w [])
    | 5 => .word (.shl h (fld w 16 32) (fld w 11 32) (fld w 6 32)) (zeros w [])
    | 6 => .word (.shr h (fld w 16 32) (fld w 11 32) (fld w 6 32)) (zeros w [])
    | 7 => .word (.sra h (fld w 16 32) (fld w 11 32) (fld w 6 32)) (zeros w [])
    | 8 => .word (.slt h (fld w 16 32) (fld w 11 32) (fld w 6 32)) (zeros w [])
    | 9 => .word (.sltu h (fld w 16 32) (fld w 11 32) (fld w 6 32)) (zeros w [])
    | 10 => .word (.min h (fld w 16 32) (fld w 11 32) (fld w 6 32)) (zeros w [])
    | 11 => .word (.max h (fld w 16 32) (fld w 11 32) (fld w 6 32)) (zeros w [])
    | 12 => .word (.minu h (fld w 16 32) (fld w 11 32) (fld w 6 32)) (zeros w [])
    | 13 => .word (.maxu h (fld w 16 32) (fld w 11 32) (fld w 6 32)) (zeros w [])
    | 16 => .word (.mul h (fld w 16 32) (fld w 11 32) (fld w 6 32)) (zeros w [])
    | 17 => .word (.mulh h (fld w 16 32) (fld w 11 32) (fld w 6 32)) (zeros w [])
    | 18 => .word (.mulhu h (fld w 16 32) (fld w 11 32) (fld w 6 32)) (zeros w [])
    | 20 => .word (.div h (fld w 16 32) (fld w 11 32) (fld w 6 32)) (zeros w [])
    | 21 => .word (.divu h (fld w 16 32) (fld w 11 32) (fld w 6 32)) (zeros w [])
    | 22 => .word (.rem h (fld w 16 32) (fld w 11 32) (fld w 6 32)) (zeros w [])
    | 23 => .word (.remu h (fld w 16 32) (fld w 11 32) (fld w 6 32)) (zeros w [])
    | 24 => .word (.clz h (fld w 16 32) (fld w 11 32)) (zeros w [(6, 32)])
    | 25 => .word (.popc h (fld w 16 32) (fld w 11 32)) (zeros w [(6, 32)])
    | _ => .bad [⟨0, false, none, 1⟩]
  | 2 => .word (.addi h (fld w 16 32) (fld w 11 32) (fld w 0 2048)) (zeros w [])
  | 3 => .word (.andi h (fld w 16 32) (fld w 11 32) (fld w 0 2048)) (zeros w [])
  | 4 => .word (.ori h (fld w 16 32) (fld w 11 32) (fld w 0 2048)) (zeros w [])
  | 5 => .word (.xori h (fld w 16 32) (fld w 11 32) (fld w 0 2048)) (zeros w [])
  | 6 => .word (.slti h (fld w 16 32) (fld w 11 32) (fld w 0 2048)) (zeros w [])
  | 7 => .word (.sltiu h (fld w 16 32) (fld w 11 32) (fld w 0 2048)) (zeros w [])
  | 8 => .word (.shli h (fld w 16 32) (fld w 11 32) (fld w 0 64)) (zeros w [(6, 32)])
  | 9 => .word (.shri h (fld w 16 32) (fld w 11 32) (fld w 0 64)) (zeros w [(6, 32)])
  | 10 => .word (.srai h (fld w 16 32) (fld w 11 32) (fld w 0 64)) (zeros w [(6, 32)])
  | 12 => .word (.movi h (fld w 16 32) (fld w 0 65536)) (zeros w [])
  | 13 => .word (.movk1 h (fld w 16 32) (fld w 0 65536)) (zeros w [])
  | 14 => .word (.movk2 h (fld w 16 32) (fld w 0 65536)) (zeros w [])
  | 15 => .word (.movk3 h (fld w 16 32) (fld w 0 65536)) (zeros w [])
  | 16 =>
    match w / 8192 % 8 with
    | 0 => .word (.beqz h (fld w 16 32) (fld w 0 8192)) (zeros w [])
    | 1 => .word (.bnez h (fld w 16 32) (fld w 0 8192)) (zeros w [])
    | 2 => .word (.bltz h (fld w 16 32) (fld w 0 8192)) (zeros w [])
    | 3 => .word (.bgez h (fld w 16 32) (fld w 0 8192)) (zeros w [])
    | 4 => .word (.blez h (fld w 16 32) (fld w 0 8192)) (zeros w [])
    | 5 => .word (.bgtz h (fld w 16 32) (fld w 0 8192)) (zeros w [])
    | 6 => .word (.br h (fld w 0 8192)) (zeros w [(16, 32)])
    | _ => .bad [⟨13, false, none, 1⟩]
  | 17 => .word (.j h (fld w 0 2097152)) (zeros w [])
  | 18 => .word (.jal h (fld w 0 2097152)) (zeros w [])
  | 19 => .word (.jr h (fld w 11 32)) (zeros w [(0, 64), (6, 32), (16, 32)])
  | 20 => .word (.jalr h (fld w 16 32) (fld w 11 32)) (zeros w [(0, 64), (6, 32)])
  | 21 => .word (.loop h (fld w 11 32) (fld w 0 1024)) (zeros w [(10, 2), (16, 32)])
  | 24 => .word (.cadd h (fld w 11 32) (fld w 6 32) (fld w 0 8)) (zeros w [(3, 8), (16, 32)])
  | 25 => .word (.cwait h (fld w 11 32) (fld w 6 32) (fld w 0 8)) (zeros w [(3, 8), (16, 32)])
  | 26 => .word (.bar h (fld w 11 32) (fld w 6 32) (fld w 0 8)) (zeros w [(3, 8), (16, 32)])
  | 27 => .word (.mfence h (fld w 16 32) (fld w 11 32) (fld w 0 32)) (zeros w [(5, 64)])
  | 28 =>
    match w % 2048 with
    | 49 => .word (.sprdDmdq h (fld w 16 32) (fld w 11 32)) (zeros w [])
    | _ => .word (.sprd h (fld w 16 32) (fld w 11 32) (fld w 0 2048)) (zeros w [])
  | 29 =>
    match w % 2048 with
    | 2 => .word (.spwrJoinmask h (fld w 11 32)) (zeros w [(16, 32)])
    | 4 => .word (.spwrSpsplit h (fld w 11 32)) (zeros w [(16, 32)])
    | 32 => .word (.spwrMprog h (fld w 11 32)) (zeros w [(16, 32)])
    | 48 => .word (.spwrDmsub h (fld w 11 32)) (zeros w [(16, 32)])
    | 70 => .word (.spwrTret h (fld w 11 32)) (zeros w [(16, 32)])
    | _ => .word (.spwr h (fld w 11 32) (fld w 0 2048)) (zeros w [(16, 32)])
  | 30 => .word (.halt h) (zeros w [(0, 2097152)])
  | 31 => .word (.swi h (fld w 0 2048)) (zeros w [(11, 32), (16, 32)])
  | _ => .reserved

/-- Strand Q's private map (R152, R158). -/
def decodeQ (h : Hdr) (w : Nat) : Decoded :=
  match w / 0x200000 % 64 with
  | 1 => .word (.start h (fld w 17 8) (fld w 0 32768)) (zeros w [(15, 4), (20, 2)])
  | 2 => .word (.nest h (fld w 16 32) (fld w 11 32) (fld w 6 32)) (zeros w [(0, 64)])
  | 3 => .word (.taskpush h (fld w 16 32) (fld w 11 32) (fld w 6 32)) (zeros w [(0, 64)])
  | 4 => .word (.taskpop h (fld w 16 32) (fld w 11 32)) (zeros w [(0, 64), (6, 32)])
  | 5 => .word (.yield h) (zeros w [(0, 2097152)])
  | 6 => .word (.canst h (fld w 16 32)) (zeros w [(0, 64), (6, 32), (11, 32)])
  | 8 => .word (.ssave h (fld w 16 32) (fld w 11 32)) (zeros w [(0, 64), (6, 32)])
  | 9 => .word (.srest h (fld w 16 32) (fld w 11 32)) (zeros w [(0, 64), (6, 32)])
  | 10 => .word (.gpwr h (fld w 11 32) (fld w 6 32)) (zeros w [(0, 64), (16, 32)])
  | 11 => .word (.gprd h (fld w 16 32) (fld w 11 32)) (zeros w [(0, 64), (6, 32)])
  | 12 => .word (.awlrun h (fld w 16 32) (fld w 11 32) (fld w 6 32)) (zeros w [(0, 64)])
  | 13 => .word (.ovl h (fld w 16 32) (fld w 11 32)) (zeros w [(0, 64), (6, 32)])
  | 16 => .word (.tlbinv h (fld w 11 32)) (zeros w [(0, 64), (6, 32), (16, 32)])
  | 17 => .word (.tlbinva h) (zeros w [(0, 64), (6, 32), (11, 32), (16, 32)])
  | 18 => .word (.cwb h (fld w 11 32) (fld w 6 32)) (zeros w [(0, 64), (16, 32)])
  | 19 => .word (.cinv h (fld w 11 32) (fld w 6 32)) (zeros w [(0, 64), (16, 32)])
  | 20 => .word (.fwcall h (fld w 16 32) (fld w 11 32) (fld w 6 32)) (zeros w [(0, 64)])
  | _ => .reserved

/-- Strand V's private map (R153, R159). -/
def decodeV (h : Hdr) (w : Nat) : Decoded :=
  match w / 0x200000 % 64 with
  | 1 => .word (.vfadd h (fld w 14 128) (fld w 7 128) (fld w 0 128)) (zeros w [])
  | 2 => .word (.vfsub h (fld w 14 128) (fld w 7 128) (fld w 0 128)) (zeros w [])
  | 3 => .word (.vfmul h (fld w 14 128) (fld w 7 128) (fld w 0 128)) (zeros w [])
  | 4 => .word (.vfma h (fld w 14 128) (fld w 7 128) (fld w 0 128)) (zeros w [])
  | 5 => .word (.vfmax h (fld w 14 128) (fld w 7 128) (fld w 0 128)) (zeros w [])
  | 6 => .word (.vfmin h (fld w 14 128) (fld w 7 128) (fld w 0 128)) (zeros w [])
  | 7 => .word (.vfceq h (fld w 14 128) (fld w 7 128) (fld w 0 128)) (zeros w [])
  | 8 => .word (.vfclt h (fld w 14 128) (fld w 7 128) (fld w 0 128)) (zeros w [])
  | 9 => .word (.vfcle h (fld w 14 128) (fld w 7 128) (fld w 0 128)) (zeros w [])
  | 10 => .word (.vbadd h (fld w 14 128) (fld w 7 128) (fld w 0 128)) (zeros w [])
  | 11 => .word (.vbsub h (fld w 14 128) (fld w 7 128) (fld w 0 128)) (zeros w [])
  | 12 => .word (.vbmul h (fld w 14 128) (fld w 7 128) (fld w 0 128)) (zeros w [])
  | 13 => .word (.vbfma h (fld w 14 128) (fld w 7 128) (fld w 0 128)) (zeros w [])
  | 16 => .word (.vadd h (fld w 14 128) (fld w 7 128) (fld w 0 128)) (zeros w [])
  | 17 => .word (.vsub h (fld w 14 128) (fld w 7 128) (fld w 0 128)) (zeros w [])
  | 18 => .word (.vmul h (fld w 14 128) (fld w 7 128) (fld w 0 128)) (zeros w [])
  | 19 => .word (.vand h (fld w 14 128) (fld w 7 128) (fld w 0 128)) (zeros w [])
  | 20 => .word (.vor h (fld w 14 128) (fld w 7 128) (fld w 0 128)) (zeros w [])
  | 21 => .word (.vxor h (fld w 14 128) (fld w 7 128) (fld w 0 128)) (zeros w [])
  | 22 => .word (.vshl h (fld w 14 128) (fld w 7 128) (fld w 0 128)) (zeros w [])
  | 23 => .word (.vshr h (fld w 14 128) (fld w 7 128) (fld w 0 128)) (zeros w [])
  | 24 => .word (.vsra h (fld w 14 128) (fld w 7 128) (fld w 0 128)) (zeros w [])
  | 25 => .word (.vmax h (fld w 14 128) (fld w 7 128) (fld w 0 128)) (zeros w [])
  | 26 => .word (.vmin h (fld w 14 128) (fld w 7 128) (fld w 0 128)) (zeros w [])
  | 27 => .word (.vceq h (fld w 14 128) (fld w 7 128) (fld w 0 128)) (zeros w [])
  | 28 => .word (.vclt h (fld w 14 128) (fld w 7 128) (fld w 0 128)) (zeros w [])
  | 29 => .word (.vsel h (fld w 14 128) (fld w 7 128) (fld w 0 128)) (zeros w [])
  | 30 => .word (.vshli h (fld w 14 128) (fld w 7 128) (fld w 0 32)) (zeros w [(5, 4)])
  | 31 => .word (.vmov h (fld w 14 128) (fld w 7 128)) (zeros w [(0, 128)])
  | 32 => .word (.vcvtfb h (fld w 14 128) (fld w 7 128) (fld w 0 128)) (zeros w [])
  | 33 => .word (.vcvtbf h (fld w 14 128) (fld w 7 128) (fld w 0 128)) (zeros w [])
  | 34 => .word (.vcvtfi h (fld w 14 128) (fld w 7 128) (fld w 0 128)) (zeros w [])
  | 35 => .word (.vcvtif h (fld w 14 128) (fld w 7 128) (fld w 0 128)) (zeros w [])
  | 36 => .word (.vcvtl8 h (fld w 14 128) (fld w 7 128) (fld w 0 128)) (zeros w [])
  | 37 => .word (.vcvtl6 h (fld w 14 128) (fld w 7 128) (fld w 0 128)) (zeros w [])
  | 38 => .word (.vxl8 h (fld w 14 128) (fld w 7 128) (fld w 0 128)) (zeros w [])
  | 39 => .word (.vxl6 h (fld w 14 128) (fld w 7 128) (fld w 0 128)) (zeros w [])
  | 40 => .word (.vexp2 h (fld w 14 128) (fld w 7 128)) (zeros w [(0, 128)])
  | 41 => .word (.vlog2 h (fld w 14 128) (fld w 7 128)) (zeros w [(0, 128)])
  | 42 => .word (.vrcp h (fld w 14 128) (fld w 7 128)) (zeros w [(0, 128)])
  | 43 => .word (.vrsq h (fld w 14 128) (fld w 7 128)) (zeros w [(0, 128)])
  | 44 => .word (.vredadd h (fld w 14 128) (fld w 7 128)) (zeros w [(0, 128)])
  | 45 => .word (.vredmax h (fld w 14 128) (fld w 7 128)) (zeros w [(0, 128)])
  | 46 => .word (.vredmin h (fld w 14 128) (fld w 7 128)) (zeros w [(0, 128)])
  | 47 => .word (.vrediadd h (fld w 14 128) (fld w 7 128)) (zeros w [(0, 128)])
  | 48 => .word (.vperm h (fld w 14 128) (fld w 7 128) (fld w 0 128)) (zeros w [])
  | 49 => .word (.vrot h (fld w 14 128) (fld w 7 128) (fld w 0 32)) (zeros w [(5, 4)])
  | 50 => .word (.vbcast h (fld w 14 128) (fld w 9 32)) (zeros w [(0, 16), (4, 32)])
  | 51 => .word (.vext h (fld w 14 128) (fld w 9 32) (fld w 4 32)) (zeros w [(0, 16)])
  | 52 => .word (.vimm h (fld w 14 128) (fld w 0 128)) (zeros w [(7, 128)])
  | 53 => .word (.vld h (fld w 14 128) (fld w 5 512) (fld w 0 32)) (zeros w [])
  | 54 => .word (.vst h (fld w 14 128) (fld w 5 512) (fld w 0 32)) (zeros w [])
  | 56 =>
    match w / 1024 % 4 with
    | 0 => .word (.mvaccRow h (fld w 14 128) (fld w 12 4) (fld w 7 8) (fld w 2 32)) (zeros w [(0, 4)])
    | 2 => .word (.mvaccCol h (fld w 14 128) (fld w 12 4) (fld w 7 8) (fld w 2 32)) (zeros w [(0, 4)])
    | 1 => .word (.mvaccRowPeek h (fld w 14 128) (fld w 12 4) (fld w 7 8) (fld w 2 32)) (zeros w [(0, 4)])
    | _ => .word (.mvaccColPeek h (fld w 14 128) (fld w 12 4) (fld w 7 8) (fld w 2 32)) (zeros w [(0, 4)])
  | _ => .reserved

/-- Strand M's private map (R154, R160). -/
def decodeM (h : Hdr) (w : Nat) : Decoded :=
  match w / 0x200000 % 64 with
  | 1 =>
    match w / 8192 % 2 with
    | 0 => .word (.wldL8Tile h (fld w 20 2) (fld w 4 512)) (zeros w [(0, 16), (14, 64)])
    | _ => .word (.wldL8Handle h (fld w 20 2) (fld w 8 32)) (zeros w [(0, 16), (4, 16), (14, 64)])
  | 2 =>
    match w / 8192 % 2 with
    | 0 => .word (.wldL6Tile h (fld w 20 2) (fld w 4 512)) (zeros w [(0, 16), (14, 64)])
    | _ => .word (.wldL6Handle h (fld w 20 2) (fld w 8 32)) (zeros w [(0, 16), (4, 16), (14, 64)])
  | 3 =>
    match w / 8192 % 2 with
    | 0 => .word (.wldBf16Tile h (fld w 20 2) (fld w 4 512)) (zeros w [(0, 16), (14, 64)])
    | _ => .word (.wldBf16Handle h (fld w 20 2) (fld w 8 32)) (zeros w [(0, 16), (4, 16), (14, 64)])
  | 4 =>
    match w / 8192 % 2 with
    | 0 => .word (.wldI8Tile h (fld w 20 2) (fld w 4 512)) (zeros w [(0, 16), (14, 64)])
    | _ => .word (.wldI8Handle h (fld w 20 2) (fld w 8 32)) (zeros w [(0, 16), (4, 16), (14, 64)])
  | 8 =>
    match w / 8192 % 2 with
    | 0 => .word (.mmaL8Tile h (fld w 19 4) (fld w 18 2) (fld w 15 8) (fld w 14 2) (fld w 4 512)) (zeros w [(0, 16)])
    | _ => .word (.mmaL8Handle h (fld w 19 4) (fld w 18 2) (fld w 15 8) (fld w 14 2) (fld w 8 32)) (zeros w [(0, 16), (4, 16)])
  | 9 =>
    match w / 8192 % 2 with
    | 0 => .word (.mmaL6Tile h (fld w 19 4) (fld w 18 2) (fld w 15 8) (fld w 14 2) (fld w 4 512)) (zeros w [(0, 16)])
    | _ => .word (.mmaL6Handle h (fld w 19 4) (fld w 18 2) (fld w 15 8) (fld w 14 2) (fld w 8 32)) (zeros w [(0, 16), (4, 16)])
  | 10 =>
    match w / 8192 % 2 with
    | 0 => .word (.mmaBf16Tile h (fld w 19 4) (fld w 18 2) (fld w 15 8) (fld w 14 2) (fld w 4 512)) (zeros w [(0, 16)])
    | _ => .word (.mmaBf16Handle h (fld w 19 4) (fld w 18 2) (fld w 15 8) (fld w 14 2) (fld w 8 32)) (zeros w [(0, 16), (4, 16)])
  | 11 =>
    match w / 8192 % 2 with
    | 0 => .word (.mmaI8Tile h (fld w 19 4) (fld w 18 2) (fld w 15 8) (fld w 14 2) (fld w 4 512)) (zeros w [(0, 16)])
    | _ => .word (.mmaI8Handle h (fld w 19 4) (fld w 18 2) (fld w 15 8) (fld w 14 2) (fld w 8 32)) (zeros w [(0, 16), (4, 16)])
  | 16 => .word (.mdrain h (fld w 19 4) (fld w 15 8) (fld w 6 512) (fld w 1 32)) (zeros w [(0, 2), (18, 2)])
  | 17 => .word (.mzero h (fld w 16 4)) (zeros w [(0, 64), (6, 32), (11, 32), (18, 8)])
  | 18 => .word (.mkld h (fld w 18 8) (fld w 9 512) (fld w 4 32)) (zeros w [(0, 16)])
  | 19 => .word (.mkrng h (fld w 16 8) (fld w 11 32) (fld w 6 32)) (zeros w [(0, 64), (19, 4)])
  | 20 => .word (.mkall h (fld w 16 8)) (zeros w [(0, 64), (6, 32), (11, 32), (19, 4)])
  | 21 => .word (.mpbld h (fld w 11 32)) (zeros w [(0, 64), (6, 32), (16, 32)])
  | 22 => .word (.lutld h (fld w 11 32)) (zeros w [(0, 64), (6, 32), (16, 32)])
  | 23 => .word (.mwait h (fld w 16 4)) (zeros w [(0, 64), (6, 32), (11, 32), (18, 8)])
  | 24 => .word (.trgo h (fld w 11 32)) (zeros w [(0, 64), (6, 32), (16, 32)])
  | 25 => .word (.trstop h) (zeros w [(0, 64), (6, 32), (11, 32), (16, 32)])
  | 26 => .word (.trwait h) (zeros w [(0, 64), (6, 32), (11, 32), (16, 32)])
  | _ => .reserved

/-- Strand L's private map (R155, R161). -/
def decodeL (h : Hdr) (w : Nat) : Decoded :=
  match w / 0x200000 % 64 with
  | 1 => .word (.ld h (fld w 16 32) (fld w 11 32) (fld w 6 32) (fld w 4 4) (fld w 3 2)) (zeros w [(0, 8)])
  | 2 => .word (.st h (fld w 16 32) (fld w 11 32) (fld w 6 32) (fld w 4 4)) (zeros w [(0, 8), (3, 2)])
  | 3 => .word (.pf h (fld w 11 32) (fld w 6 32) (fld w 4 4)) (zeros w [(0, 8), (3, 2), (16, 32)])
  | 8 => .word (.amoAdd h (fld w 16 32) (fld w 11 32) (fld w 6 32) (fld w 1 32) (fld w 0 2)) (zeros w [])
  | 9 => .word (.amoAnd h (fld w 16 32) (fld w 11 32) (fld w 6 32) (fld w 1 32) (fld w 0 2)) (zeros w [])
  | 10 => .word (.amoOr h (fld w 16 32) (fld w 11 32) (fld w 6 32) (fld w 1 32) (fld w 0 2)) (zeros w [])
  | 11 => .word (.amoXor h (fld w 16 32) (fld w 11 32) (fld w 6 32) (fld w 1 32) (fld w 0 2)) (zeros w [])
  | 12 => .word (.amoMax h (fld w 16 32) (fld w 11 32) (fld w 6 32) (fld w 1 32) (fld w 0 2)) (zeros w [])
  | 13 => .word (.amoMin h (fld w 16 32) (fld w 11 32) (fld w 6 32) (fld w 1 32) (fld w 0 2)) (zeros w [])
  | 14 => .word (.amoSwap h (fld w 16 32) (fld w 11 32) (fld w 6 32) (fld w 1 32) (fld w 0 2)) (zeros w [])
  | 15 => .word (.amoCas h (fld w 16 32) (fld w 11 32) (fld w 6 32) (fld w 1 32) (fld w 0 2)) (zeros w [])
  | 16 => .word (.redAdd h (fld w 11 32) (fld w 6 32) (fld w 1 32) (fld w 0 2)) (zeros w [(16, 32)])
  | 17 => .word (.redMax h (fld w 11 32) (fld w 6 32) (fld w 1 32) (fld w 0 2)) (zeros w [(16, 32)])
  | 18 => .word (.redMin h (fld w 11 32) (fld w 6 32) (fld w 1 32) (fld w 0 2)) (zeros w [(16, 32)])
  | 20 => .word (.talloc h (fld w 7 512) (fld w 0 32)) (zeros w [(5, 4), (16, 32)])
  | 21 => .word (.tseal h (fld w 7 512)) (zeros w [(0, 128), (16, 32)])
  | 22 => .word (.twait h (fld w 7 512)) (zeros w [(0, 128), (16, 32)])
  | 23 => .word (.tstat h (fld w 16 32) (fld w 7 512)) (zeros w [(0, 128)])
  | 24 => .word (.tdrop h (fld w 7 512)) (zeros w [(0, 128), (16, 32)])
  | 32 => .word (.wcpIn h (fld w 16 32) (fld w 11 32) (fld w 6 32) (fld w 1 32)) (zeros w [(0, 2)])
  | 33 => .word (.wcpOut h (fld w 16 32) (fld w 11 32) (fld w 6 32) (fld w 1 32)) (zeros w [(0, 2)])
  | 34 => .word (.wcpRt h (fld w 16 32) (fld w 11 32) (fld w 6 32) (fld w 1 32)) (zeros w [(0, 2)])
  | 35 => .word (.wcpGg h (fld w 16 32) (fld w 11 32) (fld w 6 32) (fld w 1 32)) (zeros w [(0, 2)])
  | 36 => .word (.wcpCond h (fld w 16 32) (fld w 11 32) (fld w 6 32) (fld w 1 32)) (zeros w [(0, 2)])
  | 37 => .word (.wcpMm h (fld w 16 32) (fld w 11 32) (fld w 6 32) (fld w 1 32)) (zeros w [(0, 2)])
  | 39 => .word (.coll h (fld w 16 32) (fld w 11 32) (fld w 6 32) (fld w 1 32)) (zeros w [(0, 2)])
  | 40 => .word (.kvapp h (fld w 16 32) (fld w 11 32) (fld w 6 32) (fld w 1 32)) (zeros w [(0, 2)])
  | 41 => .word (.kvqry h (fld w 16 32) (fld w 11 32) (fld w 6 32) (fld w 1 32)) (zeros w [(0, 2)])
  | 42 => .word (.kvfork h (fld w 16 32) (fld w 11 32) (fld w 1 32)) (zeros w [(0, 2), (6, 32)])
  | 43 => .word (.kvcan h (fld w 16 32) (fld w 11 32) (fld w 1 32)) (zeros w [(0, 2), (6, 32)])
  | 44 => .word (.kvmig h (fld w 16 32) (fld w 11 32) (fld w 1 32)) (zeros w [(0, 2), (6, 32)])
  | 45 => .word (.kvrel h (fld w 16 32) (fld w 11 32) (fld w 1 32)) (zeros w [(0, 2), (6, 32)])
  | _ => .reserved

/-- The Awl's map (R303, R304). -/
def decodeAwl (w : Nat) : Decoded :=
  match w / 0x4000000 % 64 with
  | 1 => .word (.awlAdd (fld w 22 16) (fld w 18 16) (fld w 14 16)) (zeros w [(0, 16384)])
  | 2 => .word (.awlSub (fld w 22 16) (fld w 18 16) (fld w 14 16)) (zeros w [(0, 16384)])
  | 3 => .word (.awlAnd (fld w 22 16) (fld w 18 16) (fld w 14 16)) (zeros w [(0, 16384)])
  | 4 => .word (.awlShr (fld w 22 16) (fld w 18 16) (fld w 14 16)) (zeros w [(0, 16384)])
  | 5 => .word (.awlSlt (fld w 22 16) (fld w 18 16) (fld w 14 16)) (zeros w [(0, 16384)])
  | 6 => .word (.awlAddi (fld w 22 16) (fld w 18 16) (fld w 0 16384)) (zeros w [])
  | 7 => .word (.awlWli (fld w 22 16) (fld w 0 262144)) (zeros w [(18, 16)])
  | 8 => .word (.awlFadd (fld w 22 16) (fld w 18 16) (fld w 14 16)) (zeros w [(0, 16384)])
  | 9 => .word (.awlFmul (fld w 22 16) (fld w 18 16) (fld w 14 16)) (zeros w [(0, 16384)])
  | 10 => .word (.awlFmax (fld w 22 16) (fld w 18 16) (fld w 14 16)) (zeros w [(0, 16384)])
  | 11 => .word (.awlFrcp (fld w 22 16) (fld w 18 16)) (zeros w [(0, 16384), (14, 16)])
  | 12 => .word (.awlFexp2 (fld w 22 16) (fld w 18 16)) (zeros w [(0, 16384), (14, 16)])
  | 13 => .word (.awlFlog2 (fld w 22 16) (fld w 18 16)) (zeros w [(0, 16384), (14, 16)])
  | 14 => .word (.awlFcvt (fld w 22 16) (fld w 18 16)) (zeros w [(0, 16384), (14, 16)])
  | 15 => .word (.awlFint (fld w 22 16) (fld w 18 16)) (zeros w [(0, 16384), (14, 16)])
  | 16 => .word (.awlFbits (fld w 22 16) (fld w 18 16)) (zeros w [(0, 16384), (14, 16)])
  | 17 => .word (.awlWbits (fld w 22 16) (fld w 18 16)) (zeros w [(0, 16384), (14, 16)])
  | 18 => .word (.awlLw (fld w 22 16) (fld w 18 16) (fld w 0 16384)) (zeros w [])
  | 19 => .word (.awlSw (fld w 22 16) (fld w 18 16) (fld w 0 16384)) (zeros w [])
  | 24 => .word (.awlBeq (fld w 22 16) (fld w 18 16) (fld w 0 16384)) (zeros w [(14, 16)])
  | 25 => .word (.awlBne (fld w 22 16) (fld w 18 16) (fld w 0 16384)) (zeros w [(14, 16)])
  | 26 => .word (.awlBlt (fld w 22 16) (fld w 18 16) (fld w 0 16384)) (zeros w [(14, 16)])
  | 27 => .word (.awlJmp (fld w 0 67108864)) (zeros w [])
  | 28 => .word .awlStop (zeros w [(0, 16384), (14, 16), (18, 16), (22, 16)])
  | 32 => .word (.awlCld (fld w 18 16) (fld w 14 16)) (zeros w [(0, 16384), (22, 16)])
  | 33 => .word (.awlCpen (fld w 22 16) (fld w 18 16) (fld w 14 16)) (zeros w [(0, 16384)])
  | 34 => .word (.awlCtopk (fld w 18 16)) (zeros w [(0, 16384), (14, 16), (22, 16)])
  | 35 => .word (.awlCpick (fld w 22 16) (fld w 18 16) (fld w 14 16)) (zeros w [(0, 16384)])
  | 36 => .word (.awlCget (fld w 22 16) (fld w 18 16) (fld w 14 16)) (zeros w [(0, 16384)])
  | 37 => .word (.awlRdraw (fld w 22 16) (fld w 18 16)) (zeros w [(0, 16384), (14, 16)])
  | 38 => .word (.awlPadd (fld w 22 16) (fld w 18 16) (fld w 14 16)) (zeros w [(0, 16384)])
  | 39 => .word (.awlTok (fld w 18 16) (fld w 14 16)) (zeros w [(0, 16384), (22, 16)])
  | 40 => .word (.awlDnode (fld w 22 16) (fld w 18 16) (fld w 14 16)) (zeros w [(0, 16384)])
  | 41 => .word (.awlDbest (fld w 22 16) (fld w 18 16) (fld w 14 16)) (zeros w [(0, 16384)])
  | 42 => .word (.awlDcommit (fld w 22 16) (fld w 18 16)) (zeros w [(0, 16384), (14, 16)])
  | _ => .reserved

/-- The word of a 32-bit pattern under a map: bit 31 selects the shared or the private half (R141, R142). -/
def decode (m : IMap) (w : Nat) : Decoded :=
  match m with
  | .awl => decodeAwl w
  | .strand k =>
    if w / 0x80000000 % 2 = 0 then decodeShared (hdrOf w) w
    else match k with
      | .q => decodeQ (hdrOf w) w
      | .v => decodeV (hdrOf w) w
      | .m => decodeM (hdrOf w) w
      | .l => decodeL (hdrOf w) w

/-- The instruction of a word that has no offence in its format, if it is one. -/
def Decoded.instr? : Decoded → Option Instr
  | .word i [] => some i
  | _ => none

/-- The maps of a word with no strand named, tried in this order: the strand maps V, L, M, Q (each reads the shared half
alike) and the Awl's map last (log 8). -/
def decodeAny (w : Nat) : Option Instr :=
  ((((decode (.strand .v) w).instr?.or (decode (.strand .l) w).instr?).or (decode (.strand .m) w).instr?).or
    (decode (.strand .q) w).instr?).or (decode .awl w).instr?

/-- The four little-endian bytes of an instruction word (R1, R141). -/
def wordBytes (w : Nat) : List Byte :=
  [BitVec.ofNat 8 w, BitVec.ofNat 8 (w / 2 ^ 8), BitVec.ofNat 8 (w / 2 ^ 16), BitVec.ofNat 8 (w / 2 ^ 24)]

/-- The word that bytes in ascending order hold (R1). -/
def ofBytes : List Byte → Nat
  | [] => 0
  | b :: r => b.toNat + 2 ^ 8 * ofBytes r

/-- The decoder on an instruction of the table, its bits numbered from the least significant bit of its one word. -/
def decodeTableWord (nbits w : Nat) : Option Instr := decodeAny (ofBytes (wordBytes (w % 2 ^ nbits)))

/-- Bits S and WC in place (R141). -/
def hdr (h : Hdr) : Nat := 1073741824 * h.s.val + 134217728 * h.wc.val

/-- Which map holds an instruction's word: the shared half, one strand's private half, the Awl's, or none (an event). -/
inductive Home where
  | shared
  | only (k : StrandId)
  | awl
  | event
  deriving DecidableEq, Repr

/-- The home of each instruction (R142, R156 to R161, R304). -/
def home : Instr → Home
  | .powerGood => .event
  | .flashImageVerificationEnd _ _ => .event
  | .bdoorGo => .event
  | .hostImageVerificationEnd _ => .event
  | .stagingWindowWrite _ _ => .event
  | .readPowerLimit => .event
  | .setPowerLimit => .event
  | .counterReset _ => .event
  | .sizeKvPools => .event
  | .clearFenceList => .event
  | .setModuleNumber => .event
  | .undefinedFirmwareFunction => .event
  | .functionReady _ => .event
  | .operatingPointChange _ _ _ _ _ => .event
  | .dieReaches95c _ _ _ => .event
  | .dieReaches110c _ => .event
  | .bootMailboxGo _ => .event
  | .imageLoadEnd _ => .event
  | .launchEnd _ => .event
  | .nestIterationDispatch _ => .event
  | .iterationEnd _ => .event
  | .rendezvousDeadlock _ => .event
  | .rsvopTrap _ => .event
  | .irangeTrap => .event
  | .engineTrap _ => .event
  | .fixedLatencyWrite _ => .event
  | .coreFreezeEnd _ _ _ _ => .event
  | .variableLatencyResult _ _ _ => .event
  | .demandDelivery _ _ => .event
  | .remoteWaitAnswer _ _ _ => .event
  | .remoteWaitResend _ _ _ => .event
  | .counterAddArrival _ => .event
  | .tableWalkEnd _ _ => .event
  | .loadRetirement _ _ _ => .event
  | .leaseRenewal _ => .event
  | .arrival _ => .event
  | .arrivalRetry _ => .event
  | .arrivalWaitRecord _ => .event
  | .redAtHome _ _ => .event
  | .lineEviction _ => .event
  | .writeBackArrival _ => .event
  | .writeBackResend _ => .event
  | .atomicAtHome _ _ => .event
  | .podAtomicAtHome _ => .event
  | .space2AccessAtTarget _ => .event
  | .podAccessAtTarget _ => .event
  | .postedAccessFailure _ _ _ => .event
  | .overlayLoadEnd _ => .event
  | .weightLoadStart _ _ => .event
  | .weightLoadEnd _ _ => .event
  | .multiplyStart _ _ => .event
  | .multiplyRowComplete _ _ _ => .event
  | .multiplyRetire _ _ => .event
  | .mzeroRetire _ _ => .event
  | .drainStart _ _ => .event
  | .drainLineWrite _ _ => .event
  | .drainEnd _ _ => .event
  | .tableInstall _ _ => .event
  | .operandLineTimeout _ _ _ => .event
  | .treadleRunStart _ _ => .event
  | .treadleBeat _ => .event
  | .treadleRunEnd _ => .event
  | .followOnEntry _ _ => .event
  | .weltLine _ _ _ => .event
  | .weltCommandComplete _ _ => .event
  | .conditionalCopyCommit _ _ => .event
  | .collectiveCompare _ _ => .event
  | .collectiveComplete _ _ _ => .event
  | .contextEntryArrival _ => .event
  | .contextEntryResend _ => .event
  | .noteComplete _ _ => .event
  | .appendExecute _ _ => .event
  | .queryExecute _ _ => .event
  | .queryExecutionEnd _ _ => .event
  | .forkExecute _ _ => .event
  | .relabelExecute _ _ => .event
  | .migrateExecute _ _ => .event
  | .cancelArrivalTdie _ _ => .event
  | .contextCommandCompletion _ => .event
  | .cinchMerge _ => .event
  | .contextHoldTimeout _ _ => .event
  | .tableFullHoldTimeout _ _ => .event
  | .writeHoldTimeout _ => .event
  | .activationWave _ => .event
  | .awlRunStart _ _ => .event
  | .awlAdmit _ _ => .event
  | .awlRetire _ _ => .event
  | .awlProgramWordWrite _ _ _ => .event
  | .awlctlWrite _ _ => .event
  | .gctlGo => .event
  | .grecWrite _ => .event
  | .graphNodeDispatch => .event
  | .graphNodeRedispatch => .event
  | .graphReplayEnd _ => .event
  | .graphWaitRecord => .event
  | .preemptionRequest _ _ => .event
  | .preemptionService _ => .event
  | .saveEnd _ => .event
  | .iterationResume _ => .event
  | .restoreEnd _ => .event
  | .cancelArrivalKdie _ _ => .event
  | .cancelCoreStop _ => .event
  | .cancelEffectsDone _ _ => .event
  | .messageForward _ => .event
  | .podForward _ => .event
  | .flitReceive _ _ _ _ => .event
  | .flitReplay _ _ => .event
  | .flitRefusalResend _ _ _ => .event
  | .linkLossOfLock _ _ => .event
  | .retrainAttemptEnd _ _ _ => .event
  | .opticalRetrainAttemptEnd _ _ _ => .event
  | .fabricRequestWithdrawal _ _ => .event
  | .expanderAckTimeout _ => .event
  | .expanderFenceTimeout _ => .event
  | .hostTlpReceive _ _ _ => .event
  | .hostMemoryAccess _ => .event
  | .hostLinkDown _ => .event
  | .hostLinkReturn _ _ => .event
  | .patrolScrub _ => .event
  | .telemetryFlush => .event
  | .thermalSample _ => .event
  | .orderlyPowerDown => .event
  | .logtailWrite _ _ => .event
  | .gdefWrite _ _ => .event
  | .registerWrite _ _ => .event
  | .singleFault _ => .event
  | .lossOfSupply => .event
  | .activeBankLimitRaise _ _ => .event
  | .reductionTreeShapeChange _ _ _ => .event
  | .add _ _ _ _ => .shared
  | .sub _ _ _ _ => .shared
  | .and _ _ _ _ => .shared
  | .or _ _ _ _ => .shared
  | .xor _ _ _ _ => .shared
  | .shl _ _ _ _ => .shared
  | .shr _ _ _ _ => .shared
  | .sra _ _ _ _ => .shared
  | .slt _ _ _ _ => .shared
  | .sltu _ _ _ _ => .shared
  | .min _ _ _ _ => .shared
  | .max _ _ _ _ => .shared
  | .minu _ _ _ _ => .shared
  | .maxu _ _ _ _ => .shared
  | .mul _ _ _ _ => .shared
  | .mulh _ _ _ _ => .shared
  | .mulhu _ _ _ _ => .shared
  | .div _ _ _ _ => .shared
  | .divu _ _ _ _ => .shared
  | .rem _ _ _ _ => .shared
  | .remu _ _ _ _ => .shared
  | .clz _ _ _ => .shared
  | .popc _ _ _ => .shared
  | .addi _ _ _ _ => .shared
  | .andi _ _ _ _ => .shared
  | .ori _ _ _ _ => .shared
  | .xori _ _ _ _ => .shared
  | .slti _ _ _ _ => .shared
  | .sltiu _ _ _ _ => .shared
  | .shli _ _ _ _ => .shared
  | .shri _ _ _ _ => .shared
  | .srai _ _ _ _ => .shared
  | .movi _ _ _ => .shared
  | .movk1 _ _ _ => .shared
  | .movk2 _ _ _ => .shared
  | .movk3 _ _ _ => .shared
  | .beqz _ _ _ => .shared
  | .bnez _ _ _ => .shared
  | .bltz _ _ _ => .shared
  | .bgez _ _ _ => .shared
  | .blez _ _ _ => .shared
  | .bgtz _ _ _ => .shared
  | .br _ _ => .shared
  | .j _ _ => .shared
  | .jal _ _ => .shared
  | .jr _ _ => .shared
  | .jalr _ _ _ => .shared
  | .loop _ _ _ => .shared
  | .cadd _ _ _ _ => .shared
  | .cwait _ _ _ _ => .shared
  | .bar _ _ _ _ => .shared
  | .mfence _ _ _ _ => .shared
  | .sprd _ _ _ _ => .shared
  | .sprdDmdq _ _ _ => .shared
  | .spwr _ _ _ => .shared
  | .spwrJoinmask _ _ => .shared
  | .spwrSpsplit _ _ => .shared
  | .spwrMprog _ _ => .shared
  | .spwrDmsub _ _ => .shared
  | .spwrTret _ _ => .shared
  | .halt _ => .shared
  | .swi _ _ => .shared
  | .start _ _ _ => .only .q
  | .nest _ _ _ _ => .only .q
  | .taskpush _ _ _ _ => .only .q
  | .taskpop _ _ _ => .only .q
  | .yield _ => .only .q
  | .canst _ _ => .only .q
  | .ssave _ _ _ => .only .q
  | .srest _ _ _ => .only .q
  | .gpwr _ _ _ => .only .q
  | .gprd _ _ _ => .only .q
  | .awlrun _ _ _ _ => .only .q
  | .ovl _ _ _ => .only .q
  | .tlbinv _ _ => .only .q
  | .tlbinva _ => .only .q
  | .cwb _ _ _ => .only .q
  | .cinv _ _ _ => .only .q
  | .fwcall _ _ _ _ => .only .q
  | .vfadd _ _ _ _ => .only .v
  | .vfsub _ _ _ _ => .only .v
  | .vfmul _ _ _ _ => .only .v
  | .vfma _ _ _ _ => .only .v
  | .vfmax _ _ _ _ => .only .v
  | .vfmin _ _ _ _ => .only .v
  | .vfceq _ _ _ _ => .only .v
  | .vfclt _ _ _ _ => .only .v
  | .vfcle _ _ _ _ => .only .v
  | .vbadd _ _ _ _ => .only .v
  | .vbsub _ _ _ _ => .only .v
  | .vbmul _ _ _ _ => .only .v
  | .vbfma _ _ _ _ => .only .v
  | .vadd _ _ _ _ => .only .v
  | .vsub _ _ _ _ => .only .v
  | .vmul _ _ _ _ => .only .v
  | .vand _ _ _ _ => .only .v
  | .vor _ _ _ _ => .only .v
  | .vxor _ _ _ _ => .only .v
  | .vshl _ _ _ _ => .only .v
  | .vshr _ _ _ _ => .only .v
  | .vsra _ _ _ _ => .only .v
  | .vmax _ _ _ _ => .only .v
  | .vmin _ _ _ _ => .only .v
  | .vceq _ _ _ _ => .only .v
  | .vclt _ _ _ _ => .only .v
  | .vsel _ _ _ _ => .only .v
  | .vshli _ _ _ _ => .only .v
  | .vmov _ _ _ => .only .v
  | .vcvtfb _ _ _ _ => .only .v
  | .vcvtbf _ _ _ _ => .only .v
  | .vcvtfi _ _ _ _ => .only .v
  | .vcvtif _ _ _ _ => .only .v
  | .vcvtl8 _ _ _ _ => .only .v
  | .vcvtl6 _ _ _ _ => .only .v
  | .vxl8 _ _ _ _ => .only .v
  | .vxl6 _ _ _ _ => .only .v
  | .vexp2 _ _ _ => .only .v
  | .vlog2 _ _ _ => .only .v
  | .vrcp _ _ _ => .only .v
  | .vrsq _ _ _ => .only .v
  | .vredadd _ _ _ => .only .v
  | .vredmax _ _ _ => .only .v
  | .vredmin _ _ _ => .only .v
  | .vrediadd _ _ _ => .only .v
  | .vperm _ _ _ _ => .only .v
  | .vrot _ _ _ _ => .only .v
  | .vbcast _ _ _ => .only .v
  | .vext _ _ _ _ => .only .v
  | .vimm _ _ _ => .only .v
  | .vld _ _ _ _ => .only .v
  | .vst _ _ _ _ => .only .v
  | .mvaccRow _ _ _ _ _ => .only .v
  | .mvaccCol _ _ _ _ _ => .only .v
  | .mvaccRowPeek _ _ _ _ _ => .only .v
  | .mvaccColPeek _ _ _ _ _ => .only .v
  | .wldL8Tile _ _ _ => .only .m
  | .wldL8Handle _ _ _ => .only .m
  | .wldL6Tile _ _ _ => .only .m
  | .wldL6Handle _ _ _ => .only .m
  | .wldBf16Tile _ _ _ => .only .m
  | .wldBf16Handle _ _ _ => .only .m
  | .wldI8Tile _ _ _ => .only .m
  | .wldI8Handle _ _ _ => .only .m
  | .mmaL8Tile _ _ _ _ _ _ => .only .m
  | .mmaL8Handle _ _ _ _ _ _ => .only .m
  | .mmaL6Tile _ _ _ _ _ _ => .only .m
  | .mmaL6Handle _ _ _ _ _ _ => .only .m
  | .mmaBf16Tile _ _ _ _ _ _ => .only .m
  | .mmaBf16Handle _ _ _ _ _ _ => .only .m
  | .mmaI8Tile _ _ _ _ _ _ => .only .m
  | .mmaI8Handle _ _ _ _ _ _ => .only .m
  | .mdrain _ _ _ _ _ => .only .m
  | .mzero _ _ => .only .m
  | .mkld _ _ _ _ => .only .m
  | .mkrng _ _ _ _ => .only .m
  | .mkall _ _ => .only .m
  | .mpbld _ _ => .only .m
  | .lutld _ _ => .only .m
  | .mwait _ _ => .only .m
  | .trgo _ _ => .only .m
  | .trstop _ => .only .m
  | .trwait _ => .only .m
  | .ld _ _ _ _ _ _ => .only .l
  | .st _ _ _ _ _ => .only .l
  | .pf _ _ _ _ => .only .l
  | .amoAdd _ _ _ _ _ _ => .only .l
  | .amoAnd _ _ _ _ _ _ => .only .l
  | .amoOr _ _ _ _ _ _ => .only .l
  | .amoXor _ _ _ _ _ _ => .only .l
  | .amoMax _ _ _ _ _ _ => .only .l
  | .amoMin _ _ _ _ _ _ => .only .l
  | .amoSwap _ _ _ _ _ _ => .only .l
  | .amoCas _ _ _ _ _ _ => .only .l
  | .redAdd _ _ _ _ _ => .only .l
  | .redMax _ _ _ _ _ => .only .l
  | .redMin _ _ _ _ _ => .only .l
  | .talloc _ _ _ => .only .l
  | .tseal _ _ => .only .l
  | .twait _ _ => .only .l
  | .tstat _ _ _ => .only .l
  | .tdrop _ _ => .only .l
  | .wcpIn _ _ _ _ _ => .only .l
  | .wcpOut _ _ _ _ _ => .only .l
  | .wcpRt _ _ _ _ _ => .only .l
  | .wcpGg _ _ _ _ _ => .only .l
  | .wcpCond _ _ _ _ _ => .only .l
  | .wcpMm _ _ _ _ _ => .only .l
  | .coll _ _ _ _ _ => .only .l
  | .kvapp _ _ _ _ _ => .only .l
  | .kvqry _ _ _ _ _ => .only .l
  | .kvfork _ _ _ _ => .only .l
  | .kvcan _ _ _ _ => .only .l
  | .kvmig _ _ _ _ => .only .l
  | .kvrel _ _ _ _ => .only .l
  | .awlAdd _ _ _ => .awl
  | .awlSub _ _ _ => .awl
  | .awlAnd _ _ _ => .awl
  | .awlShr _ _ _ => .awl
  | .awlSlt _ _ _ => .awl
  | .awlAddi _ _ _ => .awl
  | .awlWli _ _ => .awl
  | .awlFadd _ _ _ => .awl
  | .awlFmul _ _ _ => .awl
  | .awlFmax _ _ _ => .awl
  | .awlFrcp _ _ => .awl
  | .awlFexp2 _ _ => .awl
  | .awlFlog2 _ _ => .awl
  | .awlFcvt _ _ => .awl
  | .awlFint _ _ => .awl
  | .awlFbits _ _ => .awl
  | .awlWbits _ _ => .awl
  | .awlLw _ _ _ => .awl
  | .awlSw _ _ _ => .awl
  | .awlBeq _ _ _ => .awl
  | .awlBne _ _ _ => .awl
  | .awlBlt _ _ _ => .awl
  | .awlJmp _ => .awl
  | .awlStop => .awl
  | .awlCld _ _ => .awl
  | .awlCpen _ _ _ => .awl
  | .awlCtopk _ => .awl
  | .awlCpick _ _ _ => .awl
  | .awlCget _ _ _ => .awl
  | .awlRdraw _ _ => .awl
  | .awlPadd _ _ _ => .awl
  | .awlTok _ _ => .awl
  | .awlDnode _ _ _ => .awl
  | .awlDbest _ _ _ => .awl
  | .awlDcommit _ _ => .awl

/-- The word of an instruction (R141 to R161, R303, R304); an event has none and gives 0. -/
def encode : Instr → Nat
  | .powerGood => 0
  | .flashImageVerificationEnd _ _ => 0
  | .bdoorGo => 0
  | .hostImageVerificationEnd _ => 0
  | .stagingWindowWrite _ _ => 0
  | .readPowerLimit => 0
  | .setPowerLimit => 0
  | .counterReset _ => 0
  | .sizeKvPools => 0
  | .clearFenceList => 0
  | .setModuleNumber => 0
  | .undefinedFirmwareFunction => 0
  | .functionReady _ => 0
  | .operatingPointChange _ _ _ _ _ => 0
  | .dieReaches95c _ _ _ => 0
  | .dieReaches110c _ => 0
  | .bootMailboxGo _ => 0
  | .imageLoadEnd _ => 0
  | .launchEnd _ => 0
  | .nestIterationDispatch _ => 0
  | .iterationEnd _ => 0
  | .rendezvousDeadlock _ => 0
  | .rsvopTrap _ => 0
  | .irangeTrap => 0
  | .engineTrap _ => 0
  | .fixedLatencyWrite _ => 0
  | .coreFreezeEnd _ _ _ _ => 0
  | .variableLatencyResult _ _ _ => 0
  | .demandDelivery _ _ => 0
  | .remoteWaitAnswer _ _ _ => 0
  | .remoteWaitResend _ _ _ => 0
  | .counterAddArrival _ => 0
  | .tableWalkEnd _ _ => 0
  | .loadRetirement _ _ _ => 0
  | .leaseRenewal _ => 0
  | .arrival _ => 0
  | .arrivalRetry _ => 0
  | .arrivalWaitRecord _ => 0
  | .redAtHome _ _ => 0
  | .lineEviction _ => 0
  | .writeBackArrival _ => 0
  | .writeBackResend _ => 0
  | .atomicAtHome _ _ => 0
  | .podAtomicAtHome _ => 0
  | .space2AccessAtTarget _ => 0
  | .podAccessAtTarget _ => 0
  | .postedAccessFailure _ _ _ => 0
  | .overlayLoadEnd _ => 0
  | .weightLoadStart _ _ => 0
  | .weightLoadEnd _ _ => 0
  | .multiplyStart _ _ => 0
  | .multiplyRowComplete _ _ _ => 0
  | .multiplyRetire _ _ => 0
  | .mzeroRetire _ _ => 0
  | .drainStart _ _ => 0
  | .drainLineWrite _ _ => 0
  | .drainEnd _ _ => 0
  | .tableInstall _ _ => 0
  | .operandLineTimeout _ _ _ => 0
  | .treadleRunStart _ _ => 0
  | .treadleBeat _ => 0
  | .treadleRunEnd _ => 0
  | .followOnEntry _ _ => 0
  | .weltLine _ _ _ => 0
  | .weltCommandComplete _ _ => 0
  | .conditionalCopyCommit _ _ => 0
  | .collectiveCompare _ _ => 0
  | .collectiveComplete _ _ _ => 0
  | .contextEntryArrival _ => 0
  | .contextEntryResend _ => 0
  | .noteComplete _ _ => 0
  | .appendExecute _ _ => 0
  | .queryExecute _ _ => 0
  | .queryExecutionEnd _ _ => 0
  | .forkExecute _ _ => 0
  | .relabelExecute _ _ => 0
  | .migrateExecute _ _ => 0
  | .cancelArrivalTdie _ _ => 0
  | .contextCommandCompletion _ => 0
  | .cinchMerge _ => 0
  | .contextHoldTimeout _ _ => 0
  | .tableFullHoldTimeout _ _ => 0
  | .writeHoldTimeout _ => 0
  | .activationWave _ => 0
  | .awlRunStart _ _ => 0
  | .awlAdmit _ _ => 0
  | .awlRetire _ _ => 0
  | .awlProgramWordWrite _ _ _ => 0
  | .awlctlWrite _ _ => 0
  | .gctlGo => 0
  | .grecWrite _ => 0
  | .graphNodeDispatch => 0
  | .graphNodeRedispatch => 0
  | .graphReplayEnd _ => 0
  | .graphWaitRecord => 0
  | .preemptionRequest _ _ => 0
  | .preemptionService _ => 0
  | .saveEnd _ => 0
  | .iterationResume _ => 0
  | .restoreEnd _ => 0
  | .cancelArrivalKdie _ _ => 0
  | .cancelCoreStop _ => 0
  | .cancelEffectsDone _ _ => 0
  | .messageForward _ => 0
  | .podForward _ => 0
  | .flitReceive _ _ _ _ => 0
  | .flitReplay _ _ => 0
  | .flitRefusalResend _ _ _ => 0
  | .linkLossOfLock _ _ => 0
  | .retrainAttemptEnd _ _ _ => 0
  | .opticalRetrainAttemptEnd _ _ _ => 0
  | .fabricRequestWithdrawal _ _ => 0
  | .expanderAckTimeout _ => 0
  | .expanderFenceTimeout _ => 0
  | .hostTlpReceive _ _ _ => 0
  | .hostMemoryAccess _ => 0
  | .hostLinkDown _ => 0
  | .hostLinkReturn _ _ => 0
  | .patrolScrub _ => 0
  | .telemetryFlush => 0
  | .thermalSample _ => 0
  | .orderlyPowerDown => 0
  | .logtailWrite _ _ => 0
  | .gdefWrite _ _ => 0
  | .registerWrite _ _ => 0
  | .singleFault _ => 0
  | .lossOfSupply => 0
  | .activeBankLimitRaise _ _ => 0
  | .reductionTreeShapeChange _ _ _ => 0
  | .add h d a b => 0x00200000 + hdr h + 65536 * d.val + 2048 * a.val + 64 * b.val
  | .sub h d a b => 0x00200001 + hdr h + 65536 * d.val + 2048 * a.val + 64 * b.val
  | .and h d a b => 0x00200002 + hdr h + 65536 * d.val + 2048 * a.val + 64 * b.val
  | .or h d a b => 0x00200003 + hdr h + 65536 * d.val + 2048 * a.val + 64 * b.val
  | .xor h d a b => 0x00200004 + hdr h + 65536 * d.val + 2048 * a.val + 64 * b.val
  | .shl h d a b => 0x00200005 + hdr h + 65536 * d.val + 2048 * a.val + 64 * b.val
  | .shr h d a b => 0x00200006 + hdr h + 65536 * d.val + 2048 * a.val + 64 * b.val
  | .sra h d a b => 0x00200007 + hdr h + 65536 * d.val + 2048 * a.val + 64 * b.val
  | .slt h d a b => 0x00200008 + hdr h + 65536 * d.val + 2048 * a.val + 64 * b.val
  | .sltu h d a b => 0x00200009 + hdr h + 65536 * d.val + 2048 * a.val + 64 * b.val
  | .min h d a b => 0x0020000A + hdr h + 65536 * d.val + 2048 * a.val + 64 * b.val
  | .max h d a b => 0x0020000B + hdr h + 65536 * d.val + 2048 * a.val + 64 * b.val
  | .minu h d a b => 0x0020000C + hdr h + 65536 * d.val + 2048 * a.val + 64 * b.val
  | .maxu h d a b => 0x0020000D + hdr h + 65536 * d.val + 2048 * a.val + 64 * b.val
  | .mul h d a b => 0x00200010 + hdr h + 65536 * d.val + 2048 * a.val + 64 * b.val
  | .mulh h d a b => 0x00200011 + hdr h + 65536 * d.val + 2048 * a.val + 64 * b.val
  | .mulhu h d a b => 0x00200012 + hdr h + 65536 * d.val + 2048 * a.val + 64 * b.val
  | .div h d a b => 0x00200014 + hdr h + 65536 * d.val + 2048 * a.val + 64 * b.val
  | .divu h d a b => 0x00200015 + hdr h + 65536 * d.val + 2048 * a.val + 64 * b.val
  | .rem h d a b => 0x00200016 + hdr h + 65536 * d.val + 2048 * a.val + 64 * b.val
  | .remu h d a b => 0x00200017 + hdr h + 65536 * d.val + 2048 * a.val + 64 * b.val
  | .clz h d a => 0x00200018 + hdr h + 65536 * d.val + 2048 * a.val
  | .popc h d a => 0x00200019 + hdr h + 65536 * d.val + 2048 * a.val
  | .addi h d a i => 0x00400000 + hdr h + 65536 * d.val + 2048 * a.val + i.val
  | .andi h d a i => 0x00600000 + hdr h + 65536 * d.val + 2048 * a.val + i.val
  | .ori h d a i => 0x00800000 + hdr h + 65536 * d.val + 2048 * a.val + i.val
  | .xori h d a i => 0x00A00000 + hdr h + 65536 * d.val + 2048 * a.val + i.val
  | .slti h d a i => 0x00C00000 + hdr h + 65536 * d.val + 2048 * a.val + i.val
  | .sltiu h d a i => 0x00E00000 + hdr h + 65536 * d.val + 2048 * a.val + i.val
  | .shli h d a i => 0x01000000 + hdr h + 65536 * d.val + 2048 * a.val + i.val
  | .shri h d a i => 0x01200000 + hdr h + 65536 * d.val + 2048 * a.val + i.val
  | .srai h d a i => 0x01400000 + hdr h + 65536 * d.val + 2048 * a.val + i.val
  | .movi h d i => 0x01800000 + hdr h + 65536 * d.val + i.val
  | .movk1 h d i => 0x01A00000 + hdr h + 65536 * d.val + i.val
  | .movk2 h d i => 0x01C00000 + hdr h + 65536 * d.val + i.val
  | .movk3 h d i => 0x01E00000 + hdr h + 65536 * d.val + i.val
  | .beqz h a o => 0x02000000 + hdr h + 65536 * a.val + o.val
  | .bnez h a o => 0x02002000 + hdr h + 65536 * a.val + o.val
  | .bltz h a o => 0x02004000 + hdr h + 65536 * a.val + o.val
  | .bgez h a o => 0x02006000 + hdr h + 65536 * a.val + o.val
  | .blez h a o => 0x02008000 + hdr h + 65536 * a.val + o.val
  | .bgtz h a o => 0x0200A000 + hdr h + 65536 * a.val + o.val
  | .br h o => 0x0200C000 + hdr h + o.val
  | .j h o => 0x02200000 + hdr h + o.val
  | .jal h o => 0x02400000 + hdr h + o.val
  | .jr h a => 0x02600000 + hdr h + 2048 * a.val
  | .jalr h d a => 0x02800000 + hdr h + 65536 * d.val + 2048 * a.val
  | .loop h a i => 0x02A00000 + hdr h + 2048 * a.val + i.val
  | .cadd h a b c => 0x03000000 + hdr h + 2048 * a.val + 64 * b.val + c.val
  | .cwait h a b c => 0x03200000 + hdr h + 2048 * a.val + 64 * b.val + c.val
  | .bar h a b c => 0x03400000 + hdr h + 2048 * a.val + 64 * b.val + c.val
  | .mfence h d a m => 0x03600000 + hdr h + 65536 * d.val + 2048 * a.val + m.val
  | .sprd h d a n => 0x03800000 + hdr h + 65536 * d.val + 2048 * a.val + n.val
  | .sprdDmdq h d a => 0x03800031 + hdr h + 65536 * d.val + 2048 * a.val
  | .spwr h a n => 0x03A00000 + hdr h + 2048 * a.val + n.val
  | .spwrJoinmask h a => 0x03A00002 + hdr h + 2048 * a.val
  | .spwrSpsplit h a => 0x03A00004 + hdr h + 2048 * a.val
  | .spwrMprog h a => 0x03A00020 + hdr h + 2048 * a.val
  | .spwrDmsub h a => 0x03A00030 + hdr h + 2048 * a.val
  | .spwrTret h a => 0x03A00046 + hdr h + 2048 * a.val
  | .halt h => 0x03C00000 + hdr h
  | .swi h i => 0x03E00000 + hdr h + i.val
  | .start h t e => 0x80200000 + hdr h + 131072 * t.val + e.val
  | .nest h d a b => 0x80400000 + hdr h + 65536 * d.val + 2048 * a.val + 64 * b.val
  | .taskpush h d a b => 0x80600000 + hdr h + 65536 * d.val + 2048 * a.val + 64 * b.val
  | .taskpop h d a => 0x80800000 + hdr h + 65536 * d.val + 2048 * a.val
  | .yield h => 0x80A00000 + hdr h
  | .canst h d => 0x80C00000 + hdr h + 65536 * d.val
  | .ssave h d a => 0x81000000 + hdr h + 65536 * d.val + 2048 * a.val
  | .srest h d a => 0x81200000 + hdr h + 65536 * d.val + 2048 * a.val
  | .gpwr h a b => 0x81400000 + hdr h + 2048 * a.val + 64 * b.val
  | .gprd h d a => 0x81600000 + hdr h + 65536 * d.val + 2048 * a.val
  | .awlrun h d a b => 0x81800000 + hdr h + 65536 * d.val + 2048 * a.val + 64 * b.val
  | .ovl h d a => 0x81A00000 + hdr h + 65536 * d.val + 2048 * a.val
  | .tlbinv h a => 0x82000000 + hdr h + 2048 * a.val
  | .tlbinva h => 0x82200000 + hdr h
  | .cwb h a b => 0x82400000 + hdr h + 2048 * a.val + 64 * b.val
  | .cinv h a b => 0x82600000 + hdr h + 2048 * a.val + 64 * b.val
  | .fwcall h d a b => 0x82800000 + hdr h + 65536 * d.val + 2048 * a.val + 64 * b.val
  | .vfadd h d a b => 0x80200000 + hdr h + 16384 * d.val + 128 * a.val + b.val
  | .vfsub h d a b => 0x80400000 + hdr h + 16384 * d.val + 128 * a.val + b.val
  | .vfmul h d a b => 0x80600000 + hdr h + 16384 * d.val + 128 * a.val + b.val
  | .vfma h d a b => 0x80800000 + hdr h + 16384 * d.val + 128 * a.val + b.val
  | .vfmax h d a b => 0x80A00000 + hdr h + 16384 * d.val + 128 * a.val + b.val
  | .vfmin h d a b => 0x80C00000 + hdr h + 16384 * d.val + 128 * a.val + b.val
  | .vfceq h d a b => 0x80E00000 + hdr h + 16384 * d.val + 128 * a.val + b.val
  | .vfclt h d a b => 0x81000000 + hdr h + 16384 * d.val + 128 * a.val + b.val
  | .vfcle h d a b => 0x81200000 + hdr h + 16384 * d.val + 128 * a.val + b.val
  | .vbadd h d a b => 0x81400000 + hdr h + 16384 * d.val + 128 * a.val + b.val
  | .vbsub h d a b => 0x81600000 + hdr h + 16384 * d.val + 128 * a.val + b.val
  | .vbmul h d a b => 0x81800000 + hdr h + 16384 * d.val + 128 * a.val + b.val
  | .vbfma h d a b => 0x81A00000 + hdr h + 16384 * d.val + 128 * a.val + b.val
  | .vadd h d a b => 0x82000000 + hdr h + 16384 * d.val + 128 * a.val + b.val
  | .vsub h d a b => 0x82200000 + hdr h + 16384 * d.val + 128 * a.val + b.val
  | .vmul h d a b => 0x82400000 + hdr h + 16384 * d.val + 128 * a.val + b.val
  | .vand h d a b => 0x82600000 + hdr h + 16384 * d.val + 128 * a.val + b.val
  | .vor h d a b => 0x82800000 + hdr h + 16384 * d.val + 128 * a.val + b.val
  | .vxor h d a b => 0x82A00000 + hdr h + 16384 * d.val + 128 * a.val + b.val
  | .vshl h d a b => 0x82C00000 + hdr h + 16384 * d.val + 128 * a.val + b.val
  | .vshr h d a b => 0x82E00000 + hdr h + 16384 * d.val + 128 * a.val + b.val
  | .vsra h d a b => 0x83000000 + hdr h + 16384 * d.val + 128 * a.val + b.val
  | .vmax h d a b => 0x83200000 + hdr h + 16384 * d.val + 128 * a.val + b.val
  | .vmin h d a b => 0x83400000 + hdr h + 16384 * d.val + 128 * a.val + b.val
  | .vceq h d a b => 0x83600000 + hdr h + 16384 * d.val + 128 * a.val + b.val
  | .vclt h d a b => 0x83800000 + hdr h + 16384 * d.val + 128 * a.val + b.val
  | .vsel h d a b => 0x83A00000 + hdr h + 16384 * d.val + 128 * a.val + b.val
  | .vshli h d a i => 0x83C00000 + hdr h + 16384 * d.val + 128 * a.val + i.val
  | .vmov h d a => 0x83E00000 + hdr h + 16384 * d.val + 128 * a.val
  | .vcvtfb h d a b => 0x84000000 + hdr h + 16384 * d.val + 128 * a.val + b.val
  | .vcvtbf h d a b => 0x84200000 + hdr h + 16384 * d.val + 128 * a.val + b.val
  | .vcvtfi h d a b => 0x84400000 + hdr h + 16384 * d.val + 128 * a.val + b.val
  | .vcvtif h d a b => 0x84600000 + hdr h + 16384 * d.val + 128 * a.val + b.val
  | .vcvtl8 h d a b => 0x84800000 + hdr h + 16384 * d.val + 128 * a.val + b.val
  | .vcvtl6 h d a b => 0x84A00000 + hdr h + 16384 * d.val + 128 * a.val + b.val
  | .vxl8 h d a b => 0x84C00000 + hdr h + 16384 * d.val + 128 * a.val + b.val
  | .vxl6 h d a b => 0x84E00000 + hdr h + 16384 * d.val + 128 * a.val + b.val
  | .vexp2 h d a => 0x85000000 + hdr h + 16384 * d.val + 128 * a.val
  | .vlog2 h d a => 0x85200000 + hdr h + 16384 * d.val + 128 * a.val
  | .vrcp h d a => 0x85400000 + hdr h + 16384 * d.val + 128 * a.val
  | .vrsq h d a => 0x85600000 + hdr h + 16384 * d.val + 128 * a.val
  | .vredadd h d a => 0x85800000 + hdr h + 16384 * d.val + 128 * a.val
  | .vredmax h d a => 0x85A00000 + hdr h + 16384 * d.val + 128 * a.val
  | .vredmin h d a => 0x85C00000 + hdr h + 16384 * d.val + 128 * a.val
  | .vrediadd h d a => 0x85E00000 + hdr h + 16384 * d.val + 128 * a.val
  | .vperm h d a b => 0x86000000 + hdr h + 16384 * d.val + 128 * a.val + b.val
  | .vrot h d a i => 0x86200000 + hdr h + 16384 * d.val + 128 * a.val + i.val
  | .vbcast h d r => 0x86400000 + hdr h + 16384 * d.val + 512 * r.val
  | .vext h v r l => 0x86600000 + hdr h + 16384 * v.val + 512 * r.val + 16 * l.val
  | .vimm h d i => 0x86800000 + hdr h + 16384 * d.val + i.val
  | .vld h v t l => 0x86A00000 + hdr h + 16384 * v.val + 32 * t.val + l.val
  | .vst h v t l => 0x86C00000 + hdr h + 16384 * v.val + 32 * t.val + l.val
  | .mvaccRow h d c g x => 0x87000000 + hdr h + 16384 * d.val + 4096 * c.val + 128 * g.val + 4 * x.val
  | .mvaccCol h d c g x => 0x87000800 + hdr h + 16384 * d.val + 4096 * c.val + 128 * g.val + 4 * x.val
  | .mvaccRowPeek h d c g x => 0x87000400 + hdr h + 16384 * d.val + 4096 * c.val + 128 * g.val + 4 * x.val
  | .mvaccColPeek h d c g x => 0x87000C00 + hdr h + 16384 * d.val + 4096 * c.val + 128 * g.val + 4 * x.val
  | .wldL8Tile h p t => 0x80200000 + hdr h + 1048576 * p.val + 16 * t.val
  | .wldL8Handle h p a => 0x80202000 + hdr h + 1048576 * p.val + 256 * a.val
  | .wldL6Tile h p t => 0x80400000 + hdr h + 1048576 * p.val + 16 * t.val
  | .wldL6Handle h p a => 0x80402000 + hdr h + 1048576 * p.val + 256 * a.val
  | .wldBf16Tile h p t => 0x80600000 + hdr h + 1048576 * p.val + 16 * t.val
  | .wldBf16Handle h p a => 0x80602000 + hdr h + 1048576 * p.val + 256 * a.val
  | .wldI8Tile h p t => 0x80800000 + hdr h + 1048576 * p.val + 16 * t.val
  | .wldI8Handle h p a => 0x80802000 + hdr h + 1048576 * p.val + 256 * a.val
  | .mmaL8Tile h c p k z t => 0x81000000 + hdr h + 524288 * c.val + 262144 * p.val + 32768 * k.val + 16384 * z.val + 16 * t.val
  | .mmaL8Handle h c p k z a => 0x81002000 + hdr h + 524288 * c.val + 262144 * p.val + 32768 * k.val + 16384 * z.val + 256 * a.val
  | .mmaL6Tile h c p k z t => 0x81200000 + hdr h + 524288 * c.val + 262144 * p.val + 32768 * k.val + 16384 * z.val + 16 * t.val
  | .mmaL6Handle h c p k z a => 0x81202000 + hdr h + 524288 * c.val + 262144 * p.val + 32768 * k.val + 16384 * z.val + 256 * a.val
  | .mmaBf16Tile h c p k z t => 0x81400000 + hdr h + 524288 * c.val + 262144 * p.val + 32768 * k.val + 16384 * z.val + 16 * t.val
  | .mmaBf16Handle h c p k z a => 0x81402000 + hdr h + 524288 * c.val + 262144 * p.val + 32768 * k.val + 16384 * z.val + 256 * a.val
  | .mmaI8Tile h c p k z t => 0x81600000 + hdr h + 524288 * c.val + 262144 * p.val + 32768 * k.val + 16384 * z.val + 16 * t.val
  | .mmaI8Handle h c p k z a => 0x81602000 + hdr h + 524288 * c.val + 262144 * p.val + 32768 * k.val + 16384 * z.val + 256 * a.val
  | .mdrain h c k t a => 0x82000000 + hdr h + 524288 * c.val + 32768 * k.val + 64 * t.val + 2 * a.val
  | .mzero h c => 0x82200000 + hdr h + 65536 * c.val
  | .mkld h k t l => 0x82400000 + hdr h + 262144 * k.val + 512 * t.val + 16 * l.val
  | .mkrng h k a b => 0x82600000 + hdr h + 65536 * k.val + 2048 * a.val + 64 * b.val
  | .mkall h k => 0x82800000 + hdr h + 65536 * k.val
  | .mpbld h a => 0x82A00000 + hdr h + 2048 * a.val
  | .lutld h a => 0x82C00000 + hdr h + 2048 * a.val
  | .mwait h c => 0x82E00000 + hdr h + 65536 * c.val
  | .trgo h a => 0x83000000 + hdr h + 2048 * a.val
  | .trstop h => 0x83200000 + hdr h
  | .trwait h => 0x83400000 + hdr h
  | .ld h d a p n x => 0x80200000 + hdr h + 65536 * d.val + 2048 * a.val + 64 * p.val + 16 * n.val + 8 * x.val
  | .st h d a p n => 0x80400000 + hdr h + 65536 * d.val + 2048 * a.val + 64 * p.val + 16 * n.val
  | .pf h a p n => 0x80600000 + hdr h + 2048 * a.val + 64 * p.val + 16 * n.val
  | .amoAdd h d a b p z => 0x81000000 + hdr h + 65536 * d.val + 2048 * a.val + 64 * b.val + 2 * p.val + z.val
  | .amoAnd h d a b p z => 0x81200000 + hdr h + 65536 * d.val + 2048 * a.val + 64 * b.val + 2 * p.val + z.val
  | .amoOr h d a b p z => 0x81400000 + hdr h + 65536 * d.val + 2048 * a.val + 64 * b.val + 2 * p.val + z.val
  | .amoXor h d a b p z => 0x81600000 + hdr h + 65536 * d.val + 2048 * a.val + 64 * b.val + 2 * p.val + z.val
  | .amoMax h d a b p z => 0x81800000 + hdr h + 65536 * d.val + 2048 * a.val + 64 * b.val + 2 * p.val + z.val
  | .amoMin h d a b p z => 0x81A00000 + hdr h + 65536 * d.val + 2048 * a.val + 64 * b.val + 2 * p.val + z.val
  | .amoSwap h d a b p z => 0x81C00000 + hdr h + 65536 * d.val + 2048 * a.val + 64 * b.val + 2 * p.val + z.val
  | .amoCas h d a b p z => 0x81E00000 + hdr h + 65536 * d.val + 2048 * a.val + 64 * b.val + 2 * p.val + z.val
  | .redAdd h a b p z => 0x82000000 + hdr h + 2048 * a.val + 64 * b.val + 2 * p.val + z.val
  | .redMax h a b p z => 0x82200000 + hdr h + 2048 * a.val + 64 * b.val + 2 * p.val + z.val
  | .redMin h a b p z => 0x82400000 + hdr h + 2048 * a.val + 64 * b.val + 2 * p.val + z.val
  | .talloc h t c => 0x82800000 + hdr h + 128 * t.val + c.val
  | .tseal h t => 0x82A00000 + hdr h + 128 * t.val
  | .twait h t => 0x82C00000 + hdr h + 128 * t.val
  | .tstat h d t => 0x82E00000 + hdr h + 65536 * d.val + 128 * t.val
  | .tdrop h t => 0x83000000 + hdr h + 128 * t.val
  | .wcpIn h a b c k => 0x84000000 + hdr h + 65536 * a.val + 2048 * b.val + 64 * c.val + 2 * k.val
  | .wcpOut h a b c k => 0x84200000 + hdr h + 65536 * a.val + 2048 * b.val + 64 * c.val + 2 * k.val
  | .wcpRt h a b c k => 0x84400000 + hdr h + 65536 * a.val + 2048 * b.val + 64 * c.val + 2 * k.val
  | .wcpGg h a b c k => 0x84600000 + hdr h + 65536 * a.val + 2048 * b.val + 64 * c.val + 2 * k.val
  | .wcpCond h a b c k => 0x84800000 + hdr h + 65536 * a.val + 2048 * b.val + 64 * c.val + 2 * k.val
  | .wcpMm h a b c k => 0x84A00000 + hdr h + 65536 * a.val + 2048 * b.val + 64 * c.val + 2 * k.val
  | .coll h a b c k => 0x84E00000 + hdr h + 65536 * a.val + 2048 * b.val + 64 * c.val + 2 * k.val
  | .kvapp h a b c k => 0x85000000 + hdr h + 65536 * a.val + 2048 * b.val + 64 * c.val + 2 * k.val
  | .kvqry h a b c k => 0x85200000 + hdr h + 65536 * a.val + 2048 * b.val + 64 * c.val + 2 * k.val
  | .kvfork h a b k => 0x85400000 + hdr h + 65536 * a.val + 2048 * b.val + 2 * k.val
  | .kvcan h a b k => 0x85600000 + hdr h + 65536 * a.val + 2048 * b.val + 2 * k.val
  | .kvmig h a b k => 0x85800000 + hdr h + 65536 * a.val + 2048 * b.val + 2 * k.val
  | .kvrel h a b k => 0x85A00000 + hdr h + 65536 * a.val + 2048 * b.val + 2 * k.val
  | .awlAdd d a b => 0x04000000 + 4194304 * d.val + 262144 * a.val + 16384 * b.val
  | .awlSub d a b => 0x08000000 + 4194304 * d.val + 262144 * a.val + 16384 * b.val
  | .awlAnd d a b => 0x0C000000 + 4194304 * d.val + 262144 * a.val + 16384 * b.val
  | .awlShr d a b => 0x10000000 + 4194304 * d.val + 262144 * a.val + 16384 * b.val
  | .awlSlt d a b => 0x14000000 + 4194304 * d.val + 262144 * a.val + 16384 * b.val
  | .awlAddi d a i => 0x18000000 + 4194304 * d.val + 262144 * a.val + i.val
  | .awlWli d i => 0x1C000000 + 4194304 * d.val + i.val
  | .awlFadd d a b => 0x20000000 + 4194304 * d.val + 262144 * a.val + 16384 * b.val
  | .awlFmul d a b => 0x24000000 + 4194304 * d.val + 262144 * a.val + 16384 * b.val
  | .awlFmax d a b => 0x28000000 + 4194304 * d.val + 262144 * a.val + 16384 * b.val
  | .awlFrcp d a => 0x2C000000 + 4194304 * d.val + 262144 * a.val
  | .awlFexp2 d a => 0x30000000 + 4194304 * d.val + 262144 * a.val
  | .awlFlog2 d a => 0x34000000 + 4194304 * d.val + 262144 * a.val
  | .awlFcvt d a => 0x38000000 + 4194304 * d.val + 262144 * a.val
  | .awlFint d a => 0x3C000000 + 4194304 * d.val + 262144 * a.val
  | .awlFbits d a => 0x40000000 + 4194304 * d.val + 262144 * a.val
  | .awlWbits d a => 0x44000000 + 4194304 * d.val + 262144 * a.val
  | .awlLw d a i => 0x48000000 + 4194304 * d.val + 262144 * a.val + i.val
  | .awlSw d a i => 0x4C000000 + 4194304 * d.val + 262144 * a.val + i.val
  | .awlBeq a b o => 0x60000000 + 4194304 * a.val + 262144 * b.val + o.val
  | .awlBne a b o => 0x64000000 + 4194304 * a.val + 262144 * b.val + o.val
  | .awlBlt a b o => 0x68000000 + 4194304 * a.val + 262144 * b.val + o.val
  | .awlJmp o => 0x6C000000 + o.val
  | .awlStop => 0x70000000
  | .awlCld a b => 0x80000000 + 262144 * a.val + 16384 * b.val
  | .awlCpen d a b => 0x84000000 + 4194304 * d.val + 262144 * a.val + 16384 * b.val
  | .awlCtopk a => 0x88000000 + 262144 * a.val
  | .awlCpick d a b => 0x8C000000 + 4194304 * d.val + 262144 * a.val + 16384 * b.val
  | .awlCget d a b => 0x90000000 + 4194304 * d.val + 262144 * a.val + 16384 * b.val
  | .awlRdraw d a => 0x94000000 + 4194304 * d.val + 262144 * a.val
  | .awlPadd d a b => 0x98000000 + 4194304 * d.val + 262144 * a.val + 16384 * b.val
  | .awlTok a b => 0x9C000000 + 262144 * a.val + 16384 * b.val
  | .awlDnode d a b => 0xA0000000 + 4194304 * d.val + 262144 * a.val + 16384 * b.val
  | .awlDbest d a b => 0xA4000000 + 4194304 * d.val + 262144 * a.val + 16384 * b.val
  | .awlDcommit d a => 0xA8000000 + 4194304 * d.val + 262144 * a.val

/-- One offence of the word's bits, if the condition holds. -/
def rng (c : Prop) [Decidable c] (bit reason : Nat) : List Offence := if c then [⟨bit, false, none, reason⟩] else []

/-- A special-register number that neither R68 nor R382 lists. -/
abbrev reservedSpr (n : Nat) : Prop :=
  ¬ (n ≤ 4 ∨ n = 8 ∨ n = 9 ∨ n = 0x10 ∨ n = 0x11 ∨ n = 0x12 ∨ (0x20 ≤ n ∧ n ≤ 0x24) ∨ n = 0x30 ∨ n = 0x31 ∨
    (0x40 ≤ n ∧ n ≤ 0x47))

/-- An xd of `taskpop` that R187 does not allow and that is no queue alias. -/
abbrev badPopReg (d : Nat) : Prop := d = 0 ∨ d % 2 = 1

/-- A reserved V source code (R57, R390). -/
def vsrc (c bit : Nat) : List Offence := rng (c < 32 ∧ 9 ≤ c) bit 1

/-- A V destination code that R57 does not allow: a reserved code, or `lat`. -/
def vdst (c bit : Nat) : List Offence := vsrc c bit ++ rng (c = 8) bit 4

/-- The offences that an instruction's own fields show, whatever the strand, the split and the state (R143, R384, R391). -/
def wordFaults : Instr → List Offence
  | .powerGood => []
  | .flashImageVerificationEnd _ _ => []
  | .bdoorGo => []
  | .hostImageVerificationEnd _ => []
  | .stagingWindowWrite _ _ => []
  | .readPowerLimit => []
  | .setPowerLimit => []
  | .counterReset _ => []
  | .sizeKvPools => []
  | .clearFenceList => []
  | .setModuleNumber => []
  | .undefinedFirmwareFunction => []
  | .functionReady _ => []
  | .operatingPointChange _ _ _ _ _ => []
  | .dieReaches95c _ _ _ => []
  | .dieReaches110c _ => []
  | .bootMailboxGo _ => []
  | .imageLoadEnd _ => []
  | .launchEnd _ => []
  | .nestIterationDispatch _ => []
  | .iterationEnd _ => []
  | .rendezvousDeadlock _ => []
  | .rsvopTrap _ => []
  | .irangeTrap => []
  | .engineTrap _ => []
  | .fixedLatencyWrite _ => []
  | .coreFreezeEnd _ _ _ _ => []
  | .variableLatencyResult _ _ _ => []
  | .demandDelivery _ _ => []
  | .remoteWaitAnswer _ _ _ => []
  | .remoteWaitResend _ _ _ => []
  | .counterAddArrival _ => []
  | .tableWalkEnd _ _ => []
  | .loadRetirement _ _ _ => []
  | .leaseRenewal _ => []
  | .arrival _ => []
  | .arrivalRetry _ => []
  | .arrivalWaitRecord _ => []
  | .redAtHome _ _ => []
  | .lineEviction _ => []
  | .writeBackArrival _ => []
  | .writeBackResend _ => []
  | .atomicAtHome _ _ => []
  | .podAtomicAtHome _ => []
  | .space2AccessAtTarget _ => []
  | .podAccessAtTarget _ => []
  | .postedAccessFailure _ _ _ => []
  | .overlayLoadEnd _ => []
  | .weightLoadStart _ _ => []
  | .weightLoadEnd _ _ => []
  | .multiplyStart _ _ => []
  | .multiplyRowComplete _ _ _ => []
  | .multiplyRetire _ _ => []
  | .mzeroRetire _ _ => []
  | .drainStart _ _ => []
  | .drainLineWrite _ _ => []
  | .drainEnd _ _ => []
  | .tableInstall _ _ => []
  | .operandLineTimeout _ _ _ => []
  | .treadleRunStart _ _ => []
  | .treadleBeat _ => []
  | .treadleRunEnd _ => []
  | .followOnEntry _ _ => []
  | .weltLine _ _ _ => []
  | .weltCommandComplete _ _ => []
  | .conditionalCopyCommit _ _ => []
  | .collectiveCompare _ _ => []
  | .collectiveComplete _ _ _ => []
  | .contextEntryArrival _ => []
  | .contextEntryResend _ => []
  | .noteComplete _ _ => []
  | .appendExecute _ _ => []
  | .queryExecute _ _ => []
  | .queryExecutionEnd _ _ => []
  | .forkExecute _ _ => []
  | .relabelExecute _ _ => []
  | .migrateExecute _ _ => []
  | .cancelArrivalTdie _ _ => []
  | .contextCommandCompletion _ => []
  | .cinchMerge _ => []
  | .contextHoldTimeout _ _ => []
  | .tableFullHoldTimeout _ _ => []
  | .writeHoldTimeout _ => []
  | .activationWave _ => []
  | .awlRunStart _ _ => []
  | .awlAdmit _ _ => []
  | .awlRetire _ _ => []
  | .awlProgramWordWrite _ _ _ => []
  | .awlctlWrite _ _ => []
  | .gctlGo => []
  | .grecWrite _ => []
  | .graphNodeDispatch => []
  | .graphNodeRedispatch => []
  | .graphReplayEnd _ => []
  | .graphWaitRecord => []
  | .preemptionRequest _ _ => []
  | .preemptionService _ => []
  | .saveEnd _ => []
  | .iterationResume _ => []
  | .restoreEnd _ => []
  | .cancelArrivalKdie _ _ => []
  | .cancelCoreStop _ => []
  | .cancelEffectsDone _ _ => []
  | .messageForward _ => []
  | .podForward _ => []
  | .flitReceive _ _ _ _ => []
  | .flitReplay _ _ => []
  | .flitRefusalResend _ _ _ => []
  | .linkLossOfLock _ _ => []
  | .retrainAttemptEnd _ _ _ => []
  | .opticalRetrainAttemptEnd _ _ _ => []
  | .fabricRequestWithdrawal _ _ => []
  | .expanderAckTimeout _ => []
  | .expanderFenceTimeout _ => []
  | .hostTlpReceive _ _ _ => []
  | .hostMemoryAccess _ => []
  | .hostLinkDown _ => []
  | .hostLinkReturn _ _ => []
  | .patrolScrub _ => []
  | .telemetryFlush => []
  | .thermalSample _ => []
  | .orderlyPowerDown => []
  | .logtailWrite _ _ => []
  | .gdefWrite _ _ => []
  | .registerWrite _ _ => []
  | .singleFault _ => []
  | .lossOfSupply => []
  | .activeBankLimitRaise _ _ => []
  | .reductionTreeShapeChange _ _ _ => []
  | .add _ _ _ _ => []
  | .sub _ _ _ _ => []
  | .and _ _ _ _ => []
  | .or _ _ _ _ => []
  | .xor _ _ _ _ => []
  | .shl _ _ _ _ => []
  | .shr _ _ _ _ => []
  | .sra _ _ _ _ => []
  | .slt _ _ _ _ => []
  | .sltu _ _ _ _ => []
  | .min _ _ _ _ => []
  | .max _ _ _ _ => []
  | .minu _ _ _ _ => []
  | .maxu _ _ _ _ => []
  | .mul _ _ _ _ => []
  | .mulh _ _ _ _ => []
  | .mulhu _ _ _ _ => []
  | .div _ _ _ _ => []
  | .divu _ _ _ _ => []
  | .rem _ _ _ _ => []
  | .remu _ _ _ _ => []
  | .clz _ _ _ => []
  | .popc _ _ _ => []
  | .addi _ _ _ _ => []
  | .andi _ _ _ _ => []
  | .ori _ _ _ _ => []
  | .xori _ _ _ _ => []
  | .slti _ _ _ _ => []
  | .sltiu _ _ _ _ => []
  | .shli _ _ _ _ => []
  | .shri _ _ _ _ => []
  | .srai _ _ _ _ => []
  | .movi _ _ _ => []
  | .movk1 _ _ _ => []
  | .movk2 _ _ _ => []
  | .movk3 _ _ _ => []
  | .beqz _ _ _ => []
  | .bnez _ _ _ => []
  | .bltz _ _ _ => []
  | .bgez _ _ _ => []
  | .blez _ _ _ => []
  | .bgtz _ _ _ => []
  | .br _ _ => []
  | .j _ _ => []
  | .jal _ _ => []
  | .jr _ _ => []
  | .jalr _ _ _ => []
  | .loop _ _ i => rng (i.val = 0) 0 3
  | .cadd _ _ _ c => rng (5 ≤ c.val) 0 1
  | .cwait _ _ _ c => rng (5 ≤ c.val) 0 1
  | .bar _ _ _ c => rng (5 ≤ c.val) 0 1 ++ rng (c.val = 0) 0 9
  | .mfence _ _ _ _ => []
  | .sprd _ _ _ n => rng (reservedSpr n.val) 0 1
  | .sprdDmdq _ _ _ => []
  | .spwr _ _ n => rng (reservedSpr n.val) 0 1
  | .spwrJoinmask _ _ => []
  | .spwrSpsplit _ _ => []
  | .spwrMprog _ _ => []
  | .spwrDmsub _ _ => []
  | .spwrTret _ _ => []
  | .halt _ => []
  | .swi _ _ => []
  | .start _ t e => rng (t.val = 0) 17 3 ++ rng (24576 ≤ e.val) 0 3
  | .nest _ _ _ _ => []
  | .taskpush _ _ _ _ => []
  | .taskpop _ d _ => rng (badPopReg d.val) 16 3 ++ rng (24 ≤ d.val ∧ d.val ≤ 27) 16 4
  | .yield _ => []
  | .canst _ _ => []
  | .ssave _ _ _ => []
  | .srest _ _ _ => []
  | .gpwr _ _ _ => []
  | .gprd _ _ _ => []
  | .awlrun _ _ _ _ => []
  | .ovl _ _ _ => []
  | .tlbinv _ _ => []
  | .tlbinva _ => []
  | .cwb _ _ _ => []
  | .cinv _ _ _ => []
  | .fwcall _ _ _ _ => []
  | .vfadd _ d a b => vdst d.val 14 ++ vsrc a.val 7 ++ vsrc b.val 0
  | .vfsub _ d a b => vdst d.val 14 ++ vsrc a.val 7 ++ vsrc b.val 0
  | .vfmul _ d a b => vdst d.val 14 ++ vsrc a.val 7 ++ vsrc b.val 0
  | .vfma _ d a b => vdst d.val 14 ++ vsrc a.val 7 ++ vsrc b.val 0
  | .vfmax _ d a b => vdst d.val 14 ++ vsrc a.val 7 ++ vsrc b.val 0
  | .vfmin _ d a b => vdst d.val 14 ++ vsrc a.val 7 ++ vsrc b.val 0
  | .vfceq _ d a b => vdst d.val 14 ++ vsrc a.val 7 ++ vsrc b.val 0
  | .vfclt _ d a b => vdst d.val 14 ++ vsrc a.val 7 ++ vsrc b.val 0
  | .vfcle _ d a b => vdst d.val 14 ++ vsrc a.val 7 ++ vsrc b.val 0
  | .vbadd _ d a b => vdst d.val 14 ++ vsrc a.val 7 ++ vsrc b.val 0
  | .vbsub _ d a b => vdst d.val 14 ++ vsrc a.val 7 ++ vsrc b.val 0
  | .vbmul _ d a b => vdst d.val 14 ++ vsrc a.val 7 ++ vsrc b.val 0
  | .vbfma _ d a b => vdst d.val 14 ++ vsrc a.val 7 ++ vsrc b.val 0
  | .vadd _ d a b => vdst d.val 14 ++ vsrc a.val 7 ++ vsrc b.val 0
  | .vsub _ d a b => vdst d.val 14 ++ vsrc a.val 7 ++ vsrc b.val 0
  | .vmul _ d a b => vdst d.val 14 ++ vsrc a.val 7 ++ vsrc b.val 0
  | .vand _ d a b => vdst d.val 14 ++ vsrc a.val 7 ++ vsrc b.val 0
  | .vor _ d a b => vdst d.val 14 ++ vsrc a.val 7 ++ vsrc b.val 0
  | .vxor _ d a b => vdst d.val 14 ++ vsrc a.val 7 ++ vsrc b.val 0
  | .vshl _ d a b => vdst d.val 14 ++ vsrc a.val 7 ++ vsrc b.val 0
  | .vshr _ d a b => vdst d.val 14 ++ vsrc a.val 7 ++ vsrc b.val 0
  | .vsra _ d a b => vdst d.val 14 ++ vsrc a.val 7 ++ vsrc b.val 0
  | .vmax _ d a b => vdst d.val 14 ++ vsrc a.val 7 ++ vsrc b.val 0
  | .vmin _ d a b => vdst d.val 14 ++ vsrc a.val 7 ++ vsrc b.val 0
  | .vceq _ d a b => vdst d.val 14 ++ vsrc a.val 7 ++ vsrc b.val 0
  | .vclt _ d a b => vdst d.val 14 ++ vsrc a.val 7 ++ vsrc b.val 0
  | .vsel _ d a b => vdst d.val 14 ++ vsrc a.val 7 ++ vsrc b.val 0
  | .vshli _ d a _ => vdst d.val 14 ++ vsrc a.val 7
  | .vmov _ d a => vdst d.val 14 ++ vsrc a.val 7
  | .vcvtfb _ d a b => vdst d.val 14 ++ vsrc a.val 7 ++ vsrc b.val 0
  | .vcvtbf _ d a b => vdst d.val 14 ++ vsrc a.val 7 ++ vsrc b.val 0
  | .vcvtfi _ d a b => vdst d.val 14 ++ vsrc a.val 7 ++ vsrc b.val 0
  | .vcvtif _ d a b => vdst d.val 14 ++ vsrc a.val 7 ++ vsrc b.val 0
  | .vcvtl8 _ d a b => vdst d.val 14 ++ vsrc a.val 7 ++ vsrc b.val 0
  | .vcvtl6 _ d a b => vdst d.val 14 ++ vsrc a.val 7 ++ vsrc b.val 0
  | .vxl8 _ d a b => vdst d.val 14 ++ vsrc a.val 7 ++ vsrc b.val 0
  | .vxl6 _ d a b => vdst d.val 14 ++ vsrc a.val 7 ++ vsrc b.val 0
  | .vexp2 _ d a => vdst d.val 14 ++ vsrc a.val 7
  | .vlog2 _ d a => vdst d.val 14 ++ vsrc a.val 7
  | .vrcp _ d a => vdst d.val 14 ++ vsrc a.val 7
  | .vrsq _ d a => vdst d.val 14 ++ vsrc a.val 7
  | .vredadd _ d a => vdst d.val 14 ++ vsrc a.val 7
  | .vredmax _ d a => vdst d.val 14 ++ vsrc a.val 7
  | .vredmin _ d a => vdst d.val 14 ++ vsrc a.val 7
  | .vrediadd _ d a => vdst d.val 14 ++ vsrc a.val 7
  | .vperm _ d a b => vdst d.val 14 ++ vsrc a.val 7 ++ vsrc b.val 0
  | .vrot _ d a _ => vdst d.val 14 ++ vsrc a.val 7
  | .vbcast _ d _ => vdst d.val 14
  | .vext _ v _ _ => vsrc v.val 14
  | .vimm _ d _ => vdst d.val 14
  | .vld _ v _ _ => vdst v.val 14
  | .vst _ v _ _ => vsrc v.val 14
  | .mvaccRow _ d _ g _ => vdst d.val 14 ++ rng (6 ≤ g.val) 7 3
  | .mvaccCol _ d _ g _ => vdst d.val 14 ++ rng (4 ≤ g.val) 7 3
  | .mvaccRowPeek _ d _ g _ => vdst d.val 14 ++ rng (6 ≤ g.val) 7 3
  | .mvaccColPeek _ d _ g _ => vdst d.val 14 ++ rng (4 ≤ g.val) 7 3
  | .wldL8Tile _ _ _ => []
  | .wldL8Handle _ _ a => rng (a.val = 26) 8 4
  | .wldL6Tile _ _ _ => []
  | .wldL6Handle _ _ a => rng (a.val = 26) 8 4
  | .wldBf16Tile _ _ _ => []
  | .wldBf16Handle _ _ a => rng (a.val = 26) 8 4
  | .wldI8Tile _ _ _ => []
  | .wldI8Handle _ _ a => rng (a.val = 26) 8 4
  | .mmaL8Tile _ _ _ _ _ _ => []
  | .mmaL8Handle _ _ _ _ _ a => rng (a.val = 26) 8 4
  | .mmaL6Tile _ _ _ _ _ _ => []
  | .mmaL6Handle _ _ _ _ _ a => rng (a.val = 26) 8 4
  | .mmaBf16Tile _ _ _ _ _ _ => []
  | .mmaBf16Handle _ _ _ _ _ a => rng (a.val = 26) 8 4
  | .mmaI8Tile _ _ _ _ _ _ => []
  | .mmaI8Handle _ _ _ _ _ a => rng (a.val = 26) 8 4
  | .mdrain _ _ _ _ _ => []
  | .mzero _ _ => []
  | .mkld _ _ _ _ => []
  | .mkrng _ _ _ _ => []
  | .mkall _ _ => []
  | .mpbld _ _ => []
  | .lutld _ _ => []
  | .mwait _ _ => []
  | .trgo _ _ => []
  | .trstop _ => []
  | .trwait _ => []
  | .ld _ _ _ _ n x => rng (x.val = 1 ∧ n.val = 3) 3 2
  | .st _ _ _ _ _ => []
  | .pf _ _ _ _ => []
  | .amoAdd _ _ _ _ _ _ => []
  | .amoAnd _ _ _ _ _ _ => []
  | .amoOr _ _ _ _ _ _ => []
  | .amoXor _ _ _ _ _ _ => []
  | .amoMax _ _ _ _ _ _ => []
  | .amoMin _ _ _ _ _ _ => []
  | .amoSwap _ _ _ _ _ _ => []
  | .amoCas _ _ _ _ _ _ => []
  | .redAdd _ _ _ _ _ => []
  | .redMax _ _ _ _ _ => []
  | .redMin _ _ _ _ _ => []
  | .talloc _ _ _ => []
  | .tseal _ _ => []
  | .twait _ _ => []
  | .tstat _ _ _ => []
  | .tdrop _ _ => []
  | .wcpIn _ a b c k => rng (a.val = 27) 16 4 ++ rng (b.val = 27) 11 4 ++ rng (c.val = 27) 6 4 ++ rng (k.val = 27) 1 4
  | .wcpOut _ a b c k => rng (a.val = 27) 16 4 ++ rng (b.val = 27) 11 4 ++ rng (c.val = 27) 6 4 ++ rng (k.val = 27) 1 4
  | .wcpRt _ a b c k => rng (a.val = 27) 16 4 ++ rng (b.val = 27) 11 4 ++ rng (c.val = 27) 6 4 ++ rng (k.val = 27) 1 4
  | .wcpGg _ a b c k => rng (a.val = 27) 16 4 ++ rng (b.val = 27) 11 4 ++ rng (c.val = 27) 6 4 ++ rng (k.val = 27) 1 4
  | .wcpCond _ a b c k => rng (a.val = 27) 16 4 ++ rng (b.val = 27) 11 4 ++ rng (c.val = 27) 6 4 ++ rng (k.val = 27) 1 4 ++ rng (c.val % 2 = 1) 6 3 ++ rng (c.val = 26) 6 4
  | .wcpMm _ a b c k => rng (a.val = 27) 16 4 ++ rng (b.val = 27) 11 4 ++ rng (c.val = 27) 6 4 ++ rng (k.val = 27) 1 4
  | .coll _ a b c k => rng (a.val = 27) 16 4 ++ rng (b.val = 27) 11 4 ++ rng (c.val = 27) 6 4 ++ rng (k.val = 27) 1 4
  | .kvapp _ a b c k => rng (a.val = 27) 16 4 ++ rng (b.val = 27) 11 4 ++ rng (c.val = 27) 6 4 ++ rng (k.val = 27) 1 4
  | .kvqry _ a b c k => rng (a.val = 27) 16 4 ++ rng (b.val = 27) 11 4 ++ rng (c.val = 27) 6 4 ++ rng (k.val = 27) 1 4
  | .kvfork _ a b k => rng (a.val = 27) 16 4 ++ rng (b.val = 27) 11 4 ++ rng (k.val = 27) 1 4
  | .kvcan _ a b k => rng (a.val = 27) 16 4 ++ rng (b.val = 27) 11 4 ++ rng (k.val = 27) 1 4
  | .kvmig _ a b k => rng (a.val = 27) 16 4 ++ rng (b.val = 27) 11 4 ++ rng (k.val = 27) 1 4
  | .kvrel _ a b k => rng (a.val = 27) 16 4 ++ rng (b.val = 27) 11 4 ++ rng (k.val = 27) 1 4
  | .awlAdd _ _ _ => []
  | .awlSub _ _ _ => []
  | .awlAnd _ _ _ => []
  | .awlShr _ _ _ => []
  | .awlSlt _ _ _ => []
  | .awlAddi _ _ _ => []
  | .awlWli _ _ => []
  | .awlFadd d a b => rng (8 ≤ d.val) 22 3 ++ rng (8 ≤ a.val) 18 3 ++ rng (8 ≤ b.val) 14 3
  | .awlFmul d a b => rng (8 ≤ d.val) 22 3 ++ rng (8 ≤ a.val) 18 3 ++ rng (8 ≤ b.val) 14 3
  | .awlFmax d a b => rng (8 ≤ d.val) 22 3 ++ rng (8 ≤ a.val) 18 3 ++ rng (8 ≤ b.val) 14 3
  | .awlFrcp d a => rng (8 ≤ d.val) 22 3 ++ rng (8 ≤ a.val) 18 3
  | .awlFexp2 d a => rng (8 ≤ d.val) 22 3 ++ rng (8 ≤ a.val) 18 3
  | .awlFlog2 d a => rng (8 ≤ d.val) 22 3 ++ rng (8 ≤ a.val) 18 3
  | .awlFcvt d _ => rng (8 ≤ d.val) 22 3
  | .awlFint _ a => rng (8 ≤ a.val) 18 3
  | .awlFbits d _ => rng (8 ≤ d.val) 22 3
  | .awlWbits _ a => rng (8 ≤ a.val) 18 3
  | .awlLw _ _ _ => []
  | .awlSw _ _ _ => []
  | .awlBeq _ _ _ => []
  | .awlBne _ _ _ => []
  | .awlBlt _ _ _ => []
  | .awlJmp _ => []
  | .awlStop => []
  | .awlCld _ _ => []
  | .awlCpen _ a b => rng (8 ≤ a.val) 18 3 ++ rng (8 ≤ b.val) 14 3
  | .awlCtopk _ => []
  | .awlCpick _ a b => rng (8 ≤ a.val) 18 3 ++ rng (4 ≤ b.val) 14 3
  | .awlCget _ a _ => rng (8 ≤ a.val) 18 3
  | .awlRdraw d a => rng (8 ≤ d.val) 22 3 ++ rng (4 ≤ a.val) 18 3
  | .awlPadd _ _ _ => []
  | .awlTok _ _ => []
  | .awlDnode _ _ _ => []
  | .awlDbest _ _ _ => []
  | .awlDcommit _ _ => []

end Sys2Proof
end

