-- ==== Sys2Proof/Machine/Access.lean ====
section
/-! DEFINITION. Named access to the parts of the state: cores, strands, dies, registers, queues, vector locations. -/

namespace Sys2Proof

/-- Index of a strand (R29). -/
def StrandId.index : StrandId → Nat
  | .q => 0
  | .v => 1
  | .m => 2
  | .l => 3

/-- The strands in index order. -/
def allStrands : List StrandId := [.q, .v, .m, .l]

namespace Machine

/-- A core by its global number. -/
def State.core (s : State) (c : Nat) : Core := sget {} s.cores c

/-- Replace a core. -/
def State.setCore (s : State) (c : Nat) (k : Core) : State := { s with cores := sput s.cores c k }

/-- The core whose word is being run. -/
def State.here (s : State) : Core := s.core s.cur.core

/-- Replace the core whose word is being run. -/
def State.setHere (s : State) (k : Core) : State := s.setCore s.cur.core k

/-- A K-die's shared units. -/
def State.kdie (s : State) (d : Nat) : KDie := sget {} s.kdies d

/-- Replace a K-die's shared units. -/
def State.setKdie (s : State) (d : Nat) (k : KDie) : State := { s with kdies := sput s.kdies d k }

/-- A T-die or expander by die number. -/
def State.tdie (s : State) (n : Nat) : TDie := sget {} s.tdies n

/-- Replace a T-die. -/
def State.setTdie (s : State) (n : Nat) (t : TDie) : State := { s with tdies := sput s.tdies n t }

/-- A free number, different draws unrelated (log 2). -/
def State.free (s : State) : Nat := Config.freeNat s.draws

/-- Count a draw. -/
def State.drew (s : State) : State := { s with draws := s.draws + 1 }

/-- The strand of a core. -/
def Core.strand (c : Core) : StrandId → Strand
  | .q => c.q
  | .v => c.v
  | .m => c.m
  | .l => c.l

/-- Replace a strand of a core. -/
def Core.setStrand (c : Core) (k : StrandId) (t : Strand) : Core :=
  match k with
  | .q => { c with q := t }
  | .v => { c with v := t }
  | .m => { c with m := t }
  | .l => { c with l := t }

/-- K-die of a core. -/
def dieOf (c : Nat) : Nat := c / 64

/-- Bits `lo` to `lo + n - 1` of a word, as a number. -/
def field (w : Word) (lo n : Nat) : Nat := w.toNat / 2 ^ lo % 2 ^ n

/-- Is bit `i` set? -/
def bitOf (n i : Nat) : Bool := n / 2 ^ i % 2 == 1

/-! ## Scalar registers and queues -/

/-- The strand that a queue alias names (R51). -/
def aliasOf : Nat → Option StrandId
  | 24 => some .q
  | 25 => some .v
  | 26 => some .m
  | 27 => some .l
  | _ => none

/-- Key of the queue from one strand to another. -/
def queueKey (a b : StrandId) : Nat := 4 * a.index + b.index

/-- A directed queue. -/
def Core.queue (c : Core) (a b : StrandId) : Queue := sget {} c.queues (queueKey a b)

/-- Replace a directed queue. -/
def Core.setQueue (c : Core) (a b : StrandId) (u : Queue) : Core := { c with queues := sput c.queues (queueKey a b) u }

/-- A strand has an access, or strand Q an overlay load, older than a token that is not yet performed. -/
def Core.olderMop (c : Core) (k : StrandId) (tok : Nat) : Bool :=
  (c.mops.any fun m => m.strand == k && m.tok < tok) || (k == .q && c.ovl.any fun o => o.tok < tok)

/-- The value at the head of a queue, 0 where there is none. -/
def Core.headVal (c : Core) (a b : StrandId) : Word :=
  match (c.queue a b).entries with
  | ⟨_, some (v, _)⟩ :: _ => v
  | _ => 0

/-- A pop can be made: the head is written, and visible since the cycle after (R53). -/
def Core.headReady (c : Core) (a b : StrandId) : Bool :=
  match (c.queue a b).entries with
  | ⟨_, some (_, vis)⟩ :: _ => vis ≤ c.cycle
  | _ => false

/-- Entries held, reserved, or popped in this very cycle (R52, R53). -/
def Core.queueUsed (c : Core) (a b : StrandId) : Nat :=
  let u := c.queue a b
  u.entries.length + if u.popCycle = c.cycle then u.popCount else 0

/-- What reading a scalar register gives: x0 is zero, a queue alias is the head of its queue (R50 to R52). -/
def Core.reg (c : Core) (k : StrandId) (r : Nat) : Word :=
  if r = 0 then 0
  else match aliasOf r with
    | some p => c.headVal p k
    | none => sget 0 (c.strand k).x r

/-- Write a scalar register: x0 discards the value, and a queue alias is written through its queue only (R50, R51). -/
def Core.setReg (c : Core) (k : StrandId) (r : Nat) (v : Word) : Core :=
  if r = 0 ∨ (aliasOf r).isSome then c
  else c.setStrand k { c.strand k with x := sput (c.strand k).x r v }

/-- A strand's word has an effect that no discard undoes (R123). -/
def Core.give (c : Core) (k : StrandId) (tok : Nat) : Core :=
  { c with gave := sput c.gave k.index (max (sget 0 c.gave k.index) (tok + 1)) }

/-- Pop a queue for a word (R52), keeping a record while an older access may still be discarded (R123). The partner's push
is out of its hands. -/
def Core.popQueue (c : Core) (k : StrandId) (tok : Nat) (p : StrandId) : Core :=
  let u := c.queue p k
  match u.entries with
  | [] => c
  | e :: r =>
    let n := if u.popCycle = c.cycle then u.popCount + 1 else 1
    let c1 := (c.setQueue p k { entries := r, popCycle := c.cycle, popCount := n }).give p e.tok
    if c.olderMop k tok then { c1 with popLog := c1.popLog ++ [⟨k, p, tok, e⟩] } else c1

/-- Reserve an entry for a push (R53). -/
def Core.reserve (c : Core) (k : StrandId) (tok : Nat) (p : StrandId) : Core :=
  let u := c.queue k p
  c.setQueue k p { u with entries := u.entries ++ [⟨tok, none⟩] }

/-- Write a reserved entry: it is visible from the next cycle on (R53). -/
def Core.fillEntry (c : Core) (k p : StrandId) (tok : Nat) (v : Word) : Core :=
  let u := c.queue k p
  c.setQueue k p { u with entries := u.entries.map fun e => if e.tok = tok then ⟨tok, some (v, c.cycle + 1)⟩ else e }

/-! ## Vector locations -/

/-- Lane `k` of a V operand (R55 to R57). -/
def VecState.lane (v : VecState) (code k : Nat) : W32 :=
  let n := code % 32
  match code / 32 with
  | 0 => if n = 8 then sget 0 v.lat k else sget 0 v.ofile (32 * n + k)
  | 1 => sget 0 v.grid (32 * n + k)
  | 2 => sget 0 v.grid (32 * k + n)
  | _ => sget 0 v.grid (32 * k + (k + n) % 32)

/-- The 32 lanes of a V operand. -/
def VecState.lanes (v : VecState) (code : Nat) : List W32 := (List.range 32).map (v.lane code)

/-- Write lane `k` of a V destination (R55 to R57). -/
def VecState.setLane (v : VecState) (code k : Nat) (x : W32) : VecState :=
  let n := code % 32
  match code / 32 with
  | 0 => { v with ofile := sput v.ofile (32 * n + k) x }
  | 1 => { v with grid := sput v.grid (32 * n + k) x }
  | 2 => { v with grid := sput v.grid (32 * k + n) x }
  | _ => { v with grid := sput v.grid (32 * k + (k + n) % 32) x }

/-- Write lanes from `k` on. -/
def VecState.setLanes (v : VecState) (code k : Nat) : List W32 → VecState
  | [] => v
  | x :: xs => VecState.setLanes (v.setLane code k x) code (k + 1) xs

/-- A 32-lane result: its destination and `lat` take the same lanes (R56). -/
def VecState.write (v : VecState) (code : Nat) (xs : List W32) : VecState :=
  { v.setLanes code 0 xs with lat := sputs [] 0 xs }

/-- The place of lane `k` of a V operand: a grid element, 1,024 + the operand register, or 1,032 for `lat` (R383). -/
def vecPlace (code k : Nat) : Nat :=
  let n := code % 32
  match code / 32 with
  | 0 => 1024 + n
  | 1 => 32 * n + k
  | 2 => 32 * k + n
  | _ => 32 * k + (k + n) % 32

/-- Two V operands share an element or a register. -/
def vecOverlap (a b : Nat) : Bool :=
  (List.range 32).any fun i => (List.range 32).any fun j => vecPlace a i == vecPlace b j

/-! ## Results -/

/-- `lat` has been written in this very cycle for a word issued later, whose value is kept (R58, R146). -/
def Core.latKept (c : Core) (tok : Nat) : Bool := c.latBy.1 == c.cycle && tok < c.latBy.2

/-- A 32-lane result reaches its destination, and `lat` unless a word issued later has written it in this cycle or the write
is `bare` (R56, R58). -/
def Core.landVec (c : Core) (tok code : Nat) (xs : List W32) (bare : Bool) : Core :=
  if bare || c.latKept tok then { c with vec := c.vec.setLanes code 0 xs }
  else { c with vec := c.vec.write code xs, latBy := (c.cycle, tok) }

/-- A result reaches its destination (R53, R56, R145, R225). -/
def Core.landResult (c : Core) (k : StrandId) (tok : Nat) (bare : Bool) : Result → Core
  | .x r v =>
    match aliasOf r with
    | some p => c.fillEntry k p tok v
    | none => c.setReg k r v
  | .vec code xs => c.landVec tok code xs bare
  | .mask m p => { c with masks := sput c.masks m p }

/-- A fixed-latency write landed before a variable-latency result of a word of this cycle (R58, R146). -/
def FixedWrite.before (w : FixedWrite) (cycle tok : Nat) : Bool := w.land < cycle || (w.land == cycle && w.tok < tok)

/-- The value that lane i of a 32-lane write takes where a later result has written the same place. -/
def laneOver (code later : Nat) (xs : List W32) (i : Nat) (old : W32) : W32 :=
  match (List.range 32).find? fun j => vecPlace code i == vecPlace later j && (vecPlace code i < 1024 || i == j) with
  | some j => xs.getD j old
  | none => old

/-- A write that is made again after a discard leaves what a later result has written: that result's value stands in each place
that the two share, and `lat` is left alone (R123, R199). -/
def FixedWrite.under (w : FixedWrite) (r : Result) : FixedWrite :=
  match w.res, r with
  | .x a _, .x b v => if a = b then { w with res := .x a v } else w
  | .vec c xs, .vec d ys => { w with res := .vec c ((xs.zipIdx).map fun p => laneOver c d ys p.2 p.1), bare := true }
  | _, _ => w

/-- What a discarded strand returns to also takes a result of an older word that arrives meanwhile (R123): past every write that
has landed, and past `lat` unless a result of a later word that it took has written that in this cycle (R58). -/
def Snapshot.land (p : Snapshot) (cycle tok : Nat) (r : Result) : Snapshot :=
  let p1 := { p with fixed := p.fixed.map fun (w : FixedWrite) => if w.before cycle tok then w.under r else w }
  match r with
  | .x n v =>
    if n = 0 ∨ (aliasOf n).isSome then p else { p1 with strand := { p1.strand with x := sput p1.strand.x n v } }
  | .vec code xs =>
    if p.latBy.1 = cycle ∧ tok < p.latBy.2 then { p1 with vec := p1.vec.setLanes code 0 xs }
    else { p1 with vec := p1.vec.write code xs, latBy := (cycle, tok) }
  | .mask m q => { p1 with masks := sput p1.masks m q }

/-- Several results of one word reach their destinations. -/
def Core.landResults (c : Core) (k : StrandId) (tok : Nat) (rs : List Result) : Core :=
  rs.foldl (fun c r => c.landResult k tok false r) c

/-- The results of a word also reach the states to which the strand's later accesses would return (R123, R181). -/
def Core.landSnaps (c : Core) (k : StrandId) (tok : Nat) (rs : List Result) : Core :=
  let put := fun (p : Snapshot) => rs.foldl (fun p r => p.land c.cycle tok r) p
  { c with
    mops := c.mops.map fun (m : MemOp) => if m.strand == k && tok < m.tok then { m with snap := put m.snap } else m
    ovl := c.ovl.map fun o => if k == .q && tok < o.tok then { o with snap := put o.snap } else o }

/-- A fixed-latency write lands (R145, R146). -/
def Core.landFixed (c : Core) (w : FixedWrite) : Core := c.landResult w.strand w.tok w.bare w.res

/-- Insert a fixed-latency write behind every pending write that lands no later: landing order, then issue order (R146). -/
def insertWrite (w : FixedWrite) : List FixedWrite → List FixedWrite
  | [] => [w]
  | x :: r => if x.land ≤ w.land then x :: insertWrite w r else w :: x :: r

/-- Put a fixed-latency result of latency `n` on its way (R145). -/
def Core.writeIn (c : Core) (k : StrandId) (tok n : Nat) (r : Result) : Core :=
  { c with fixed := insertWrite { strand := k, tok := tok, res := r, land := c.cycle + n } c.fixed }

/-- Put a variable-latency result on its way (R145). -/
def Core.promise (c : Core) (k : StrandId) (tok : Nat) (rs : List Result) (known : Bool) : Core :=
  { c with vars := c.vars ++ [⟨k, tok, rs, known⟩] }

/-- The value of a promised result has been fetched. -/
def Core.fulfil (c : Core) (k : StrandId) (tok : Nat) (rs : List Result) : Core :=
  { c with vars := c.vars.map fun v => if v.strand == k && v.tok == tok then { v with res := rs, known := true } else v }

end Machine

end Sys2Proof
end

