-- ==== Sys2Proof/Machine/Faults.lean ====
section
/-! DEFINITION. Reports: records, the host interrupt, readiness, telemetry counts, syndromes (R19 to R21, R363 to R374). -/

namespace Sys2Proof.Machine

/-! ## Syndromes (R364) -/

abbrev RSVOP : Nat := 0x01
abbrev ILLOP : Nat := 0x02
abbrev IRANGE : Nat := 0x03
abbrev STALL : Nat := 0x04
abbrev RDVDL : Nat := 0x05
abbrev SWI : Nat := 0x06
abbrev NOTRDY : Nat := 0x08
abbrev LOADF : Nat := 0x09
abbrev IMGBAD : Nat := 0x0A
abbrev XLATE : Nat := 0x40
abbrev NONCAN : Nat := 0x41
abbrev PERM : Nat := 0x42
abbrev UCE : Nat := 0x43
abbrev POISON : Nat := 0x44
abbrev SPREF : Nat := 0x45
abbrev ARRWAIT : Nat := 0x46
abbrev STRICT : Nat := 0x60
abbrev OPND : Nat := 0x61
abbrev WELTF : Nat := 0x62
abbrev FOLLOW : Nat := 0x63
abbrev AWLF : Nat := 0x64
abbrev AWLNUM : Nat := 0x65
abbrev GRAPHF : Nat := 0x66
abbrev HEAPF : Nat := 0x67
abbrev COLLF : Nat := 0x68
abbrev CTXF : Nat := 0x69
abbrev LCRC : Nat := 0x80
abbrev LDEG : Nat := 0x81
abbrev LDOWN : Nat := 0x82
abbrev OCHAN : Nat := 0x83
abbrev XTO : Nat := 0x84
abbrev HOSTL : Nat := 0x85
abbrev CEBURST : Nat := 0xA0
abbrev ACHK : Nat := 0xA1
abbrev RESID : Nat := 0xA2
abbrev SEQF : Nat := 0xA3
abbrev CNTSAT : Nat := 0xA4
abbrev THERM : Nat := 0xA5
abbrev FENCED : Nat := 0xA6
abbrev EGSTOP : Nat := 0xA7

/-! ## Units -/

/-- Die, UKIND and UIDX of a function (R20, R366). -/
def unitOf : UnitId → Nat × Nat × Nat
  | .core d c => (d, 0, c)
  | .quad d q => (d, 1, q)
  | .slice d i => (d, 2, i)
  | .heap d => (d, 3, 0)
  | .nest d => (d, 4, 0)
  | .cinch d => (d, 5, 0)
  | .awl d => (d, 6, 0)
  | .ring d => (d, 7, 0)
  | .gway d g => (d, 8, g)
  | .link n m => (n, 9, m)
  | .attn n e => (n, 10, e)
  | .ccu n => (n, 11, 0)
  | .rtree n => (n, 12, 0)
  | .llc n => (n, 13, 0)
  | .hbm n => (n, 14, 0)
  | .lpdr n => (n, 15, 0)
  | .pres n => (n, 13, 0)
  | .host h => (16 + h, 16, 0)
  | .xport h p => (16 + h, 17, p)
  | .graph h => (16 + h, 18, 0)
  | .coll h => (16 + h, 19, 0)
  | .barr h => (16 + h, 20, 0)
  | .tele h => (16 + h, 21, 0)
  | .fibre i => (16 + i / 128, 22, i % 128)

/-- The die, UKIND and UIDX of a sender's records (R366, R447). For the completion add of a context command R447 names a context
command unit, and not which: that of the command's first T-die (DESIGN CHOICE, log 89). -/
def Sender.place : Sender → Nat × Nat × Nat
  | .port c => (dieOf c, 0, c % 64)
  | .welt c => (dieOf c, 0, c % 64)
  | .context _ n => (n, 11, 0)
  | .collective => (16, 19, 0)
  | .replay => (16, 18, 0)
  | .graph _ => (16, 18, 0)
  | .unit u => unitOf u

/-- A function's readiness bit (R19). -/
def State.isReady (s : State) (u : UnitId) : Bool := s.hub.ready.contains u

/-- The readiness identity of a core by its global number. -/
def coreUnit (c : Nat) : UnitId := .core (Fin.ofNat 8 (c / 64)) (Fin.ofNat 64 c)

/-! ## Functions of the module (R20) -/

/-- The functions of a K-die. -/
def kdieUnits (d : Fin 8) : List UnitId :=
  ((List.range 64).map fun c => .core d (Fin.ofNat 64 c)) ++ ((List.range 16).map fun q => .quad d (Fin.ofNat 16 q)) ++
  ((List.range 32).map fun i => .slice d (Fin.ofNat 32 i)) ++ [.heap d, .nest d, .cinch d, .awl d, .ring d] ++
  (List.range 4).map fun g => .gway d (Fin.ofNat 4 g)

/-- The link modules of a package die. -/
def dieLinks (n : Fin 22) : List UnitId := (List.range 12).map fun m => .link n (Fin.ofNat 12 m)

/-- The functions of a T-die, its links apart. -/
def tdieUnits (n : Fin 22) : List UnitId :=
  ((List.range 64).map fun e => .attn n (Fin.ofNat 64 e)) ++ [.ccu n, .rtree n, .llc n, .hbm n, .lpdr n, .pres n]

/-- The functions of a hub die that every module has, its host link, links, ports and fibres apart. -/
def hubUnits (h : Fin 2) : List UnitId := [.graph h, .coll h, .barr h, .tele h]

/-- Every function of a die by its number: an expander has its port link, and its port is a function of its hub. -/
def dieUnits (n : Fin 22) : List UnitId :=
  if n.val < 8 then kdieUnits (Fin.ofNat 8 n.val) ++ dieLinks n
  else if n.val < 16 then tdieUnits n ++ dieLinks n
  else if n.val < 18 then
    let h : Fin 2 := Fin.ofNat 2 (n.val - 16)
    hubUnits h ++ [.host h, .xport h 0, .xport h 1] ++ dieLinks n ++
      (List.range 128).map fun f => .fibre (Fin.ofNat 256 (128 * h.val + f))
  else tdieUnits n ++ [.link n 0]

/-- The functions of a die that a fence takes away: PRES of a package T-die stays 1 (R20). -/
def fencedUnits (n : Fin 22) : List UnitId := (dieUnits n).filter fun u => !(n.val < 16 && u == .pres n)

/-- A die all of whose functions are fenced (R442, R449). -/
def State.dieDown (s : State) (n : Nat) : Bool := (fencedUnits (Fin.ofNat 22 n)).all fun u => s.hub.fenced.contains u

/-- A read of a line homed on die n has no home to answer it: the die is fenced, and no expander, whose lines are served as poisoned
(R426, R449). -/
def State.homeDown (s : State) (n : Nat) : Bool := decide (n < 18) && s.dieDown n

/-- A unit by its place in records has been fenced, and is the source of no further report (R371). -/
def State.silent (s : State) (die ukind uidx : Nat) : Bool := s.hub.fenced.any fun u => unitOf u == (die, ukind, uidx)

/-! ## Die links and expander ports (R18, R329, R331, R441) -/

/-- The expander port of an expander's die number. -/
def portOf (n : Nat) : UnitId := .xport (Fin.ofNat 2 ((n - 18) / 2)) (Fin.ofNat 2 (n - 18))

/-- The end at the other side of a link module: its die and link module. A port link has module 0 of the expander's number at the
expander, and module 1 of it at the hub. -/
def peerEnd (n m : Nat) : Option (Nat × Nat) :=
  if n < 8 then
    if m < 8 then some (8 + m, n)
    else if m = 8 then some ((n + 7) % 8, 9)
    else if m = 9 then some ((n + 1) % 8, 8)
    else if m < 12 then some (6 + m, n)
    else none
  else if n < 16 then
    let i := n - 8
    if m < 8 then some (m, i)
    else if m = 8 then some (8 + (i + 7) % 8, 9)
    else if m = 9 then some (8 + (i + 1) % 8, 8)
    else if m = 10 then some (8 + (i + 4) % 8, 10)
    else if m = 11 then some (16 + i / 4, 8 + i % 4)
    else none
  else if n < 18 then
    let h := n - 16
    if m < 8 then some (m, 10 + h) else if m < 12 then some (4 * h + m, 11) else none
  else if n < 22 ∧ m < 2 then some (n, 1 - m)
  else none

/-- A link module as a function. -/
def linkUnit (n m : Nat) : UnitId := .link (Fin.ofNat 22 n) (Fin.ofNat 12 m)

/-- The state of a link's end. -/
def State.linkAt (s : State) (n m : Nat) : Link := sget {} s.hub.links (12 * n + m)

/-- Both ends of a link read ready (R331): of a port link, the expander's link and the port. -/
def State.linkUp (s : State) (n m : Nat) : Bool :=
  (peerEnd n m).any fun p =>
    if n < 18 then s.isReady (linkUnit n m) && s.isReady (linkUnit p.1 p.2) else s.isReady (linkUnit n 0) && s.isReady (portOf n)

/-- A link takes new traffic: it is up and does not retrain, and no port that failed three attempts (R441, R449). -/
def State.linkOpen (s : State) (n m : Nat) : Bool :=
  s.linkUp n m && !(s.linkAt n m).train && (decide (n < 18) || decide ((s.linkAt n m).fails < 3))

/-! ## The host interrupt (R367) -/

/-- A HISTAT bit becomes 1; the interrupt is raised on that edge while the bit is enabled and the link is up (R367, R451). -/
def Hub.raise (h : Hub) (i : Nat) : Hub :=
  let b := BitVec.ofNat 26 (2 ^ i)
  if h.histat &&& b = 0 then
    { h with
      histat := h.histat ||| b
      interrupts := if h.himask &&& b ≠ 0 ∧ !h.hostDown.contains 16 then h.interrupts + 1 else h.interrupts }
  else h

/-- Firmware runs (R24). -/
def Boot.runs (b : Boot) : Bool := b.img == 2 || b.img == 5

/-- A host link is up: the primary one, or, where it is connected and firmware runs, that of hub die 17 (R17, R451). -/
def State.linkIn (s : State) (n : Nat) : Bool :=
  !s.hub.hostDown.contains n && (n == 16 || (Config.secondLink && s.hub.boot.runs))

/-- The host reaches hub control space over a link that is up (R17, R451). -/
def State.hostReach (s : State) : Bool := s.linkIn 16 || s.linkIn 17

/-! ## Records (R365, R366) -/

/-- The log of a die takes a record, or counts it as lost when the ring is full (R365). -/
def FaultLog.push (l : FaultLog) (r : FaultRec) : FaultLog :=
  if l.head - l.tail = 256 then { l with lost := min (l.lost + 1) (2 ^ 32 - 1) }
  else { l with head := l.head + 1, ring := sput l.ring (l.head % 256) r }

/-- Write a record in the log of a die; INTR sets HISTAT.LOG whether or not the ring had room (R363, R365). -/
def State.log (s : State) (die : Nat) (r : FaultRec) : State :=
  let h := { s.hub with logs := sput s.hub.logs die ((sget {} s.hub.logs die).push r) }
  { s with hub := if r.intr then h.raise die else h }

/-- A record of a unit, at the present time. -/
def State.record (s : State) (log die ukind uidx synd cls : Nat) (intr trap : Bool) (addr info : Word) : State :=
  s.log log ⟨s.now, synd, die, ukind, cls, uidx, intr, trap, addr, info⟩

/-- A record of a core, in the log of its K-die. -/
def State.coreRecord (s : State) (c synd cls : Nat) (intr trap : Bool) (addr info : Word) : State :=
  s.record (dieOf c) (dieOf c) 0 (c % 64) synd cls intr trap addr info

/-! ## Telemetry counts (R363, R374) -/

/-- Saturating 64-bit count. -/
def sat64 (n : Nat) : Nat := min n (2 ^ 64 - 1)

/-- Add to a telemetry count that is written at the next flush. -/
def State.count (s : State) (ofs n : Nat) : State :=
  { s with hub := { s.hub with telePend := sput s.hub.telePend ofs (sget 0 s.hub.telePend ofs + n) } }

/-- Add to a telemetry count that is written at once. -/
def State.countNow (s : State) (ofs n : Nat) : State :=
  { s with hub := { s.hub with tele := sput s.hub.tele ofs (sat64 (sget 0 s.hub.tele ofs + n)) } }

/-- A C0 or C1 event of a unit: counted, with one CEBURST record in a second of more than 1,000 (R363). -/
def State.corrected (s : State) (die ukind uidx : Nat) : State :=
  if s.silent die ukind uidx then s else
  let s1 := s.count (0x100 + (26 * die + ukind) * 8) 1
  let key := (26 * die + ukind) * 65536 + uidx
  let sec := s.now / 1000000000
  let old := sget (0, 0) s1.hub.bursts key
  let n := if old.1 = sec then old.2 + 1 else 1
  let s2 := { s1 with hub := { s1.hub with bursts := sput s1.hub.bursts key (sec, n) } }
  if n = 1001 then s2.record die die ukind uidx CEBURST 1 false false 0 0 else s2

/-! ## Readiness and fencing (R19, R369) -/

/-- A readiness bit changes to 1: GEN rises by 1 (R19). -/
def State.setReady (s : State) (u : UnitId) : State :=
  if s.isReady u then s
  else { s with hub := { s.hub with ready := s.hub.ready ++ [u], gen := (s.hub.gen + 1) % 2 ^ 32 } }

/-- A readiness bit changes to 0: GEN rises by 1 (R19). -/
def State.clearReady (s : State) (u : UnitId) : State :=
  if s.isReady u then
    { s with hub := { s.hub with ready := s.hub.ready.filter (· ≠ u), gen := (s.hub.gen + 1) % 2 ^ 32 } }
  else s

/-- Fence a unit: it accepts nothing more, its bit clears, the record is written, HISTAT.FENCE is set and the fence list
takes it (R368, R369). The unit's own losses are the caller's. -/
def State.fenceUnit (s : State) (u : UnitId) (synd : Nat) (addr info : Word) : State :=
  let p := unitOf u
  let was := s.isReady u
  let s1 := s.clearReady u
  let s2 := s1.record p.1 p.1 p.2.1 p.2.2 synd 4 true false addr info
  let h := if was then s2.hub.raise 22 else s2.hub
  { s2 with hub := { h with fenced := if h.fenced.contains u then h.fenced else h.fenced ++ [u],
                            fenceList := (h.fenceList ++ [(u, s.now / 1000000000)]).take 64 } }

/-! ## Peers and routes of the pod (R334 to R336, R402, R412, R446) -/

/-- This module's column on the row plane, or its row on the column plane. -/
def Hub.place (h : Hub) (plane : Nat) : Nat := if plane = 0 then h.module % 64 else h.module / 64

/-- A peer of a plane is present. -/
def Hub.present (h : Hub) (plane peer : Nat) : Bool := bitOf (if plane = 0 then h.rowmap else h.colmap).toNat peer

/-- A module of this row or column is absent from the pod (R334). Of any other module this module's maps say nothing. -/
def Hub.absent (h : Hub) (t : Nat) : Bool :=
  t != h.module && ((t / 64 == h.place 1 && !h.present 0 (t % 64)) || (t % 64 == h.place 0 && !h.present 1 (t / 64)))

/-- A channel carries traffic, or a spare stands in for it (R445). -/
def Hub.channelUp (h : Hub) (plane q : Nat) : Bool :=
  !h.lost.contains (512 * plane + q) || (List.range 8).any fun i =>
    let w := (sget 0 h.spares (8 * plane + i)).toNat
    bitOf w 9 && !bitOf w 10 && w % 512 == q

/-- All eight channels of a transmit fibre of a plane are lost (R335, R444). -/
def Hub.dark (h : Hub) (plane f : Nat) : Bool := (List.range 8).all fun i => h.lost.contains (512 * plane + 8 * f + i)

/-- A peer of a plane is present and one of its eight channels carries traffic (R335). -/
def Hub.peerUp (h : Hub) (plane peer : Nat) : Bool :=
  h.present plane peer && (List.range 8).any fun j => h.channelUp plane ((peer + 127 - h.place plane) % 64 + 63 * j)

/-- The third module of this module's row or column that carries a message to a peer: the lowest-numbered one that both ends reach.
Which peers it reaches is open here (R446; log 2). -/
def Hub.detour (h : Hub) (plane peer : Nat) : Option Nat :=
  (List.range 64).find? fun p => p != peer && p != h.place plane && h.peerUp plane p && Config.legUp h.legs plane p peer

/-- A peer of a plane can be reached on it, directly or through a third module of the row or column (R446). -/
def Hub.viaPlane (h : Hub) (plane peer : Nat) : Bool :=
  h.peerUp plane peer || (h.present plane peer && (h.detour plane peer).isSome)

/-- No route of at most two hops leaves this module for a target: for one of another row and column, by way of either corner, whose own
leg to the target is open here (R336, R446; log 2). -/
def Hub.noRoute (h : Hub) (t : Nat) : Bool :=
  if t / 64 = h.place 1 then !h.viaPlane 0 (t % 64)
  else if t % 64 = h.place 0 then !h.viaPlane 1 (t / 64)
  else
    !(h.peerUp 0 (t % 64) && Config.legUp h.legs 1 (h.place 1) (t / 64)) &&
      !(h.peerUp 1 (t / 64) && Config.legUp h.legs 0 (h.place 0) (t % 64))

/-- A message can leave for another module (R334, R368). -/
def Hub.sends (h : Hub) (t : Nat) : Bool := h.valid && !h.egress && t != h.module && !h.noRoute t

end Sys2Proof.Machine
end

