-- ==== Sys2Proof/Machine/Tiles.lean ====
section
/-! DEFINITION. Scratchpad tiles: the tile table, presence, the events of a tile and operand groups (R72, R110 to R113). -/

namespace Sys2Proof.Machine

/-- Tiles of the current split (R69, R72). -/
def Core.tileCount (c : Core) : Nat := 128 + 64 * field c.spsplit 0 2

/-- Bytes of the scratchpad of the current split. -/
def Core.padSize (c : Core) : Nat := 4096 * c.tileCount

/-- A tile's entry (R111). -/
def Core.tile (c : Core) (t : Nat) : TileEntry := sget {} c.tiles t

/-- Replace a tile's entry. -/
def Core.setTile (c : Core) (t : Nat) (e : TileEntry) : Core := { c with tiles := sput c.tiles t e }

/-- The word that `tstat` reads (R111). -/
def TileEntry.word (e : TileEntry) : Word := BitVec.ofNat 64 (e.state + 4 * e.expect + 65536 * e.pres.toNat)

/-- Presence of line n. -/
def TileEntry.present (e : TileEntry) (n : Nat) : Bool := e.pres.getLsbD n

/-- Set presence of line n. -/
def TileEntry.setPresent (e : TileEntry) (n : Nat) : TileEntry := { e with pres := e.pres ||| BitVec.ofNat 32 (2 ^ n) }

/-- Lines 0 to E − 1 are all present (R111). -/
def TileEntry.complete (e : TileEntry) : Bool := (List.range e.expect).all fun n => e.present n

/-- The state after an accepted arrival (R112). -/
def TileEntry.arrived (e : TileEntry) : TileEntry := { e with state := if e.complete then 2 else 1 }

/-- An arrival is refused in this state (R45, R112). -/
def TileEntry.refuses (e : TileEntry) : Bool := e.state = 2 || e.state = 3

/-- Bytes of the scratchpad from an offset on. -/
def Core.padRead (c : Core) (a n : Nat) : List Byte := sgets 0 c.pad a n

/-- A line holds data poison. -/
def Core.padBad (c : Core) (line : Nat) : Bool := c.padPoison.contains line || c.padDamaged.contains line

/-- A line's mark after a write of the whole line (R404). -/
def Core.markLine (c : Core) (line : Nat) (poison : Bool) : Core :=
  { c with
    padDamaged := c.padDamaged.filter (· ≠ line)
    padPoison := (c.padPoison.filter (· ≠ line)) ++ if poison then [line] else [] }

/-- Bytes are written at an offset. -/
def Core.padWrite (c : Core) (a : Nat) (bytes : List Byte) : Core := { c with pad := sputs c.pad a bytes }

/-- One whole line is written, with its mark, and its presence is set. -/
def Core.putLine (c : Core) (line : Nat) (bytes : List Byte) (poison : Bool) : Core :=
  let t := line / 32
  ((c.padWrite (128 * line) bytes).markLine line poison).setTile t ((c.tile t).setPresent (line % 32))

/-- Whole lines of one tile are written one after another. -/
def Core.putLines (c : Core) (line : Nat) : List (List Byte × Bool) → Core
  | [] => c
  | (b, p) :: r => Core.putLines (c.putLine line b p) (line + 1) r

/-- An arrival of whole lines of one tile (R112): refused (none), or written at one point in the tile's event order. -/
def Core.arrive (c : Core) (line : Nat) (ls : List (List Byte × Bool)) : Option Core :=
  let t := line / 32
  if (c.tile t).refuses then none
  else
    let c1 := c.putLines line ls
    some (c1.setTile t (c1.tile t).arrived)

/-- A store to a tile (R112): bytes within one line and its presence bit; a whole line clears the mark (R404). -/
def Core.storeTile (c : Core) (a : Nat) (bytes : List Byte) : Core :=
  let line := a / 128
  let c1 := if bytes.length = 128 then c.markLine line false else c
  (c1.padWrite a bytes).setTile (line / 32) ((c1.tile (line / 32)).setPresent (line % 32))

/-- Tiles become DRAINING as their consumer starts (R112). -/
def Core.consume (c : Core) : List Nat → Core
  | [] => c
  | t :: r => Core.consume (c.setTile t { c.tile t with state := 3 }) r

/-- Tiles become EMPTY with presence clear as their consumer completes (R112). -/
def Core.release (c : Core) : List Nat → Core
  | [] => c
  | t :: r => Core.release (c.setTile t { c.tile t with state := 0, pres := 0 }) r

/-! ## Operand groups (R110). Formats: 0 L8, 1 L6, 2 BF16, 3 I8. -/

/-- K positions of a canonical operand. -/
def fmtK : Nat → Nat
  | 1 => 256
  | 2 => 64
  | _ => 128

/-- Bytes of one row of K elements. -/
def rowBytes (fmt k : Nat) : Nat :=
  match fmt with
  | 1 => 3 * k / 4
  | 2 => 2 * k
  | _ => k

/-- Scale bytes of one row with G-blocks; BF16 has none. -/
def rowScales (fmt k g : Nat) : Nat := if fmt = 2 then 0 else k / g

/-- Bytes of the element area and of the whole canonical operand. -/
def elemBytes (fmt rows : Nat) : Nat := rows * rowBytes fmt (fmtK fmt)

/-- Bytes of a canonical operand with its scale strip. -/
def groupBytes (fmt rows : Nat) : Nat := elemBytes fmt rows + rows * rowScales fmt (fmtK fmt) 64

/-- Tiles of a canonical operand. -/
def groupTiles (fmt rows : Nat) : Nat := (groupBytes fmt rows + 4095) / 4096

/-- The tiles of a group from its first tile on. -/
def tilesFrom (t n : Nat) : List Nat := (List.range n).map (t + ·)

/-- The tiles of a group are all FULL (R31). -/
def Core.allFull (c : Core) (ts : List Nat) : Bool := ts.all fun t => (c.tile t).state == 2

/-- The lowest line of a group that holds data poison, among its first `lines` lines. -/
def Core.firstBad (c : Core) (line lines : Nat) : Option Nat :=
  ((List.range lines).map (line + ·)).find? fun n => c.padBad n

/-- The SPR address of a byte of a core's scratchpad (R96). -/
def sprAddr (module core a : Nat) : Word :=
  BitVec.ofNat 64 (a + (core % 64) * 2 ^ 21 + (core / 64) * 2 ^ 27 + module * 2 ^ 32)

/-- A read of a tile line finds its mark (R403): an error found now marks the line and writes one UCE record. -/
def State.findLine (s : State) (c line : Nat) (info : Word) : State :=
  let k := s.core c
  if k.padDamaged.contains line then
    let k1 := { k with padDamaged := k.padDamaged.filter (· ≠ line), padPoison := k.padPoison ++ [line] }
    let s1 := s.setCore c k1
    if s.silent (dieOf c) 0 (c % 64) then s1 else s1.coreRecord c UCE 2 true false (sprAddr s.hub.module c (128 * line)) info
  else s

/-! ## Stopping what a handler abandons (R223, R423) -/

/-- The first tile and the number of tiles of an array-queue entry's operand. -/
def ArrOp.group : ArrOp → Option (Nat × Nat)
  | .wld fmt _ (.tile t) => some (t, groupTiles fmt 192)
  | .mma fmt _ _ _ _ (.tile t) => some (t, groupTiles fmt 128)
  | _ => none

/-- The tiles that an entry consumes. -/
def ArrOp.tiles (o : ArrOp) : List Nat :=
  match o.group with
  | some (t, n) => tilesFrom t n
  | none => []

/-- The plane of a core. -/
def Core.plane (c : Core) (p : Nat) : Plane := if p = 0 then c.w0 else c.w1

/-- Replace a plane of a core. -/
def Core.setPlane (c : Core) (p : Nat) (w : Plane) : Core := if p = 0 then { c with w0 := w } else { c with w1 := w }

/-- A multiply or a run leaves its plane: LOADED unless another started entry still uses it (R60). -/
def Core.leavePlane (c : Core) (p : Nat) : Core :=
  let used := c.arr.any fun e => e.started && match e.op with
    | .mma _ _ q _ _ _ => q == p
    | _ => false
  if used then c else c.setPlane p { c.plane p with state := 2 }

/-- The plane of an abandoned entry: EMPTY for a weight load, as at completion for a multiply. -/
def Core.leaveAfter (c : Core) : ArrOp → Core
  | .wld _ p _ => c.setPlane p { c.plane p with state := 0 }
  | .mma _ _ p _ _ _ => c.leavePlane p
  | _ => c

/-- A stopped entry is abandoned: its remaining beats do not run and its tiles become EMPTY (R223). -/
def Core.dropStopped (c : Core) : Core :=
  match c.arr.find? (·.stopped) with
  | none => c
  | some e =>
    let c1 := { c.release e.op.tiles with arr := c.arr.filter fun x => x.tok ≠ e.tok }
    { c1.leaveAfter e.op with mprog := c1.mprog &&& BitVec.ofNat 64 255 }

/-- The OPND trap of the entry that is stopped is still held: its own handler has not been entered (R223, R418). -/
def Core.opndHeld (c : Core) : Bool := c.traps.any fun t => t.strand == .m && t.synd == OPND

/-- Strand M is in the handler of an OPND stop (R223). -/
def Core.inOpnd (c : Core) : Bool := bitOf c.m.trap.cause.toNat 8 && field c.m.trap.cause 0 8 == OPND

/-- Strand M returns: a stopped entry whose own handler this was may run again, and the fetcher reads anew the lines that it
still needs (R223). -/
def Core.resumeStopped (c : Core) : Core :=
  if c.inOpnd && !c.opndHeld then
    { c with arr := c.arr.map fun e => if e.stopped then { e with stopped := false, lines := [], since := none } else e }
  else c

end Sys2Proof.Machine
end

