-- ==== Sys2Proof/Machine/Memory.lean ====
section
/-! DEFINITION. Memory behind the T-dies: cells, physical addresses, translation, permission, damaged lines, reduce state,
and the bytes an ordinary access reads and writes (R96 to R109, R116 to R121, R396 to R404). -/

namespace Sys2Proof.Machine

/-! ## Cells -/

/-- Memory is in its canonical form: addresses strictly rising, and no byte listed that an unlisted address reads as. -/
def Memory.wf : List Host.Cell → Bool
  | [] => true
  | [(_, b)] => b ≠ 0
  | (a, b) :: (a', b') :: r => b ≠ 0 && decide (a < a') && Memory.wf ((a', b') :: r)

/-- The byte at an address; an unlisted address reads 0 (log 7). -/
def Memory.get : List Host.Cell → Nat → Byte
  | [], _ => 0
  | (a, b) :: r, i => if a = i then b else Memory.get r i

/-- Write one byte, keeping the canonical form. -/
def Memory.set : List Host.Cell → Nat → Byte → List Host.Cell
  | [], i, v => if v = 0 then [] else [(i, v)]
  | (a, b) :: r, i, v =>
    if i = a then (if v = 0 then r else (a, v) :: r)
    else if i < a then (if v = 0 then (a, b) :: r else (i, v) :: (a, b) :: r)
    else (a, b) :: Memory.set r i v

/-- Write bytes from an address on. -/
def Memory.sets (m : List Host.Cell) (a : Nat) : List Byte → List Host.Cell
  | [] => m
  | b :: r => Memory.sets (Memory.set m a b) (a + 1) r

/-- Little-endian value of bytes (R3), as a word. -/
def wordOf (bs : List Byte) : Word := BitVec.ofNat 64 (ofBytes bs)

/-- The low `n` bytes of a number, little-endian. -/
def bytesOf (n v : Nat) : List Byte := (List.range n).map fun i => BitVec.ofNat 8 (v / 256 ^ i)

/-! ## Physical addresses (R99, R100) -/

/-- The die-local form of a PA, none where no memory lies behind it. -/
def homePa (expanders : List Nat) (pa : Nat) : Option Nat :=
  if pa < 2 ^ 47 then
    let ofs := pa % 2 ^ 38
    let med := pa / 2 ^ 38 % 4
    let home := pa / 2 ^ 40 % 32
    if pa / 2 ^ 45 = 0 ∧ med < 2 ∧ ofs < (if med = 0 then 2 ^ 36 else 2 ^ 38) ∧
        ((8 ≤ home ∧ home ≤ 15) ∨ (18 ≤ home ∧ home ≤ 21 ∧ expanders.contains home = true)) then some pa
    else none
  else
    let p := pa - 2 ^ 47
    let ofs := p % 2 ^ 41
    let med := p / 2 ^ 41 % 4
    if p / 2 ^ 43 = 0 ∧ med < 2 ∧ ofs < (if med = 0 then 2 ^ 39 else 2 ^ 41) then
      let g := ofs / 4096
      some (g / 8 * 4096 + ofs % 4096 + med * 2 ^ 38 + (8 + g % 8) * 2 ^ 40)
    else none

/-- The home T-die of a die-local PA. -/
def homeOf (pa : Nat) : Nat := pa / 2 ^ 40 % 32

/-- The medium of a die-local PA. -/
def medOf (pa : Nat) : Nat := pa / 2 ^ 38 % 4

/-- The 128-byte line of a PA. -/
def lineOf (pa : Nat) : Nat := pa / 128 * 128

/-! ## Bytes as ordinary accesses see them (R120) -/

/-- The byte a dirty copy or a write-back on its way holds for a PA, if one does; the latest write-back counts. -/
def State.heldByte (s : State) (pa : Nat) : Option Byte :=
  match slook s.dirty pa with
  | some b => some b
  | none => s.wbs.reverse.findSome? fun w => slook w.bytes pa

/-- The byte that an ordinary access reads. -/
def State.byte (s : State) (pa : Nat) : Byte := (s.heldByte pa).getD (Memory.get s.mem pa)

/-- The byte that the home holds (R137). -/
def State.homeByte (s : State) (pa : Nat) : Byte := Memory.get s.mem pa

/-! ## Writes that reach a T-die while queries execute (R282 to R284) -/

/-- Exclusive or of 9-bit numbers. -/
def xors (l : List Nat) : Nat := l.foldl (fun a b => a ^^^ b) 0

/-- The signature bits of a line (R282). -/
def sigBits (line : Nat) : BitVec 512 :=
  let a := line / 128 % 2 ^ 41
  let at9 := fun (lo : Nat) => a / 2 ^ lo % 512
  let g0 := xors [at9 0, at9 9, at9 18, at9 27, a / 2 ^ 36 % 32]
  let g1 := xors [at9 4, at9 13, at9 22, at9 31, a / 2 ^ 40 * 16 + a % 16]
  let g2 := (g0 + 3 * g1 + 0xA5) % 512
  [g0, g1, g2].foldl (fun v g => v ||| BitVec.ofNat 512 (2 ^ g)) 0

/-- Tokens of one page (R274). -/
def pageTokens (heads hdim : Nat) : Nat := 131072 / (4 * heads * hdim)

/-- Pages that hold n tokens. -/
def pageCount (n p : Nat) : Nat := (n + p - 1) / p

/-- The PA of a page of a T-die. -/
def pagePa (n med ofs : Nat) : Nat := ofs + med * 2 ^ 38 + n * 2 ^ 40

/-- The (layer, group) of a context at a T-die. -/
def CtxEntry.find (c : CtxEntry) (layer group : Nat) : Option KvGroup :=
  c.groups.find? fun g => g.layer == layer && g.group == group

/-- A fourth execution of a query runs, which holds off writes (R284). -/
def TEntry.holding (e : TEntry) : Bool := e.running && decide (3 ≤ e.conflicts)

/-- A line belongs to a query's pages, block table entries or descriptors. -/
def TDie.queryLine (t : TDie) (n : Nat) (e : TEntry) (line : Nat) : Bool :=
  match (slook t.ctxs e.ctx).bind fun c => c.find e.layer e.group with
  | none => false
  | some g => (List.range (pageCount e.n (pageTokens g.heads g.hdim))).any fun p =>
    match slook g.table p with
    | none => false
    | some d =>
      line == lineOf (Config.blockTablePa n e.ctx e.layer e.group p) || line == lineOf (Config.descriptorPa n d) ||
      (slook t.descs d).any fun x => x.page.any fun o => pagePa n x.med o ≤ line && line < pagePa n x.med o + 131072

/-- A write reaches a line of T-die n's memory: every running execution takes note, but for the APPENDs of its own context,
and a fourth execution holds the write off (R283, R284). -/
def State.noteWrite (s : State) (n : Nat) (own : Option Nat) (line : Nat) : State :=
  let t := s.tdie n
  if t.entries.any (·.running) then
    let other := fun (e : TEntry) => e.running && own != some e.ctx
    let es := t.entries.map fun e => if other e then { e with wsig := e.wsig ||| sigBits line } else e
    let s1 := s.setTdie n { t with entries := es }
    if t.entries.any (fun e => other e && e.holding && t.queryLine n e line) then { s1 with heldWrite := some line } else s1
  else s

/-- A byte is written: at its home for a KV mapping, else held dirty on a compute die (R107). -/
def State.putByte (s : State) (kv : Bool) (pa : Nat) (b : Byte) : State :=
  if kv then
    let s1 : State := { s with
      mem := Memory.set s.mem pa b
      dirty := sdel s.dirty pa
      wbs := s.wbs.map fun w => { w with bytes := sdel w.bytes pa } }
    s1.noteWrite (homeOf pa) none (lineOf pa)
  else { s with dirty := sput s.dirty pa b }

/-! ## Caches (R107, R114, R115) -/

/-- Place of the L2 slice of a K-die that holds a line. -/
def l2Place (d line : Nat) : Nat := 512 + 32 * d + Config.l2Slice line % 32

/-- Place of the LLC slice of a line's home. -/
def llcPlace (line : Nat) : Nat := 1024 + 32 * homeOf line + Config.llcSlice line % 32

/-- The cache in which a requester, core c or 512 + K-die d, keeps what it writes. -/
def cacheOf (by' line : Nat) : Nat := if by' < 512 then by' else l2Place (by' - 512) line

/-- The caches in which an access of a requester allocates a line (R114). -/
def levelsOf (by' line : Nat) : List Nat :=
  if by' < 512 then [by', l2Place (dieOf by') line, llcPlace line] else [l2Place (by' - 512) line, llcPlace line]

/-- Caches hold a line with the class of the access that allocated or touched it last (R114). -/
def State.touch (s : State) (places : List Nat) (line cls : Nat) : State :=
  { s with cached := s.cached.filter (fun t => !(t.line == line && places.contains t.place)) ++
      places.map fun p => ⟨p, line, cls⟩ }

/-- The hash of R115: five 10-bit parts of VA[56:7]. -/
def classHash (va : Nat) : Nat :=
  let l := va / 128 % 2 ^ 50
  [10, 20, 30, 40].foldl (fun h n => h ^^^ (l / 2 ^ n % 1024)) (l % 1024)

/-- The class that the thresholds of a policy give, none for the page's own (R115). -/
def classOf (t1 t2 va : Nat) : Option Nat :=
  if t1 = 0 ∧ t2 = 0 then none
  else if classHash va < t1 then some 1
  else if classHash va < t2 then some 0
  else some 2

/-- The lease of a stored line: its logical time passes every lease given on the line (R120). -/
def State.stampStore (s : State) (line : Nat) : State :=
  let t := max s.ltime ((sget (0, 0) s.leases line).2 + 1)
  { s with ltime := t, leases := sput s.leases line (t, t) }

/-- The home extends the lease of an unchanged line to the present logical time (R120). -/
def State.renewLease (s : State) (line : Nat) : State :=
  let l := sget (0, 0) s.leases line
  { s with leases := sput s.leases line (l.1, max l.2 s.ltime) }

/-! ## Reduce state (R116, R117) -/

/-- The absorption of one element, given the F32 sum and comparison of the numbers chapter. -/
def absorb (fadd : W32 → W32 → W32) (fmax fmin : W32 → W32 → W32) (op : RedOp) (f32 : Bool) (p x : W32) : W32 :=
  match op, f32 with
  | .add, false => p + x
  | .add, true => fadd p x
  | .max, false => if p.slt x then x else p
  | .min, false => if x.slt p then x else p
  | .max, true => fmax p x
  | .min, true => fmin p x

/-- The identity of an operator and type (R116). -/
def redIdentity (op : RedOp) (f32 : Bool) : W32 :=
  match op, f32 with
  | .add, false => 0
  | .add, true => 0x80000000
  | .max, false => 0x80000000
  | .min, false => 0x7FFFFFFF
  | .max, true => 0xFF800000
  | .min, true => 0x7F800000

/-! ## Translation (R102 to R106) -/

/-- What a walk ends in: a leaf and its level, or a fault at a level, malformed or V = 0. -/
inductive Walk where
  | leaf (level : Nat) (entry : Word)
  | fault (level : Nat) (malformed : Bool)
  deriving DecidableEq, Repr

/-- Bytes of the page that a leaf at a level maps (R102). -/
def leafSize : Nat → Nat
  | 1 => 2 ^ 30
  | 2 => 2 ^ 21
  | _ => 2 ^ 16

/-- PA of the page that a leaf maps, before R100. -/
def leafBase (e : Word) : Nat := field e 16 32 * 2 ^ 16

/-- A malformed leaf entry (R104). ECLASS is bit 15 alone where bit 16 is PA[16] (R103). -/
def leafMalformed (expanders : List Nat) (level : Nat) (e : Word) : Bool :=
  level == 0 || field e 48 16 != 0 || field e 6 1 != 0 || 7 ≤ field e 7 4 || field e 11 2 == 3 ||
  leafBase e % leafSize level != 0 || (homePa expanders (leafBase e)).isNone ||
  (bitOf e.toNat 13 && (bitOf e.toNat 14 || !(field e 7 4 == 3 || field e 7 4 == 0)))

/-- A malformed table entry (R104): the next table is aligned to its size. -/
def tableMalformed (expanders : List Nat) (level : Nat) (e : Word) : Bool :=
  let next := field e 8 40 * 256
  let align := match level with
    | 0 => 65536
    | 1 => 4096
    | _ => 256
  3 ≤ level || field e 2 6 != 0 || field e 48 16 != 0 || next % align != 0 || (homePa expanders next).isNone

/-- ⊕ of an operator and type. -/
def absorbOp (op : RedOp) (f32 : Bool) (p x : W32) : W32 := absorb addF maxF minF op f32 p x

/-- ((((D ⊕ P0) ⊕ P1) ⊕ P2) ⊕ P3) of one element (R117). -/
def mergeElem (r : RedLine) (d : W32) (i : Nat) : W32 :=
  r.parts.foldl (fun v p => absorbOp r.op r.f32 v (p.getD i (redIdentity r.op r.f32))) d

/-- The 32-bit value at a PA of the home's memory. -/
def State.homeWord (s : State) (pa : Nat) : W32 := BitVec.ofNat 32 (ofBytes ((List.range 4).map fun i => s.homeByte (pa + i)))

/-- The bytes of a reduce-state line once it is merged. -/
def State.mergedLine (s : State) (line : Nat) (r : RedLine) : List Byte :=
  (List.range 32).flatMap fun i => bytesOf 4 (mergeElem r (s.homeWord (line + 4 * i)) i).toNat

/-- The byte that a read finds, which merges a reduce-state line first (R117). -/
def State.readByte (s : State) (pa : Nat) : Byte :=
  match slook s.reds (lineOf pa) with
  | some r => (s.mergedLine (lineOf pa) r).getD (pa % 128) 0
  | none => s.byte pa

/-- An entry of a page table. One in a line with an uncorrectable error or a mark counts as malformed (log 67). -/
def State.tableWord (s : State) (pa : Nat) : Word :=
  match homePa s.hub.expanders pa with
  | none => BitVec.allOnes 64
  | some a =>
    if s.damaged.contains (lineOf a) || s.poison.contains (lineOf a) then BitVec.allOnes 64
    else wordOf ((List.range 8).map fun i => s.readByte (a + i))

/-- Bytes of VA that one entry of a level covers (R102). -/
def levelSize : Nat → Nat
  | 0 => 2 ^ 43
  | l => leafSize l

/-- The levels of a walk: each level's lowest VA bit and index width (R102). -/
def walkLevels : List (Nat × Nat) := [(43, 14), (30, 13), (21, 9), (16, 5)]

/-- A cached entry covers a VA of its address space. -/
def TlbEntry.covers (t : TlbEntry) (asid va : Nat) : Bool :=
  t.asid == asid && t.page == va / levelSize t.level * levelSize t.level

/-- The entries that a walk may find at a level: those cached for the VA, and the one in memory (R105). -/
def State.entriesAt (s : State) (asid va level pa : Nat) : List Word :=
  ((s.tlb.filter fun t => t.covers asid va && t.level == level).map (·.entry) ++ [s.tableWord pa]).eraseDups

/-- PA of the entry that a VA indexes in a table. -/
def entryPa (va table : Nat) (p : Nat × Nat) : Nat := table + 8 * (va / 2 ^ p.1 % 2 ^ p.2)

/-- What a walk may come to from an entry of a level on, with the levels below it (R102 to R105). -/
def State.walksFrom (s : State) (asid va : Nat) : Nat → List (Nat × Nat) → Word → List Walk
  | level, lower, e =>
    if !bitOf e.toNat 0 then [.fault level false]
    else if bitOf e.toNat 1 then
      if leafMalformed s.hub.expanders level e then [.fault level true] else [.leaf level e]
    else if tableMalformed s.hub.expanders level e then [.fault level true]
    else
      match lower with
      | [] => [.fault level true]
      | p :: r => (s.entriesAt asid va (level + 1) (entryPa va (field e 8 40 * 256) p)).flatMap (s.walksFrom asid va (level + 1) r)

/-- The results that a translation of a VA may have: of a walk from the level-0 table, or from a cached entry on (R105). -/
def State.translations (s : State) (asid root va : Nat) : List Walk :=
  ((s.entriesAt asid va 0 (entryPa va root (43, 14))).flatMap (s.walksFrom asid va 0 (walkLevels.drop 1)) ++
    (s.tlb.filter fun t => t.covers asid va).flatMap fun t =>
      s.walksFrom asid va t.level (walkLevels.drop (t.level + 1)) t.entry).eraseDups

/-- One of several results, the same throughout a step (R105; log 48). -/
def State.choose {α : Type} (s : State) (key : Nat) (l : List α) (d : α) : α :=
  match l with
  | [x] => x
  | _ => l.getD (Config.pick s.tick key % l.length) d

/-- The translation of a VA (R105): before an invalidation completes, an access uses the old entry or the new one. -/
def State.translate (s : State) (asid root va : Nat) : Walk :=
  s.choose (va / 65536) (s.translations asid root va) (.fault 0 false)

/-- The entries that a walk in memory reads from a table on: their PAs and the cached form of each. -/
def State.pathFrom (s : State) (asid va : Nat) : Nat → Nat → List (Nat × Nat) → List (Nat × TlbEntry)
  | _, _, [] => []
  | level, table, p :: r =>
    let e := s.tableWord (entryPa va table p)
    (entryPa va table p, ⟨asid, va / levelSize level * levelSize level, level, e⟩) ::
      if bitOf e.toNat 0 && !bitOf e.toNat 1 && !tableMalformed s.hub.expanders level e then
        s.pathFrom asid va (level + 1) (field e 8 40 * 256) r
      else []

/-- The walk of a VA from the level-0 table, entry by entry. -/
def State.path (s : State) (asid root va : Nat) : List (Nat × TlbEntry) := s.pathFrom asid va 0 root walkLevels

/-- The die-local PA of a VA under a leaf. -/
def leafPa (expanders : List Nat) (level : Nat) (e : Word) (va : Nat) : Nat :=
  (homePa expanders (leafBase e + va % leafSize level)).getD 0

/-- ECLASS of a leaf: 0 NORMAL, 1 EVICT-FIRST, 2 KEEP; one bit where bit 16 is PA[16] (R101, R103). -/
def leafClass (level : Nat) (e : Word) : Nat := if level = 3 then field e 15 1 else field e 15 2
/-- KV of a leaf. -/
def leafKv (e : Word) : Bool := bitOf e.toNat 13
/-- RED of a leaf. -/
def leafRed (e : Word) : Bool := bitOf e.toNat 14
/-- FMT of a leaf: 0 raw, 1 L6, 2 L8, 3 BF16, 4 F32, 5 I8, 6 I32. -/
def leafFmt (e : Word) : Nat := field e 7 4
/-- The K-block of a leaf's GEOM. -/
def leafGeom (e : Word) : Nat := 64 * 2 ^ field e 11 2

/-- Permission bits: PR 1, PW 2, PX 4, PAT 8 (R106, R396). -/
abbrev PR : Nat := 1
abbrev PRW : Nat := 3
abbrev PW : Nat := 2
abbrev PX : Nat := 4
abbrev PATOM : Nat := 11

/-- The permissions of a leaf. -/
def leafPerm (e : Word) : Nat := field e 2 4

/-- A fault of translation, permission or data: syndrome, address in the access's own space, and the fields of R396. -/
structure MemFault where
  synd : Nat
  addr : Word
  level : Nat := 0
  malf : Bool := false
  have4 : Nat := 0
  module : Nat
  deriving DecidableEq, Repr

/-- What a walk's end gives an access at a VA (R106): the leaf, or the fault. -/
def State.checkWalk (s : State) (need va : Nat) (w : Walk) : Except MemFault (Nat × Word) :=
  let fail := fun (synd level : Nat) (malf : Bool) (have4 : Nat) =>
    Except.error ⟨synd, BitVec.ofNat 64 va, level, malf, have4, s.hub.module⟩
  match w with
  | .fault l m => fail XLATE l m 0
  | .leaf l e => if leafPerm e &&& need = need then .ok (l, e) else fail PERM l false (leafPerm e)

/-- The check of one page of a VA (R96, R106): the leaf, or the fault. -/
def State.checkPage (s : State) (asid root need va : Nat) : Except MemFault (Nat × Word) :=
  if 2 ^ 57 ≤ va then .error ⟨NONCAN, BitVec.ofNat 64 va, 0, false, 0, s.hub.module⟩
  else s.checkWalk need va (s.translate asid root va)

/-- The pages of a range, in ascending order, checked one after another (R106, R396). -/
def State.checkFrom (s : State) (asid root need stop : Nat) : Nat → Nat → Option MemFault
  | 0, _ => none
  | fuel + 1, va =>
    match s.checkPage asid root need va with
    | .error f => some f
    | .ok (l, _) =>
      let next := (va / leafSize l + 1) * leafSize l
      if next < stop then s.checkFrom asid root need stop fuel next else none

/-- The check of a range; a length of zero is checked as one byte (R106). -/
def State.checkRange (s : State) (asid root need va len : Nat) : Option MemFault :=
  s.checkFrom asid root need (va + max len 1) (len / 65536 + 2) va

/-- The die-local PA of a VA that has been checked, 0 where it has no translation. -/
def State.paOf (s : State) (asid root va : Nat) : Nat :=
  match s.translate asid root va with
  | .leaf l e => leafPa s.hub.expanders l e va
  | .fault .. => 0

/-- The leaf of a VA, 0 where it has none. -/
def State.leafOf (s : State) (asid root va : Nat) : Word :=
  match s.translate asid root va with
  | .leaf _ e => e
  | .fault .. => 0

/-- `%tinfo` of a memory fault, and INFO of its record (R396, R397). -/
def memInfo (acc space : Nat) (defer : Bool) (need len : Nat) (f : MemFault) : Word :=
  BitVec.ofNat 64 (acc + 16 * space + (if defer then 128 else 0) + 256 * f.level + (if f.malf then 1024 else 0) +
    4096 * need + 65536 * f.have4 + 2 ^ 20 * f.module + 2 ^ 32 * min len 65535)

/-! ## Ranges of global memory -/

/-- The parts of a VA range, cut at 4 KiB so that each has one home (R100). -/
def State.segsFrom (s : State) (asid root stop : Nat) : Nat → Nat → List Seg
  | 0, _ => []
  | fuel + 1, va =>
    if stop ≤ va then []
    else
      let next := min stop ((va / 4096 + 1) * 4096)
      ⟨s.paOf asid root va, next - va, leafKv (s.leafOf asid root va)⟩ :: s.segsFrom asid root stop fuel next

/-- The parts of a VA range. -/
def State.segs (s : State) (asid root va len : Nat) : List Seg := s.segsFrom asid root (va + len) (len / 4096 + 2) va

/-- The PAs of a VA range, byte by byte. -/
def segPas (l : List Seg) : List (Nat × Bool) := l.flatMap fun g => (List.range g.len).map fun i => (g.pa + i, g.kv)

/-- The lines of a VA range: the VA of the first byte of the line in the range's own space, and its PA. -/
def State.linesOf (s : State) (asid root va len : Nat) : List (Nat × Nat) :=
  let first := va / 128
  (List.range ((va + max len 1 - 1) / 128 - first + 1)).map fun i =>
    let a := (first + i) * 128
    (a, lineOf (s.paOf asid root (max a va)))

/-! ## Damaged data (R361, R403, R404) -/

/-- After an egress stop no line crosses to or from an expander's memory: only what a cache of a compute die holds is left (R368). -/
def State.sealed (s : State) (line : Nat) : Bool :=
  s.hub.egress && decide (18 ≤ homeOf line) && !s.cached.any fun t => t.line == line && decide (t.place < 1024)

/-- The record place of a line's medium: die, UKIND, UIDX. -/
def lineUnit (pa : Nat) : Nat × Nat × Nat := (homeOf pa, if medOf pa = 0 then 14 else 15, 0)

/-- A read finds an uncorrectable error in a line: the line is marked and one UCE record is written (R403). -/
def State.markDamaged (s : State) (line : Nat) (info : Word) : State :=
  if s.damaged.contains line then
    let u := sget (lineUnit line) s.damagedBy line
    let s1 : State :=
      { s with damaged := s.damaged.filter (· ≠ line), damagedBy := sdel s.damagedBy line, poison := s.poison ++ [line] }
    if s.silent u.1 u.2.1 u.2.2 then s1 else s1.record u.1 u.1 u.2.1 u.2.2 UCE 2 true false (BitVec.ofNat 64 line) info
  else s

/-- The copy of a line in an L1 or an L2 slice is read as it is written back: an uncorrectable error in it is found then
(R403, R414). INFO of such a record is 0 (DESIGN CHOICE, log 82). -/
def State.findCopy (s : State) (line : Nat) : State :=
  match slook s.damagedBy line with
  | some u => if u.2.1 = 13 then s else s.markDamaged line 0
  | none => s

/-- The lowest line of a list that is damaged or poisoned, in the access's address order. -/
def State.firstBadLine (s : State) (l : List (Nat × Nat)) : Option (Nat × Nat) :=
  l.find? fun p => s.damaged.contains p.2 || s.poison.contains p.2

/-- The data fault of a read of lines: POISON where the line was marked, UCE where this read marks it (R403). -/
def State.dataFault (s : State) (l : List (Nat × Nat)) : Option MemFault :=
  (s.firstBadLine l).map fun p =>
    ⟨if s.damaged.contains p.2 then UCE else POISON, BitVec.ofNat 64 p.1, 0, false, 0, s.hub.module⟩

/-- Every damaged line of a list is marked and recorded, with INFO of the access. -/
def State.markAll (s : State) (l : List (Nat × Nat)) (info : MemFault → Word) : State :=
  l.foldl (fun s p => s.markDamaged p.2 (info ⟨UCE, BitVec.ofNat 64 p.1, 0, false, 0, s.hub.module⟩)) s

/-- A store of a whole line clears its mark, and that of the line's older write-backs, whose bytes it replaces (R404). -/
def State.clearMark (s : State) (line : Nat) : State :=
  { s with
    poison := s.poison.filter (· ≠ line), damaged := s.damaged.filter (· ≠ line), damagedBy := sdel s.damagedBy line
    wbs := s.wbs.map fun w => if w.line = line then { w with poison := false } else w }

/-- A line is marked with data poison. -/
def State.setMark (s : State) (line : Nat) : State :=
  { s with
    poison := s.poison.filter (· ≠ line) ++ [line], damaged := s.damaged.filter (· ≠ line), damagedBy := sdel s.damagedBy line }

/-- A data fault does not write its own record where the marking wrote one (R397, R403). -/
def recOf (f : MemFault) : Option Word := if f.synd = UCE then none else some f.addr

end Sys2Proof.Machine
end

