-- ==== Sys2Proof/Machine/Ordinary.lean ====
section
/-! DEFINITION. Ordinary reads and writes of global memory, reduce-state merges and home atomics (R116, R117, R120, R138). -/

namespace Sys2Proof.Machine

/-! ## Reduce state (R116, R117, R413) -/

/-- A reduce-state line is merged: DRAM takes the folded values, and the line leaves reduce state. An uncorrectable partial
or a marked DRAM value leaves the line poisoned, with one UCE record; which LLC slice it names is open (R413, log 2). A query
takes note of the write to DRAM, but for an APPEND of its own context `own` (R283). -/
def State.mergeLineBy (s : State) (own : Option Nat) (line : Nat) : State :=
  match slook s.reds line with
  | none => s
  | some r =>
    let s1 := { s with mem := Memory.sets s.mem line (s.mergedLine line r), reds := sdel s.reds line }.noteWrite
      (homeOf line) own line
    if r.bad ∨ s.poison.contains line ∨ s.damaged.contains line then
      let u := homeOf line
      (s1.setMark line).record u u 13 (llcPlace line % 32) UCE 2 true false (BitVec.ofNat 64 line) 0
    else s1

/-- A reduce-state line is merged for any other agent. -/
def State.mergeLine (s : State) (line : Nat) : State := s.mergeLineBy none line

/-- Every reduce-state line of a list is merged. -/
def State.mergeLinesBy (s : State) (own : Option Nat) (l : List Nat) : State := l.foldl (fun s line => s.mergeLineBy own line) s

/-- Every reduce-state line of a list is merged for an agent that is no APPEND. -/
def State.mergeLines (s : State) (l : List Nat) : State := s.mergeLinesBy none l

/-- A `red` is absorbed at its line's home by core `c` (R116): partial (8d + c) mod 4; another operator or type merges first. -/
def State.absorbRed (s : State) (pa c : Nat) (op : RedOp) (f32 : Bool) (x : W32) : State :=
  let line := lineOf pa
  let s1 := match slook s.reds line with
    | some r => if r.op = op ∧ r.f32 = f32 then s else s.mergeLine line
    | none => s
  let r := (slook s1.reds line).getD
    ⟨op, f32, List.replicate 4 (List.replicate 32 (redIdentity op f32)), false⟩
  let j := (8 * dieOf c + c % 64) % 4
  let i := (pa - line) / 4
  let part := r.parts.getD j []
  let part' := part.set i (absorbOp op f32 (part.getD i (redIdentity op f32)) x)
  { s1 with reds := sput s1.reds line { r with parts := r.parts.set j part' } }

/-! ## Ordinary accesses -/

/-- The bytes of a range, as an ordinary read returns them. -/
def State.readVa (s : State) (asid root va len : Nat) : List Byte :=
  (segPas (s.segs asid root va len)).map fun p => s.byte p.1

/-- The lines of a range, as PAs. -/
def State.linePas (s : State) (asid root va len : Nat) : List Nat := (s.linesOf asid root va len).map Prod.snd

/-- The parts of a range at its home, where atomics, reductions and pod accesses take effect (R98, R138). -/
def homed (gs : List Seg) : List Seg := gs.map fun g => { g with kv := true }

/-- The lines of a PA range. -/
def paLines (pa n : Nat) : List Nat := (List.range ((pa + max n 1 - 1) / 128 - pa / 128 + 1)).map fun i => (pa / 128 + i) * 128

/-- The lines of the parts of a range. -/
def segLines (gs : List Seg) : List Nat := gs.flatMap fun g => paLines g.pa g.len

/-- What a walk of a VA reads is read as by any reader: reduce-state lines are merged, and damaged ones found (R117, R403). -/
def State.settleWalk (s : State) (asid root va : Nat) : State :=
  (s.path asid root va).foldl (fun s p =>
    let line := lineOf ((homePa s.hub.expanders p.1).getD 0)
    (s.mergeLine line).markDamaged line 0) s

/-- An entry of a page table that a walk of a VA reads lies where an egress stop lets nothing cross (R368). -/
def State.walkSealed (s : State) (asid root va : Nat) : Bool :=
  (s.path asid root va).any fun p => (homePa s.hub.expanders p.1).any fun a => s.sealed (lineOf a)

/-- The first VA of a range in each 64 KiB of it. -/
def pagesOf (va len : Nat) : List Nat :=
  (List.range ((va + max len 1 - 1) / 65536 - va / 65536 + 1)).map fun i => max va ((va / 65536 + i) * 65536)

/-- The walks of a range read their tables. -/
def State.settleWalks (s : State) (asid root va len : Nat) : State :=
  (pagesOf va len).foldl (fun s a => s.settleWalk asid root a) s

/-- The walks of a range read their tables, and its reduce-state lines are merged before it is read or written (R117). -/
def State.settleVa (s : State) (asid root va len : Nat) : State :=
  let s1 := s.settleWalks asid root va len
  s1.mergeLines (s1.linePas asid root va len)

/-- ECLASS of the page of a VA (R101). -/
def State.pageClass (s : State) (asid root va : Nat) : Nat :=
  match s.translate asid root va with
  | .leaf l e => leafClass l e
  | .fault .. => 0

/-- A requester's access allocates or touches the lines of a range in each level, with a class (R114). -/
def State.touchAll (s : State) (by' : Nat) (gs : List Seg) (cls : Nat) : State :=
  (segLines gs).foldl (fun s l => s.touch (levelsOf by' l) l cls) s

/-- Bytes are written one by one. -/
def State.putBytes (s : State) : List ((Nat × Bool) × Byte) → State
  | [] => s
  | ((pa, kv), b) :: r => State.putBytes (s.putByte kv pa b) r

/-- A requester's cache holds the lines of a range that it wrote without KV (R107). -/
def State.noteDirty (s : State) (by' : Nat) (gs : List Seg) : State :=
  { s with dirtyAt := (segLines (gs.filter fun g => !g.kv)).foldl (fun m l => sput m l (cacheOf by' l)) s.dirtyAt }

/-- A requester writes bytes to the parts of a range: reduce state merges first, and the lines' leases move on. -/
def State.writeAt (s : State) (by' : Nat) (gs : List Seg) (bytes : List Byte) : State :=
  let s1 := (s.mergeLines (segLines gs)).putBytes ((segPas gs).zip bytes)
  if bytes.isEmpty then s1 else ((segLines gs).foldl State.stampStore s1).noteDirty by' gs

/-- An ordinary write of bytes at a VA. -/
def State.writeVa (s : State) (by' asid root va : Nat) (bytes : List Byte) : State :=
  let s1 := s.settleVa asid root va bytes.length
  s1.writeAt by' (s1.segs asid root va bytes.length) bytes

/-- The result of a read-modify-write of `n` bytes (R251): the new value, none where a failed `cas` stores nothing. -/
def amoNew (op : AmoOp) (n : Nat) (old b expected : Nat) : Option Nat :=
  let w := 8 * n
  let sg := fun (v : Nat) => (BitVec.ofNat w v).toInt
  match op with
  | .add => some ((old + b) % 2 ^ w)
  | .and => some (old &&& b)
  | .or => some (old ||| b)
  | .xor => some (old ^^^ b)
  | .max => some (if sg old < sg b then b else old)
  | .min => some (if sg b < sg old then b else old)
  | .swap => some b
  | .cas => if old = expected then some b else none

/-- The bytes of the parts of a range. -/
def State.readAt (s : State) (gs : List Seg) : List Byte := (segPas gs).map fun p => s.byte p.1

/-- An atomic at the home of the parts of a range: the old value and the state after (R138, R251). -/
def State.atomicAt (s : State) (gs : List Seg) (n : Nat) (op : AmoOp) (b expected : Nat) : Nat × State :=
  let s1 := s.mergeLines (segLines gs)
  let old := ofBytes (s1.readAt gs)
  match amoNew op n old (b % 256 ^ n) (expected % 256 ^ n) with
  | some v => (old, s1.writeAt 0 (homed gs) (bytesOf n v))
  | none => (old, s1)

/-- The T-die read of home memory (R136, R137): reduce state merges first. -/
def State.homeBytes (s : State) (pa n : Nat) : List Byte := (List.range n).map fun i => s.homeByte (pa + i)

/-- The T-die write of home memory: a dirty copy elsewhere keeps its bytes and is ordered after (R137). Executing queries take
note, those of the context `own` apart (R283). -/
def State.homeWriteBy (s : State) (own : Option Nat) (pa : Nat) (bytes : List Byte) : State :=
  let s1 := s.mergeLinesBy own (paLines pa bytes.length)
  (paLines pa bytes.length).foldl (fun s l => s.noteWrite (homeOf l) own l) { s1 with mem := Memory.sets s1.mem pa bytes }

/-- A write of home memory by anything but an APPEND. -/
def State.homeWrite (s : State) (pa : Nat) (bytes : List Byte) : State := s.homeWriteBy none pa bytes

/-- A walk that ends in a valid leaf may leave every entry that it read cached; one that ends in a fault caches nothing
(R105, R399). -/
def State.cacheWalk (s : State) (asid root va : Nat) : State :=
  match (s.path asid root va).reverse with
  | [] => s
  | (_, t) :: r =>
    if bitOf t.entry.toNat 0 && bitOf t.entry.toNat 1 && !leafMalformed s.hub.expanders t.level t.entry then
      { s with tlb := s.tlb ++ (((t :: r.map Prod.snd).reverse).filter fun x => !s.tlb.contains x) }
    else s

/-! ## Write-backs (R72, R118, R137, R195) -/

/-- The dirty bytes of a line. -/
def State.dirtyBytes (s : State) (line : Nat) : SMap Byte := s.dirty.filter fun p => line ≤ p.1 && p.1 < line + 128

/-- The cache that holds a dirty line, by default an L2 slice. -/
def State.dirtyPlace (s : State) (line : Nat) : Nat := sget (l2Place 0 line) s.dirtyAt line

/-- The slice behind a cache: an L1's on its K-die, an L2 slice's at the line's home. -/
def behind (place line : Nat) : Nat := if place < 512 then l2Place (dieOf place) line else llcPlace line

/-- A dirty line is written back from the cache that holds it, to the slice behind it or, with `home'`, on to its home. There a
line already on its way goes too, followed by an empty write-back, so that whoever waits for the token also waits for it. -/
def State.writeBack (s : State) (tok : Nat) (home' : Bool) (line : Nat) : State :=
  let bs := s.dirtyBytes line
  let place := s.dirtyPlace line
  if bs.isEmpty && s.wbs.all fun w => w.line != line then s
  else
    let s := if bs.isEmpty then s else s.findCopy line
    { s with
      dirty := s.dirty.filter fun p => !(line ≤ p.1 && p.1 < line + 128)
      dirtyAt := sdel s.dirtyAt line
      wbs := (s.wbs.map fun w => if w.line = line then { w with home := w.home || home' } else w) ++
        [⟨place, behind place line, line, bs, s.poison.contains line, false, tok, home'⟩] }

/-- Several lines are written back. -/
def State.writeBackAll (s : State) (tok : Nat) (home' : Bool) (lines : List Nat) : State :=
  lines.foldl (fun s l => s.writeBack tok home' l) s

/-- A cache writes every dirty line back and is emptied (R72, R410). -/
def State.flushCache (s : State) (place : Nat) : State :=
  let s1 := s.writeBackAll 0 false ((s.dirtyAt.filter fun p => p.2 == place).map Prod.fst)
  { s1 with cached := s1.cached.filter fun t => t.place != place }

/-- A core's L1 writes every dirty line back and is invalidated (R72). -/
def State.flushL1 (s : State) (c : Nat) : State := s.flushCache c

end Sys2Proof.Machine
end

