-- ==== Sys2Proof/Machine/Hazard.lean ====
section
/-! DEFINITION. Outstanding accesses: what they are, the order in which they may be performed, and the faults that they meet as
things stand (R97, R98, R112, R119 to R126, R135, R249, R379, R398 to R412). -/

namespace Sys2Proof.Machine

/-! ## Counter handles (R64 to R66) -/

/-- SCOPE of a handle. -/
def hScope (h : Word) : Nat := field h 35 3
/-- MODULE of a handle. -/
def hModule (h : Word) : Nat := field h 23 12
/-- DIE of a handle. -/
def hDie (h : Word) : Nat := field h 18 5
/-- UNIT of a handle. -/
def hUnit (h : Word) : Nat := field h 12 6
/-- INDEX of a handle. -/
def hIndex (h : Word) : Nat := field h 0 12

/-- Counters of a scope (R65). -/
def scopeCount : Nat → Nat
  | 0 => 256
  | 1 => 64
  | 2 => 4096
  | 3 => 4096
  | 4 => 1024
  | _ => 0

/-- A handle that R66 does not make illegal, its SCOPE apart. -/
def handleOk (h : Word) : Bool :=
  field h 38 26 == 0 && hIndex h < scopeCount (hScope h) &&
    match hScope h with
    | 0 => hDie h ≤ 7
    | 1 => field h 16 2 == 0 && hDie h ≤ 7
    | 2 => hUnit h == 0 && hDie h ≤ 7
    | _ => hUnit h == 0 && hDie h == 0

/-- The offences of a handle held in a register, or in a block at an offset (R66, R390). -/
def handleOffences (h : Word) (bit : Nat) (pos : Option Nat) : List Offence :=
  if 5 ≤ hScope h then [⟨bit, true, pos, 1⟩] else if handleOk h then [] else [⟨bit, true, pos, 10⟩]

/-- The value of a counter of this module. -/
def State.counter (s : State) (h : Word) : Nat := sget 0 s.counters h.toNat

/-- The counter's store is poisoned (R406). -/
def State.counterBad (s : State) (h : Word) : Bool := s.badCounters.contains h.toNat

/-! ## Order (R119 to R126) -/

/-- A fabric-class access (R119). -/
def MemOp.fabric (m : MemOp) : Bool := m.space == 2 || m.space == 4

/-- A posted access: no later word waits for it, and it faults late or not at all (R125, R252, R407). -/
def MemOp.posted (m : MemOp) : Bool :=
  match m.kind with
  | .store _ => m.fabric
  | .red .. => true
  | _ => false

/-- An access with an effect outside the strand, which no discard may follow. -/
def MemOp.effect (m : MemOp) : Bool :=
  match m.kind with
  | .load .. => false
  | .vld _ => false
  | .mkld _ => false
  | _ => true

/-- The target of a fabric-class access: a tile, or a module (R125). -/
def MemOp.target (m : MemOp) : Nat × Nat :=
  (m.space, if m.space = 2 then m.addr.toNat / 4096 else field m.addr 52 12)

/-- The module, core and tile offset of an SPR address (R96). -/
def sprModule (a : Word) : Nat := field a 32 12
/-- The module that an access asks. -/
def MemOp.module (m : MemOp) : Nat :=
  match m.space with
  | 2 => sprModule m.addr
  | 3 => hModule m.addr
  | _ => field m.addr 52 12

/-- The global core number of an SPR address. -/
def sprCore (a : Word) : Nat := 64 * field a 27 5 + field a 21 6
/-- The offset of an SPR address in its core's scratchpad. -/
def sprOffset (a : Word) : Nat := field a 0 21

/-- An access lies within a scope as core `c` sees it (R126). -/
def State.inScope (s : State) (c scope : Nat) (m : MemOp) : Bool :=
  let own := sprModule m.addr = s.hub.module
  match m.space with
  | 1 => true
  | 2 =>
    match scope with
    | 0 => own && sprCore m.addr = c
    | 1 => own && sprCore m.addr / 4 = c / 4
    | 2 => own && sprCore m.addr / 64 = c / 64
    | 3 => own
    | _ => true
  | 4 => 4 ≤ scope || (scope = 3 && field m.addr 52 12 = s.hub.module)
  | _ => 3 ≤ scope

/-- A store to a tile that is DRAINING is held, and with it every later access of its strand (R211, R249). -/
def Core.heldStore (c : Core) (m : MemOp) : Bool :=
  let tile := c.tile (m.addr.toNat / 4096)
  m.space == 1 && tile.state == 3 && match m.kind with
    | .store _ => true
    | .vst _ => true
    | .tseal _ => true
    | .tdrop _ => true
    | _ => false

/-- The accesses of a strand that are older than one of its words. -/
def Core.older (c : Core) (k : StrandId) (tok : Nat) : List MemOp := c.mops.filter fun x => x.strand == k && x.tok < tok

/-- An access is the oldest of its strand that can still fault: it retires, and its faults are reported (R123, R379). -/
def Core.retires (c : Core) (m : MemOp) : Bool := (c.older m.strand m.tok).all MemOp.posted

/-- A plain load of tile bytes is an acquire over the lines whose presence it observed, like a load with ORD = 1 (R126, R135). -/
def MemOp.acquires (m : MemOp) : Bool :=
  m.ord == 1 || match m.kind with
    | .load .. => m.space == 1 || m.space == 2
    | .vld _ => true
    | .mkld _ => true
    | _ => false

/-- An access that can no longer fault: a posted one, or a plain store whose check has passed (R398). -/
def MemOp.safe (m : MemOp) : Bool :=
  m.posted || match m.kind with
    | .store _ => m.space == 1 || !m.segs.isEmpty
    | .vst _ => true
    | .tseal _ => true
    | .tdrop _ => true
    | _ => false

/-- Loads performed ahead of their retirement: at most the 2,048 oldest of a core (R123), and none behind a load of their strand
that has been replayed 16 times in a row (R409). -/
def Core.ahead (c : Core) (m : MemOp) : Bool :=
  m.effect || decide ((c.mops.filter fun x => !x.effect && decide (x.tok < m.tok)).length < 2048) &&
    (sget 0 c.replays m.strand.index < 16 || !(c.older m.strand m.tok).any fun x => !x.effect)

/-- An access may be sent or performed as far as its own strand goes (R119 to R126, R135): no earlier acquire and no held store of
its strand is outstanding, its effect follows every earlier access that can still fault, ordinary accesses follow one another,
accesses to one target follow one another, a release follows every access in its scope, and what a bundle puts before it is
done. -/
def State.mayEnter (s : State) (c : Nat) (m : MemOp) : Bool :=
  let k := s.core c
  k.ahead m &&
  (m.fabric || m.after.all fun t => k.mops.all fun x => x.tok != t) &&
  (k.older m.strand m.tok).all fun x =>
    !x.acquires && !k.heldStore x && (x.safe || !m.effect) && (m.fabric || x.fabric || x.posted) &&
    !(m.fabric && x.fabric && x.target == m.target) && !(m.ord = 2 && s.inScope c m.scope x)

/-- The accesses that the add of a `cadd` follows have been performed (R127). -/
def State.addReady (s : State) (a : Add) : Bool :=
  match a.src with
  | none => true
  | some (c, k, t) => ((s.core c).older k t).all fun m => m.fabric && m.posted && !s.inScope c (hScope a.handle) m

/-- Where an add goes: to a die of this module, or to another module (R333). -/
def State.addTarget (s : State) (a : Add) : Nat × Nat :=
  if hModule a.handle = s.hub.module then (hModule a.handle, if hScope a.handle ≤ 2 then hDie a.handle else 16)
  else (hModule a.handle, 0)

/-- Where the requests of an access go: through the core's fabric port to a die of this module, its pod window, or another module,
or, in space 2, through its Welt engine to a tile; ordinary accesses of spaces 0 and 1 send none (R125, R333, R337). -/
def State.streamOf (s : State) (m : MemOp) : Option (Nat × Nat) :=
  if m.space < 2 then none
  else if m.space = 2 then some (m.module, 128 + m.addr.toNat / 4096)
  else if m.module ≠ s.hub.module then some (m.module, 0)
  else some (m.module, if m.space = 4 then 64 else if hScope m.addr ≤ 2 then hDie m.addr else 16)

/-- Nothing that a core's fabric port sent before, to the same die or module, is still on its way (R333, R337). The port sends what
its strands post in the order of issue, each as soon as its own strand lets it go (DESIGN CHOICE, log 83). -/
def State.portClear (s : State) (c : Nat) (stream : Option (Nat × Nat)) (k : StrandId) (tok : Nat) : Bool :=
  stream.isNone ||
    (((s.core c).mops.all fun x => tok ≤ x.tok || s.streamOf x != stream || (x.strand != k && !s.mayEnter c x)) &&
      s.adds.all fun a => some (s.addTarget a) != stream || !s.addReady a || !a.src.any fun p =>
        p.1 == c && decide (p.2.2 < tok))

/-- An access may be performed now: its own strand lets it, and so does the stream that it belongs to (R119 to R126, R333). -/
def State.mayPerform (s : State) (c : Nat) (m : MemOp) : Bool :=
  s.mayEnter c m && s.portClear c (s.streamOf m) m.strand m.tok

/-! ## Faults that an access meets as things stand (R379, R398 to R406, R412) -/

/-- The fault-info parameter of an access without permissions (R396). -/
def plainFault (synd : Nat) (addr : Word) (module : Nat) : MemFault := ⟨synd, addr, 0, false, 0, module⟩

/-- The fault in which the coalesced walk ended that an access waited for (R105, R400). -/
def MemOp.walkFault (m : MemOp) (module : Nat) : Option MemFault :=
  m.walk.map fun w => match w.perm with
    | some h => ⟨PERM, m.addr, w.level, false, h, module⟩
    | none => ⟨XLATE, m.addr, w.level, w.malf, 0, module⟩

/-- ACC and NEED of an access (R106, R396). -/
def MemOp.accNeed (m : MemOp) : Nat × Nat :=
  match m.kind with
  | .load .. => (0, PR)
  | .amo .. => (2, PATOM)
  | .red .. => (3, PATOM)
  | .vld _ => (8, 0)
  | .mkld _ => (0, 0)
  | _ => (1, PW)

/-- A space-2 access of this module's tiles is refused: the target core is not ready, or has no such tile (R412). -/
def State.refuses2 (s : State) (a : Word) : Bool :=
  !s.isReady (coreUnit (sprCore a)) || (s.core (sprCore a)).tileCount ≤ sprOffset a / 4096

/-- The fault of a space-2 read at its target, as the requester sees it. -/
def State.bad2 (s : State) (a : Word) : Option MemFault :=
  let t := s.core (sprCore a)
  let line := sprOffset a / 128
  if !s.hub.valid then some (plainFault XLATE a s.hub.module)
  else if s.refuses2 a then some (plainFault SPREF a s.hub.module)
  else if (t.tile (line / 32)).present (line % 32) && t.padBad line then
    some (plainFault (if t.padDamaged.contains line then UCE else POISON)
      (a &&& BitVec.ofNat 64 (2 ^ 64 - 128)) s.hub.module)
  else none

/-- The VA that the export table gives a pod address of this module. R98 maps the window page by page and names no size: pages
of 64 KiB (DESIGN CHOICE, log 84). -/
def State.podVa (s : State) (a : Word) : Option Nat :=
  if s.hub.valid then (slook s.hub.exports (field a 16 36)).map fun b => b.toNat + field a 0 16 else none

/-- The check of a pod access at this module (R98, R402): the VA, or the fault with the pod address. -/
def State.podCheck (s : State) (a : Word) (need : Nat) : Except MemFault Nat :=
  match s.podVa a with
  | none => .error ⟨XLATE, a, 0, false, 0, s.hub.module⟩
  | some va =>
    match s.checkPage s.hub.exportAsid s.hub.exportRoot need va with
    | .error f => .error { f with synd := if f.synd = NONCAN then XLATE else f.synd, addr := a }
    | .ok _ => .ok va

/-- A read of these lines meets a mark, or damage that it would mark (R361, R403, R413). -/
def State.badLines (s : State) (l : List (Nat × Nat)) : Bool :=
  (s.firstBadLine l).isSome || l.any fun p => (slook s.reds p.2).any (·.bad)

/-- The part of memory that a space-0 access of at most eight aligned bytes covers: the one held since its check, or the
translation of the moment (R398). -/
def State.mopSegs (s : State) (c : Nat) (m : MemOp) : List Seg :=
  if m.segs.isEmpty then s.segs (s.core c).asid (s.core c).root m.addr.toNat m.len else m.segs

/-- The fault that the translation and check of a space-0 access gives: that of the walk it waited for, or of the moment, unless
its check has passed (R106, R398, R400). -/
def State.mopFault (s : State) (c : Nat) (m : MemOp) : Option MemFault :=
  match m.walkFault s.hub.module with
  | some f => some f
  | none =>
    if m.segs.isEmpty then s.checkRange (s.core c).asid (s.core c).root m.accNeed.2 m.addr.toNat m.len else none

/-- The line of a space-0 access: the VA of its first byte, and its PA. -/
def State.mopLines (s : State) (c : Nat) (m : MemOp) : List (Nat × Nat) :=
  (s.mopSegs c m).map fun g => (m.addr.toNat / 128 * 128, lineOf g.pa)

/-- The loader reads bytes under PX (R38, R106): none on a fault, with the marks that the read leaves. -/
def State.loaderRead (s : State) (asid root va len : Nat) : Option (List Byte) × (State → State) :=
  match s.checkRange asid root PX va len with
  | some _ => (none, id)
  | none =>
    let s1 := s.settleVa asid root va len
    let ls := s1.linesOf asid root va len
    let found := fun (t : State) => (t.settleVa asid root va len).markAll ls (memInfo 0 0 false PX len)
    (if (s1.dataFault ls).isSome then none else some (s1.readVa asid root va len), found)

/-- A load, atomic or store that retires would trap if it were performed as things stand: its strand goes no further, because
whatever it did would be discarded (R379, R400). -/
def State.wouldFault (s : State) (c : Nat) (m : MemOp) : Bool :=
  let k := s.core c
  let reads := match m.kind with
    | .load .. => true
    | .amo .. => true
    | .vld _ => true
    | .mkld _ => true
    | _ => false
  match m.space with
  | 0 =>
    (s.mopFault c m).isSome ||
      (reads && s.badLines (s.mopLines c m))
  | 1 =>
    let line := m.addr.toNat / 128
    reads && (k.tile (line / 32)).present (line % 32) && k.padBad line
  | 2 => sprModule m.addr == s.hub.module && !s.dieDown (dieOf (sprCore m.addr)) && (s.bad2 m.addr).isSome
  | 3 => hModule m.addr == s.hub.module && s.counterBad m.addr
  | _ =>
    field m.addr 52 12 == s.hub.module &&
      match s.podCheck m.addr m.accNeed.2 with
      | .error _ => true
      | .ok va => s.badLines (s.linesOf s.hub.exportAsid s.hub.exportRoot va m.len)

/-- Damage has come to the segment of an overlay load since the `ovl` issued, and strand Q has done nothing since that no discard
undoes: the load traps there (R181, R379). -/
def State.ovlFault (s : State) (c : Nat) (o : OvlLoad) : Bool :=
  decide (sget 0 (s.core c).gave StrandId.q.index ≤ o.tok + 1) &&
    s.badLines ((segLines o.segs).map fun l => (o.src, l))

/-- An overlay load of a core would trap as things stand. -/
def State.ovlFaults (s : State) (c : Nat) : Bool := (s.core c).ovl.any (s.ovlFault c)

/-- A strand has an access that retires, or an overlay load, and it would trap as things stand. -/
def State.doomed (s : State) (c : Nat) (k : StrandId) : Bool :=
  ((s.core c).mops.any fun m => m.strand == k && !m.posted && s.wouldFault c m) || (k == .q && s.ovlFaults c)

end Sys2Proof.Machine
end

