-- ==== Sys2Proof/Machine/Ops.lean ====
section
/-! DEFINITION. The operations every strand word is built from: counters, taking an exception and returning from one,
ending a unit of work, and issuing a word under the checks of R378. -/

namespace Sys2Proof.Machine

/-! ## Counters (R64 to R67) -/

/-- The record place of a counter's store: log die, UKIND, UIDX (R373). -/
def counterUnit (h : Word) : Nat × Nat × Nat :=
  match hScope h with
  | 0 => (hDie h, 0, hUnit h)
  | 1 => (hDie h, 1, hUnit h)
  | 2 => (hDie h, 24, 0)
  | 3 => (16, 20, 0)
  | _ => (16, 24, 0)

/-- The function that serves a counter, where the readiness map has one: its core, its quad's network, or the package's (R65). -/
def counterHolder (h : Word) : Option UnitId :=
  match hScope h with
  | 0 => some (.core (Fin.ofNat 8 (hDie h)) (Fin.ofNat 64 (hUnit h)))
  | 1 => some (.quad (Fin.ofNat 8 (hDie h)) (Fin.ofNat 16 (hUnit h)))
  | 3 => some (.barr 0)
  | _ => none

/-- The function that serves a counter of this module is fenced, and accepts neither adds nor reads (R369). -/
def State.counterDown (s : State) (h : Word) : Bool :=
  hModule h == s.hub.module && (counterHolder h).any fun u => s.hub.fenced.contains u

/-- An add is performed at the counter's store: saturating, with one CNTSAT record at saturation; an add to a poisoned
counter is discarded (R67, R373, R406). -/
def State.performAdd (s : State) (h : Word) (v : Nat) : State :=
  if s.counterBad h then s
  else
    let n := min (s.counter h + v) (2 ^ 64 - 1)
    let s1 := { s with counters := sput s.counters h.toNat n }
    if n = 2 ^ 64 - 1 ∧ !s.satCounters.contains h.toNat then
      let p := counterUnit h
      let s2 : State := { s1 with satCounters := h.toNat :: s1.satCounters }
      if s.silent p.1 p.2.1 p.2.2 then s2 else s2.record p.1 p.1 p.2.1 p.2.2 CNTSAT 0 false false h h
    else s1

/-- A counter add arrives at its holder. An engine's completion add to a poisoned counter is discarded with a record of the engine
that names the handle; its SYND and CLASS are not stated: POISON and C2 (R406; DESIGN CHOICE, log 89). -/
def State.landAdd (s : State) (a : Add) : State :=
  let p := a.sender.place
  if s.counterBad a.handle ∧ a.src.isNone ∧ s.silent p.1 p.2.1 p.2.2 = false then
    s.record p.1 p.1 p.2.1 p.2.2 POISON 2 true false a.handle a.handle
  else s.performAdd a.handle a.value

/-- What stands for no completion counter: no handle has all bits set (R66). -/
def noCounter : Word := BitVec.allOnes 64

/-- The completion counter that a block field names: 0 means none (R183, R235). -/
def blockCounter (h : Word) : Word := if h = 0 then noCounter else h

/-- A sender's completion add goes on its way, if a counter is named (R129, R333). -/
def State.sendAdd (s : State) (by' : Sender) (h : Word) (v : Nat) : State :=
  if h = noCounter then s else { s with adds := s.adds ++ [⟨h, v, none, none, s.now, by'⟩] }

/-- The completion add of an engine of a K-die. -/
def State.postAdd (s : State) (u : UnitId) (h : Word) (v : Nat) : State := s.sendAdd (.unit u) h v

/-- Several completion adds. -/
def State.postAdds (s : State) (u : UnitId) (l : List (Word × Nat)) : State := l.foldl (fun s p => s.postAdd u p.1 p.2) s

/-! ## Loops and transfers (R149, R171, R172) -/

/-- Where a strand continues after the word at `pc` has issued without a transfer, and its loop stack (R171). -/
def afterWord (pc : Nat) : List LoopLevel → Nat × List LoopLevel
  | [] => (pc + 1, [])
  | l :: r =>
    if l.stop = pc then
      if l.count ≤ 1 then afterWord pc r else (l.start, { l with count := l.count - 1 } :: r)
    else (pc + 1, l :: r)

/-- The loop stack after a taken transfer: every level whose body the target leaves ends (R172). -/
def afterTransfer (target : Nat) (ls : List LoopLevel) : List LoopLevel :=
  ls.dropWhile fun l => target < l.start || l.stop < target

/-- A TCB's entry or end drain names an accumulator (R62). -/
def tcbNames (tcb : List Byte) (n : Nat) : Bool :=
  let b := fun i => (tcb.getD i 0).toNat
  ((List.range (b 5)).any fun e => b (0x80 + 16 * e + 2) % 4 == n) ||
  (List.range (b 7)).any fun k => b (0x40 + 16 * k + 2) % 4 == n

/-- An array-queue entry targets an accumulator (R62). -/
def ArrOp.targets (o : ArrOp) (n : Nat) : Bool :=
  match o with
  | .mma _ a _ _ _ _ => a == n
  | .mzero a => a == n
  | .mdrain a _ _ _ => a == n
  | .trgo tcb _ _ _ => tcbNames tcb n
  | _ => false

/-- A core that is being saved or restored stands still: its pending writes keep their remaining counts (R148, R318). -/
def Work.stands : Work → Bool
  | .saving .. => true
  | .restoring .. => true
  | _ => false

/-! ## Ending a unit of work (R327, R370, R387) -/

/-- Completion adds that the engine queues of a core, a treadle run's entry among them, withhold when it is stopped. -/
def Core.withheld (c : Core) : List (Word × Nat) :=
  let ends := fun (tcb : List Byte) => blockCounter (BitVec.ofNat 64 (ofBytes ((tcb.drop 8).take 8)))
  (c.arr.filterMap fun e =>
    match e.op with
    | .trgo tcb _ _ _ => some (ends tcb, 2 ^ 32)
    | _ => e.follow.map fun h => (h, 2 ^ 32)) ++
  (c.welt.map fun w => (w.k, 2 ^ 32)) ++
  (c.awlq.flatMap fun p => p.2.map fun r => (r.k, 2 ^ 32))

/-- A core's fixed-latency writes are completed (R148, R327). -/
def Core.landAll (c : Core) : Core := { c.fixed.foldl Core.landFixed c with fixed := [] }

/-- A strand that has stopped. -/
def Strand.stopped (t : Strand) : Strand := { t with running := false, loops := [], aside := [], block := .none, asideBlock := .none, join := none }

/-- A word that has issued stays issued when its core stops (R42, R327): a store to the core's own tiles is written. -/
def Core.landStores (c : Core) : Core :=
  c.mops.foldl (fun c m => match m.kind with
    | .store bs => if m.space = 1 then c.padWrite m.addr.toNat bs else c
    | .vst bs => c.padWrite m.addr.toNat bs
    | _ => c) c

/-- Accesses of a stopped core that are performed all the same (R42, R327): posted ones, and stores and atomics whose check has
passed. They report no fault, and nothing holds them back any more. -/
def MemOp.orphaned (m : MemOp) : Option MemOp :=
  let goes := m.posted || match m.kind with
    | .store _ => m.space == 0 && !m.segs.isEmpty
    | .amo .. => m.space == 4 || !m.segs.isEmpty
    | _ => false
  if goes then some { m with orphan := true, after := [] } else none

/-- The engine queues and the strands of a stopped core (R327). -/
def Core.cleared (c : Core) : Core :=
  let c := c.landAll.landStores
  { c with
    q := c.q.stopped, v := c.v.stopped, m := c.m.stopped, l := c.l.stopped
    vars := [], sprs := [], popLog := [], trapLog := [], barrier := [], gave := [], replays := []
    mops := c.mops.filterMap MemOp.orphaned
    arr := [], run := none, preq := none, yielded := false, lost := none, welt := [], awlq := [], ovl := []
    tiles := [], vec := {}, acc := [], w0 := {}, w1 := {}, traps := [], deferred := [] }

/-- A context command of a stopped core: its add is not made, or made as 2^32; unread sources make it bare (R327, R387). -/
def CtxCmd.stop (k : CtxCmd) (lost : Bool) : CtxCmd :=
  { k with noAdd := !lost, lost := lost, bare := k.bare || ((k.op = 0x28 || k.op = 0x29) && k.src.isNone) }

/-- Stop a core's work: nothing more issues, its queues are treated as R327 states, and with `lost` each add withheld is
made as 2^32 (R370, R387). A Welt line that was refused is sent no more (R411). -/
def State.stopCore (s : State) (c : Nat) (lost : Bool) : State :=
  let k := s.core c
  let s1 := if lost then s.postAdds (coreUnit c) k.withheld else s
  let s2 := s1.setCore c k.cleared
  { s2 with
    arrivals := s2.arrivals.filter fun a => !(a.core = c && a.refused.isSome && k.welt.any fun w => a.cmd == some w.tok)
    cmds := s2.cmds.map fun m => if m.core = c ∧ !m.noAdd ∧ !m.lost then m.stop lost else m }

/-- An iteration ends, is lost, or is stopped by a CANCEL (R41, R326, R370, R387); its core, if named, is not free yet (R184). -/
def KDie.loseIteration (d : KDie) (core : Option Nat) (id linear : Nat) (lost stopped : Bool) : KDie :=
  { d with recs := d.recs.map fun r =>
      if r.id = id then
        { r with running := r.running.filter (fun p => p.2 ≠ linear), ended := r.ended + 1,
                 draining := r.draining ++ core.toList,
                 lost := r.lost || lost, stopped := r.stopped || stopped }
      else r }

/-- A lineage is at least as deep as a CANCEL's and equal to it on its levels (R268). -/
def Lineage.level (l : Lineage) (k : Nat) : Nat := field (if k < 8 then l.lo else l.hi) (8 * (k % 8)) 8

/-- A CANCEL's lineage matches another: at least as deep, and equal on its own levels (R268). -/
def Lineage.covers (p l : Lineage) : Bool := p.depth ≤ l.depth && (List.range p.depth).all fun k => p.level k == l.level k

/-- One of the retained lineages matches. -/
def coveredBy (ps : List Lineage) (l : Lineage) : Bool := ps.any fun p => p.covers l

/-- The current lineage of a core (R69). -/
def Core.lineage (c : Core) : Lineage := ⟨field c.ctx 32 5, c.lineageLo, c.lineageHi⟩

/-- A record of a K-die by its identity. -/
def KDie.rec? (d : KDie) (id : Nat) : Option NestRec := d.recs.find? fun r => r.id == id

/-- The iteration of a core matches a CANCEL: by the core's current lineage, or by its record's (R42, R325). -/
def State.matched (s : State) (c : Nat) (p : Lineage) : Bool :=
  let k := s.core c
  let byRec := fun (id : Nat) => ((s.kdie (dieOf c)).rec? id).any fun r => p.covers r.lin
  match k.work with
  | .iteration id _ => p.covers k.lineage || byRec id
  | .saving id _ _ => p.covers k.lineage || byRec id
  | .restoring id _ _ => p.covers k.lineage || byRec id
  | _ => false

/-- A CANCEL that matches a core's work has arrived at its die: the core stops, and takes no engine trap before (R388, R437). -/
def State.cancelDue (s : State) (c : Nat) : Bool := (s.kdie (dieOf c)).cancels.any fun j => s.matched c j.lin

/-- Every iteration of a record has ended and each of their cores has become free (R184), and no CANCEL matches it, whose purge
makes its add (R326). -/
def KDie.over (d : KDie) (r : NestRec) : Bool :=
  r.total ≤ r.ended && r.running.isEmpty && r.draining.isEmpty && r.saved.isEmpty && !coveredBy d.prefixes r.lin

/-- What END receives: 2^48 where an iteration was stopped by a CANCEL, 2^32 where one was lost, else 1 (R184, R326, R370). -/
def NestRec.endValue (r : NestRec) : Nat := if r.stopped then 2 ^ 48 else if r.lost then 2 ^ 32 else 1

/-- Records whose iterations have all ended leave the walker with their END adds (R184, R316). -/
def State.settleRecs (s : State) (d : Nat) : State :=
  let k := s.kdie d
  (s.setKdie d { k with recs := k.recs.filter fun r => !k.over r }).postAdds (.nest (Fin.ofNat 8 d))
    ((k.recs.filter k.over).map fun r => (r.endH, r.endValue))

/-- A core is free, with every effect of its work performed: no record waits for it any more (R40, R129, R184). -/
def State.released (s : State) (c : Nat) : State :=
  let d := s.kdie (dieOf c)
  (s.setKdie (dieOf c) { d with recs := d.recs.map fun (r : NestRec) =>
    { r with draining := r.draining.filter (· ≠ c) } }).settleRecs (dieOf c)

/-- The load of an image is lost with a core's fence (R370). -/
def State.loseLoad (s : State) (c synd : Nat) : State :=
  let k := s.core c
  if k.loading then s.setCore c { k with work := .draining, loading := false, mbox := { k.mbox with state := 5, synd := synd } } else s

/-- The unit of work of a core is lost with a syndrome: a launch ends in STATE 5, an iteration is lost (R370, R387). A load that
was accepted after the strands of an iteration had stopped goes on (R37, R38). -/
def State.loseWork (s : State) (c synd : Nat) : State :=
  let k := s.core c
  match k.work with
  | .launch =>
    s.setCore c { k with work := .draining, mbox := { k.mbox with state := 5, synd := synd } }
  | .iteration id linear =>
    ((s.setCore c { k with work := .draining }).setKdie (dieOf c)
      ((s.kdie (dieOf c)).loseIteration (some c) id linear true false)).settleRecs (dieOf c)
  | _ => s

/-- A unit of work is abandoned with a syndrome (R387). -/
def State.abandon (s : State) (c synd : Nat) : State := (s.stopCore c true).loseWork c synd

/-- A core is fenced: its work is lost, with a FENCED record for each loss, and it holds no image (R40, R369, R370). -/
def State.fenceCore (s : State) (c synd : Nat) (info : Word) : State :=
  let k := s.core c
  let linear := match k.work with
    | .iteration _ n => n
    | .saving _ n _ => n
    | .restoring _ n _ => n
    | _ => 0
  let had := k.loading ∨ k.work ≠ .idle ∧ k.work ≠ .draining
  let s1 := s.fenceUnit (coreUnit c) synd 0 info
  let s2 := ((s1.stopCore c true).loseWork c FENCED).loseLoad c FENCED
  let d := s2.kdie (dieOf c)
  let gone := fun (id n a : Nat) =>
    ((s2.setCore c { s2.core c with work := .draining }).setKdie (dieOf c)
      { d.loseIteration (some c) id n true false with areas := d.areas.filter (· ≠ a) }).settleRecs (dieOf c)
  let s3 := match k.work with
    | .saving id n a => gone id n a
    | .restoring id n a => gone id n a
    | _ => s2
  let s4 := s3.setCore c { s3.core c with loaded := false, frozen := none }
  if had then
    s4.coreRecord c FENCED 4 true false 0 (BitVec.ofNat 64 (field k.ctx 0 24 + 2 ^ 24 * (linear % 2 ^ 24)))
  else s4

/-! ## Taking an exception and returning from one (R379, R382 to R387) -/

/-- EN of %tvec. -/
def TrapRegs.en (t : TrapRegs) : Bool := bitOf t.vec.toNat 0
/-- ENTRY of %tvec. -/
def TrapRegs.entry (t : TrapRegs) : Nat := field t.vec 1 15
/-- INH of %tcause. -/
def TrapRegs.inh (t : TrapRegs) : Bool := bitOf t.cause.toNat 8

/-- %tcause at handler entry (R385). -/
def causeWord (synd : Nat) (past : Bool) : Word := BitVec.ofNat 64 (synd + 256 + if past then 512 else 0)

/-- The first cycle in which every pending fixed-latency write of a strand has landed (R148, R379). -/
def Core.settled (c : Core) (k : StrandId) : Nat :=
  (c.fixed.filter fun w => w.strand == k).foldl (fun n w => max n w.land) 0

/-- The word at a strand's program counter. -/
def Core.fetch (c : Core) (k : StrandId) : W32 := sget 0 c.imem (c.strand k).pc

/-- A strand enters its handler (R385): the trap state is written, the loop stack set aside, and the handler's first word is
ready no earlier than 2 cycles later and after the strand's pending writes. -/
def Core.enterHandler (c : Core) (k : StrandId) (synd : Nat) (addr info : Word) (epc : Nat) (past : Bool) (word : W32) :
    Core :=
  let t := c.strand k
  { c with acted := true }.setStrand k
    { t with
      pc := t.trap.entry
      readyAt := max (c.cycle + 2) (c.settled k)
      aside := t.loops
      loops := []
      asideBlock := t.block
      block := .none
      join := none
      trap := { t.trap with
        cause := causeWord synd past
        epc := BitVec.ofNat 64 epc
        word := word.setWidth 64
        addr := addr
        info := info } }

/-- The unit of work is to be abandoned at the next bundle boundary (R387); of several syndromes the first is the one
(log 62). -/
def Core.lose (c : Core) (synd : Nat) : Core := { c with lost := some (c.lost.getD synd) }

/-- A strand that cannot enter its handler issues nothing more (R387). -/
def Core.loseAt (c : Core) (k : StrandId) (synd : Nat) : Core :=
  ({ c with acted := true }.setStrand k { c.strand k with readyAt := c.cycle + 1 }).lose synd

/-- A strand takes a trap (R385, R387): the handler with EN = 1 and INH = 0, and otherwise the unit of work is abandoned at the
next bundle boundary. Codes of class C3 leave a record with TRAP (R363, R397). An engine trap is never a double trap (R420). -/
def State.trapWith (s : State) (c : Nat) (k : StrandId) (synd : Nat) (addr info : Word) (recAddr : Option Word) (epc : Nat)
    (past : Bool) (word : W32) : State :=
  let s1 := match recAddr with
    | some a => if 8 ≤ synd then s.coreRecord c synd 3 false true a info else s
    | none => s
  let core := s1.core c
  let t := (core.strand k).trap
  if t.en ∧ !t.inh then s1.setCore c (core.enterHandler k synd addr info epc past word)
  else s1.setCore c (core.loseAt k synd)

/-- An engine trap of a strand is due: at its next word the strand does nothing else (R418). -/
def Core.trapDue (c : Core) (k : StrandId) : Bool :=
  c.traps.any fun t => t.strand == k && t.due ≤ c.cycle && !(c.strand k).trap.inh

/-- The strand being run takes a trap at its word (R378, R379). -/
def State.trapHere (s : State) (synd : Nat) (addr info : Word) (recAddr : Option Word) (stage1 : Bool) : State :=
  let c := s.here
  let pc := (c.strand s.cur.strand).pc
  let word := if synd = IRANGE then 0 else c.fetch s.cur.strand
  { s.trapWith s.cur.core s.cur.strand synd addr info recAddr pc false word with status := .trapped stage1 [] [] }

/-- What holds a strand back again after its handler: the word it continues at places its own markers anew (R385). -/
def resumedBlock : Block → Block
  | .fence .. => .none
  | b => b

/-- The return of R386, in the cycle after the write of 1 to %tret: INH clears, the loop stack is restored and the strand
continues at %tepc. -/
def Core.returnFrom (c : Core) (k : StrandId) : Core :=
  let t := c.strand k
  c.setStrand k
    { t with
      pc := field t.trap.epc 0 15
      readyAt := max t.readyAt (c.cycle + 1)
      loops := t.aside
      aside := []
      block := resumedBlock t.asideBlock
      asideBlock := .none
      trap := { t.trap with cause := t.trap.cause &&& BitVec.ofNat 64 (2 ^ 64 - 1 - 256) } }

/-! ## Offences (R384) -/

/-- The order of reporting: word offences first, then the lowest BIT, POS and REASON. -/
def offenceBefore (a b : Offence) : Bool :=
  let key := fun (o : Offence) => (((if o.val then 1 else 0) * 64 + o.bit) * 65536 + o.pos.getD 0) * 16 + o.reason
  key a < key b

/-- The offence that is reported. -/
def firstOffence : List Offence → Option Offence
  | [] => none
  | o :: r =>
    match firstOffence r with
    | none => some o
    | some p => some (if offenceBefore p o then p else o)

/-- The order in which stage 3 reports (R378): value offences before offences of the state. -/
def stage3 (l : List Offence) : List Offence :=
  match l.filter (·.val) with
  | [] => l
  | v => v

/-- %tinfo for ILLOP (R384). -/
def offenceInfo (o : Offence) : Word :=
  BitVec.ofNat 64 (o.bit + (if o.val then 32 else 0) + (if o.pos.isSome then 64 else 0) + 256 * o.reason +
    65536 * o.pos.getD 0)

/-! ## Issuing a word (R31, R144 to R149, R378) -/

/-- A place that a word names: a scalar register or a V operand. -/
inductive Loc where
  | x (r : Nat)
  | vec (code : Nat)
  deriving DecidableEq, Repr

/-- One operand of a word, in the order of the assembly form (R383): its place, whether it is read and written, and the
lowest bit of its field. -/
structure Acc where
  loc : Loc
  rd : Bool
  wr : Bool
  bit : Nat
  deriving DecidableEq, Repr

/-- A trap that a word takes as it would issue: syndrome, %taddr, %tinfo, and ADDR of its record. -/
structure TrapInfo where
  synd : Nat
  addr : Word
  info : Word
  /-- ADDR of the record, none where the trap writes no record of its own -/
  recAddr : Option Word
  /-- key of the deferred slot that it clears (R408) -/
  slot : Option Nat := none
  deriving DecidableEq, Repr

/-- What issuing a word needs, and what it does. -/
structure Plan where
  /-- operands in assembly order -/
  accs : List Acc := []
  /-- offences of the word's bits: stage 1 -/
  bits : List Offence := []
  /-- further conditions of readiness that do not hold -/
  waits : List Wait := []
  /-- latency of a fixed-latency result (R145) -/
  lat : Option Nat := none
  /-- offences of values and of the state: stage 3 -/
  checks : List Offence := []
  /-- a function that the word names and that is not ready (R372) -/
  notReady : Option UnitId := none
  /-- a fault of translation, permission or data found at issue (R398) -/
  fault : Option TrapInfo := none
  /-- marks and records that the word's own reads leave, whether it then traps or issues (R403) -/
  found : State → State := id
  /-- the word transfers control to this index (R149) -/
  target : Option Nat := none
  /-- the word's own effect, after its pops and after the program counter has moved on -/
  go : State → State := id

/-- Read operand. -/
def rdx (r bit : Nat) : Acc := ⟨.x r, true, false, bit⟩
/-- Written operand. -/
def wrx (r bit : Nat) : Acc := ⟨.x r, false, true, bit⟩
/-- An operand field that a word names without using it (R51). -/
def namedx (r bit : Nat) : Acc := ⟨.x r, false, false, bit⟩
/-- Read V operand. -/
def rdv (c bit : Nat) : Acc := ⟨.vec c, true, false, bit⟩
/-- Written V operand. -/
def wrv (c bit : Nat) : Acc := ⟨.vec c, false, true, bit⟩

/-- The offences of operands that name the strand's own alias (R51). -/
def aliasOffences (k : StrandId) (l : List Acc) : List Offence :=
  l.filterMap fun a =>
    match a.loc with
    | .x r => if aliasOf r = some k then some ⟨a.bit, false, none, 4⟩ else none
    | .vec _ => none

/-- The partners whose queues a word pops, each once (R52). -/
def popsOf (l : List Acc) : List StrandId :=
  (l.filterMap fun a => match a.loc with
    | .x r => if a.rd then aliasOf r else none
    | .vec _ => none).eraseDups

/-- The partners to whose queues a word pushes. -/
def pushesOf (l : List Acc) : List StrandId :=
  (l.filterMap fun a => match a.loc with
    | .x r => if a.wr then aliasOf r else none
    | .vec _ => none).eraseDups

/-- Two places share a register or an element. -/
def locOverlap : Loc → Loc → Bool
  | .x a, .x b => a == b && a != 0 && (aliasOf a).isNone
  | .vec a, .vec b => vecOverlap a b
  | _, _ => false

/-- The places that a result writes; a 32-lane result also writes `lat` (R56). -/
def resultLocs : Result → List Loc
  | .x r _ => [.x r]
  | .vec code _ => [.vec code, .vec 8]
  | .mask _ _ => []

/-- An operand meets the destination of a variable-latency result on its way; `lat` is never held back (R145, R199). -/
def Core.interlocked (c : Core) (k : StrandId) (l : List Acc) : Bool :=
  c.vars.any fun v => v.strand == k && v.res.any fun r => (resultLocs r).head?.any fun p =>
    l.any fun a => locOverlap p a.loc

/-- Why a word of a running strand is not ready (R31, R53): its operands, its own conditions and the core's. -/
def Core.waitsOf (c : Core) (k : StrandId) (blocked : Bool) (p : Plan) : List Wait :=
  (if blocked then [.other] else []) ++
  (if c.fixed.any fun w => w.land ≤ c.cycle then [.other] else []) ++
  (if c.interlocked k p.accs then [.other] else []) ++
  ((popsOf p.accs).filterMap fun u => if c.headReady u k then none else some (.pop u)) ++
  ((pushesOf p.accs).filterMap fun u => if c.queueUsed k u < 8 then none else some (.push u)) ++
  p.waits

/-- The word of a strand cannot be looked at yet: the strand is stopped, its delays have not elapsed, the core is frozen,
saving or restoring, an engine trap of the strand is due, or the word is still being loaded by an `ovl` of an earlier cycle
(R144, R149, R181, R359, R418). -/
def Core.notYet (c : Core) (k : StrandId) : Bool :=
  let t := c.strand k
  !t.running || c.cycle < t.readyAt || c.frozen.isSome || c.trapDue k ||
  (match c.work with
    | .saving .. => true
    | .restoring .. => true
    | _ => false) ||
  c.ovl.any fun o => o.cycle < c.cycle && o.dest ≤ t.pc && t.pc < o.dest + o.count

/-- What the scoreboard finds of a place: the lane, and KIND, INDEX, REMAIN and WAW of %tinfo (R383). -/
structure Conflict where
  lane : Nat
  kind : Nat
  index : Nat
  remain : Nat
  waw : Bool
  deriving DecidableEq, Repr

/-- A scoreboard conflict of a place that is read or written with one pending write (R147, R383): the lowest lane. -/
def conflictAt (c : Core) (lat : Option Nat) (rd wr : Bool) (p : Loc) (w : FixedWrite) : Option Conflict :=
  let waw := wr && lat.any fun n => c.cycle + n ≤ w.land
  if !(rd || waw) then none
  else
    (resultLocs w.res).findSome? fun q =>
      match p, q with
      | .x r, .x t => if r = t ∧ r ≠ 0 ∧ (aliasOf r).isNone then some ⟨0, 0, r, w.land - c.cycle, waw⟩ else none
      | .vec u, .vec t => (List.range 32).findSome? fun i =>
          if (List.range 32).any fun j => vecPlace u i == vecPlace t j then
            let e := vecPlace u i
            some ⟨i, if e < 1024 then 3 else if e = 1032 then 2 else 1, if e < 1024 then e else if e = 1032 then 0 else e - 1024,
              w.land - c.cycle, waw⟩
          else none
      | _, _ => none

/-- The conflict in the lowest lane, the first of a list among equals. -/
def lowestLane : List Conflict → Option Conflict
  | [] => none
  | x :: r =>
    match lowestLane r with
    | some y => some (if y.lane < x.lane then y else x)
    | none => some x

/-- The conflict of one operand field: at its own place, and else, for a written V operand, at `lat`, which its result also
writes (R56, R147). -/
def fieldConflict (c : Core) (lat : Option Nat) (pend : List FixedWrite) (a : Acc) : Option Conflict :=
  let own := lowestLane (pend.filterMap (conflictAt c lat a.rd a.wr a.loc))
  match a.loc with
  | .vec _ => own <|> lowestLane (pend.filterMap (conflictAt c lat false a.wr (.vec 8)))
  | .x _ => own

/-- %tinfo of the conflict that the checking scoreboard reports: the first operand field, and in it the lowest lane
(R147, R383). -/
def Core.conflict (c : Core) (k : StrandId) (p : Plan) : Option Word :=
  let pend := c.fixed.filter fun w => w.strand == k && c.cycle < w.land
  (p.accs.findSome? (fieldConflict c p.lat pend)).map fun x =>
    BitVec.ofNat 64 (x.kind + 8 * x.index + 8192 * x.remain + if x.waw then 65536 else 0)

/-- EN of %sbcheck. -/
def Core.sbcheckOn (c : Core) : Bool := bitOf c.sbcheck.toNat 0

/-- %tinfo for NOTRDY (R383). -/
def notReadyInfo (u : UnitId) : Word :=
  let p := unitOf u
  BitVec.ofNat 64 (p.1 + 256 * p.2.1 + 65536 * p.2.2)

/-- The strand moves past its word: the token is spent, the next word waits for the stall count or the transfer (R144,
R149), and the loop stack follows (R171, R172). -/
def Core.advance (c : Core) (k : StrandId) (wc : Nat) (target : Option Nat) : Core :=
  let t := c.strand k
  let c := { c with seq := c.seq + 1, acted := true }
  match target with
  | some a =>
    let ls := afterTransfer a t.loops
    c.setStrand k { t with pc := a, readyAt := c.cycle + 2 + wc, loops := ls, join := none, block := .none }
  | none =>
    let n := afterWord t.pc t.loops
    c.setStrand k { t with pc := n.1, readyAt := c.cycle + 1 + wc, loops := n.2, join := none, block := .none }

/-- Every command of the masked engine queues older than a marker has its effects (R48, R131). -/
def State.fenceDone (s : State) (c : Nat) (k : StrandId) (mask tok : Nat) : Bool :=
  let core := s.core c
  (!bitOf mask 0 || (core.welt.all (fun w => tok ≤ w.tok) && core.mops.all fun m => m.space ≠ 2 || tok ≤ m.tok)) &&
  (!bitOf mask 1 || (core.arr.all (fun e => tok ≤ e.tok) && core.run.all (fun r => tok ≤ r.tok) &&
    core.welt.all fun w => w.op ≠ 0x25 || tok ≤ w.tok)) &&
  (!bitOf mask 2 || (core.mops.all (fun m => m.space ≠ 4 || tok ≤ m.tok) &&
    s.adds.all fun a => match a.src with
      | some (c', _, t) => c' ≠ c || hModule a.handle = s.hub.module || tok ≤ t
      | none => true)) &&
  (!bitOf mask 3 || s.cmds.all fun m => m.core ≠ c || tok ≤ m.tok) &&
  (!bitOf mask 4 || ((sget [] core.awlq k.index).all (fun r => tok ≤ r.tok) &&
    (s.kdie (dieOf c)).awl.runs.all fun r => r.src ≠ some (c, k) || tok ≤ r.req.tok))

/-- What an instruction left the strand waiting for has not come yet (R174 to R176, R194 to R196, R224, R244, R254). -/
def State.blocked (s : State) (c : Nat) (k : StrandId) : Bool :=
  let core := s.core c
  match (core.strand k).block with
  | .none => false
  | .counter h v _ _ => s.counter h < v.toNat || s.counterDown h
  | .barrier .. => true
  | .remote .. => true
  | .fence .. => false
  | .accum n cyc => (core.arr.any fun e => e.entered < cyc && e.op.targets n) ||
      core.run.any fun r => r.entered < cyc && tcbNames r.tcb n
  | .treadle => core.run.isSome || core.arr.any fun e => match e.op with
      | .trgo .. => e.started
      | _ => false
  | .tile t => (sget {} core.tiles t).state ≠ 2
  | .result tok => core.vars.any fun v => v.strand == k && v.tok == tok
  | .drained pend => pend.any fun p => ((s.core p.1).welt.any fun w => w.tok == p.2) ||
      ((s.core p.1).arr.any fun e => e.tok == p.2) || ((s.core p.1).mops.any fun m => m.tok == p.2) ||
      (s.cmds.any fun k => k.core == p.1 && k.tok == p.2) || s.colls.any fun k => k.core == p.1 && k.tok == p.2
  | .writeBacks tok => s.wbs.any fun w => w.tok == tok
  | .collective tok => (s.colls.drop 16).any fun w => w.core == c && w.tok == tok

/-- A wait that ends in a trap at its own word: the counter's store is poisoned (R66, R406). -/
def State.waitTrap (s : State) (c : Nat) (k : StrandId) : Option (Word × Nat × List LoopLevel) :=
  match ((s.core c).strand k).block with
  | .counter h _ pc ls => if s.counterBad h then some (h, pc, ls) else none
  | _ => none

/-- %tinfo of a trap of a counter wait (R66, R406). -/
def counterInfo (h : Word) : Word := BitVec.ofNat 64 (8 * 2 ^ 32 + hModule h * 2 ^ 20 + 3 * 16)

/-- A trap at an earlier word of a strand: `cwait` or `bar` after it has issued (R66, R406). -/
def State.trapAt (s : State) (c : Nat) (k : StrandId) (synd : Nat) (addr info : Word) (pc : Nat) (ls : List LoopLevel) :
    State :=
  let core := s.core c
  let t := core.strand k
  let s1 := s.setCore c (core.setStrand k { t with pc := pc, loops := ls, block := .none })
  s1.trapWith c k synd addr info (some addr) pc false (sget 0 core.imem pc)

/-- The word of the strand being run issues, its own effect apart: it pops the queues that its operands name, reserves the
entries that it pushes, and the strand moves past it (R52, R53, R144, R149, R171). -/
def State.moved (s : State) (h : Hdr) (accs : List Acc) (target : Option Nat) : State :=
  let k := s.cur.strand
  let c1 := (popsOf accs).foldl (fun c u => c.popQueue k s.here.seq u) s.here
  let c2 := (pushesOf accs).foldl (fun c u => c.reserve k s.here.seq u) c1
  s.setHere (c2.advance k h.wc.val target)

/-- The strand being run takes a trap of stage 3: the queues that its word names are kept, since its bundle may be in a deadlock
all the same (R35, R378). -/
def State.failHere (s : State) (p : Plan) (synd : Nat) (addr info : Word) (recAddr : Option Word) : State :=
  { s.trapHere synd addr info recAddr false with status := .trapped false (popsOf p.accs) (pushesOf p.accs) }

/-- The strand being run tries a word (R378): not looked at yet, an offence of its bits, not ready, a check of the cycle
in which it would issue, or issued. Nothing more shows of a strand with an access at fault before the trap at it (R379). -/
def State.issue (s : State) (h : Hdr) (p : Plan) : State :=
  let k := s.cur.strand
  let c := s.here
  if c.notYet k || s.doomed s.cur.core k then { s with status := .waiting [.other] [] [] }
  else
    match s.waitTrap s.cur.core k with
    | some (a, pc, ls) => { s.trapAt s.cur.core k POISON a (counterInfo a) pc ls with status := .trapped true [] [] }
    | none =>
    match firstOffence (s.cur.format ++ p.bits ++ aliasOffences k p.accs) with
    | some o => s.trapHere ILLOP 0 (offenceInfo o) none true
    | none =>
      match c.waitsOf k (s.blocked s.cur.core k) p with
      | w :: ws => { s with status := .waiting (w :: ws) (popsOf p.accs) (pushesOf p.accs) }
      | [] =>
        match if c.sbcheckOn then c.conflict k p else none with
        | some i => s.failHere p STALL 0 i none
        | none =>
          match firstOffence (stage3 p.checks) with
          | some o => s.failHere p ILLOP 0 (offenceInfo o) none
          | none =>
            match p.notReady with
            | some u => s.failHere p NOTRDY 0 (notReadyInfo u) (some 0)
            | none =>
              match p.fault with
              | some f =>
                let s1 := match f.slot with
                  | some i => s.setHere { c with deferred := sdel c.deferred i }
                  | none => s
                (p.found s1).failHere p f.synd f.addr f.info f.recAddr
              | none =>
                { p.go (p.found (s.moved h p.accs p.target)) with status := .issued (popsOf p.accs) (pushesOf p.accs) }

/-- The word of strand `k` of the core being run tries to issue. -/
def State.issueOn (s : State) (k : StrandId) (h : Hdr) (p : State → Plan) : Host.Outcome State Fault Refusal :=
  let s1 := { s with cur := { s.cur with strand := k } }
  .next (s1.issue h (p s1))

/-- What follows in the same step. -/
def nextMap (f : State → State) : Host.Outcome State Fault Refusal → Host.Outcome State Fault Refusal
  | .next s => .next (f s)
  | o => o

/-- A trap of stage 1 that needs no operand: RSVOP or IRANGE (R378). -/
def State.earlyTrap (s : State) (synd : Nat) : State :=
  let k := s.cur.strand
  if s.here.notYet k || s.doomed s.cur.core k then { s with status := .waiting [.other] [] [] }
  else
    match s.waitTrap s.cur.core k with
    | some (a, pc, ls) => { s.trapAt s.cur.core k POISON a (counterInfo a) pc ls with status := .trapped true [] [] }
    | none => s.trapHere synd 0 0 none true

/-- The token of the word being tried. -/
def State.tok (s : State) : Nat := s.here.seq

/-- The value of a source register of the word being tried. -/
def State.rx (s : State) (r : Nat) : Word := s.here.reg s.cur.strand r

/-- Put a fixed-latency scalar result of latency `n` on its way. -/
def State.writeX (s : State) (tok n r : Nat) (v : Word) : State :=
  s.setHere (s.here.writeIn s.cur.strand tok n (.x r v))

/-- Put a variable-latency result whose value is known on its way. -/
def State.promiseX (s : State) (tok r : Nat) (v : Word) : State :=
  s.setHere (s.here.promise s.cur.strand tok [.x r v] true)

end Sys2Proof.Machine
end

