-- ==== Sys2Proof/Machine/Flags.lean ====
section
/-! DEFINITION. Status words: every special register's value, its writers, the limits of what may be written to it and the
effect of a write (R68 to R72, R177, R223, R382, R386). -/

namespace Sys2Proof.Machine

/-- %coreid of a core (R69). -/
def State.coreId (s : State) (c : Nat) : Word := BitVec.ofNat 64 (c % 64 + 64 * (c / 64) + 2048 * s.hub.module)

/-- %wstate of a core (R60, R69). -/
def Core.wstate (c : Core) : Word := BitVec.ofNat 64 (c.w0.state + 4 * c.w1.state)

/-- The value of special register `n` as strand `k` of core `c` reads it; %dmdq is read by its own pop (R71). -/
def State.spr (s : State) (c : Nat) (k : StrandId) (n : Nat) : Word :=
  let core := s.core c
  let t := core.strand k
  match n with
  | 0x000 => BitVec.ofNat 64 k.index
  | 0x001 => s.coreId c
  | 0x002 => core.joinmask
  | 0x003 => core.sbcheck
  | 0x004 => core.spsplit
  | 0x008 => BitVec.ofNat 64 core.cyc
  | 0x009 => BitVec.ofNat 64 s.now
  | 0x010 => core.ctx
  | 0x011 => core.lineageLo
  | 0x012 => core.lineageHi
  | 0x020 => core.mprog
  | 0x021 => core.tmiss
  | 0x022 => core.tlooka
  | 0x023 => core.tlookd
  | 0x024 => core.wstate
  | 0x030 => t.dmsub
  | 0x040 => t.trap.cause
  | 0x041 => t.trap.epc
  | 0x042 => t.trap.word
  | 0x043 => t.trap.addr
  | 0x044 => t.trap.info
  | 0x045 => t.trap.vec
  | 0x047 => t.trap.scr
  | _ => 0

/-- The writer column (R68, R382): the strand may write the register. -/
def sprWriter (k : StrandId) (n : Nat) : Bool :=
  match n with
  | 0x002 | 0x003 | 0x004 => k == .q
  | 0x020 | 0x021 | 0x022 | 0x023 => k == .m
  | 0x030 | 0x041 | 0x045 | 0x046 | 0x047 => true
  | _ => false

/-- Bits of a register below its reserved field (R69, R70, R382). -/
def sprBits (n : Nat) : Nat :=
  match n with
  | 0x000 => 2
  | 0x001 => 23
  | 0x002 => 4
  | 0x003 => 1
  | 0x004 => 2
  | 0x010 => 37
  | 0x020 => 9
  | 0x021 => 32
  | 0x022 | 0x023 => 6
  | 0x024 => 4
  | 0x030 => 8
  | 0x031 => 28
  | 0x040 => 10
  | 0x041 => 15
  | 0x042 => 32
  | 0x045 => 16
  | 0x046 => 1
  | _ => 64

/-- A written value outside its range (R69, R70, R382). -/
def sprRange (n : Nat) (v : Word) : Bool :=
  match n with
  | 0x020 => 128 < field v 0 8
  | 0x022 | 0x023 => field v 0 6 == 0
  | 0x041 => 24576 ≤ field v 0 15
  | 0x045 => 24576 ≤ field v 1 15
  | _ => false

/-- The state forbids the write (R72, R223, R386). -/
def Core.sprForbidden (c : Core) (k : StrandId) (n : Nat) (v : Word) : Bool :=
  let t := c.strand k
  match n with
  | 0x004 => !(c.welt.isEmpty && c.tiles.all fun p => p.2.state == 0 && p.2.pres == 0)
  | 0x020 => !c.inOpnd || (bitOf v.toNat 8 && v != c.mprog)
  | 0x046 => bitOf v.toNat 0 && !t.trap.inh
  | _ => false

/-- The value and state offences of a write (R384): reserved bits, range, writer column, state. -/
def Core.sprOffences (c : Core) (k : StrandId) (n : Nat) (v : Word) : List Offence :=
  (if v.toNat / 2 ^ sprBits n ≠ 0 then [⟨11, true, none, 2⟩] else []) ++
  (if sprRange n v then [⟨11, true, none, 3⟩] else []) ++
  (if !sprWriter k n || c.sprForbidden k n v then [⟨0, false, none, 7⟩] else [])

/-- A write takes effect (R177). %spsplit takes effect when its own completion lands (R72). -/
def Core.applySpr (c : Core) (w : SprWrite) : Core :=
  let t := c.strand w.strand
  match w.num with
  | 0x002 => { c with joinmask := w.val }
  | 0x003 => { c with sbcheck := w.val }
  | 0x020 => if bitOf w.val.toNat 8 || c.opndHeld then c else { c.dropStopped with mprog := w.val }
  | 0x021 => { c with tmiss := w.val }
  | 0x022 => { c with tlooka := w.val }
  | 0x023 => { c with tlookd := w.val }
  | 0x030 => c.setStrand w.strand { t with dmsub := w.val }
  | 0x041 => c.setStrand w.strand { t with trap := { t.trap with epc := w.val } }
  | 0x045 => c.setStrand w.strand { t with trap := { t.trap with vec := w.val } }
  | 0x046 =>
    if bitOf w.val.toNat 0 then
      (if w.strand = .m then c.resumeStopped else c).returnFrom w.strand
    else c
  | 0x047 => c.setStrand w.strand { t with trap := { t.trap with scr := w.val } }
  | _ => c

/-- The writes of the past cycle take effect, in issue order; those of %spsplit stay until their completion (R72, R177). -/
def Core.applySprs (c : Core) : Core :=
  let now := c.sprs.filter (·.num ≠ 0x004)
  now.foldl Core.applySpr { c with sprs := c.sprs.filter (·.num = 0x004) }

/-- The completion of a %spsplit write sets the new split (R72). The tiles that a larger split adds show the bytes that the pad last
held there, which the spec leaves open (DESIGN CHOICE, log 4). -/
def Core.landSplit (c : Core) (k : StrandId) : Core :=
  match c.sprs.find? fun w => w.num == 0x004 && w.strand == k with
  | some w => { c with spsplit := w.val, sprs := c.sprs.filter fun x => !(x.num = 0x004 && x.strand = k) }
  | none => c

/-- STAT of a boot mailbox (R36). -/
def Mailbox.stat (m : Mailbox) : Word := BitVec.ofNat 64 (m.state + (if m.ref then 8 else 0) + 256 * m.synd)

end Sys2Proof.Machine
end

