-- ==== Sys2Proof/Machine/Operands.lean ====
section
/-! DEFINITION. Operand forms: immediates, policy values, addresses of each space, tiles, counter handles in registers, and
the plans of the words that share a form (R66, R96, R115, R126, R150 to R155, R384). -/

namespace Sys2Proof.Machine

/-- Sign-extend the low `w` bits of a number to an integer. -/
def sx (w n : Nat) : Int := (BitVec.ofNat w n).toInt

/-- Sign-extend the low `w` bits of a number to 64 bits. -/
def sxWord (w n : Nat) : Word := (BitVec.ofNat w n).signExtend 64

/-- One offence of a value, if the condition holds. -/
def val (c : Prop) [Decidable c] (bit reason : Nat) : List Offence := if c then [⟨bit, true, none, reason⟩] else []

/-- One offence of a field of a value, if the condition holds. -/
def valAt (c : Prop) [Decidable c] (bit pos reason : Nat) : List Offence :=
  if c then [⟨bit, true, some pos, reason⟩] else []

/-- One offence of the state, if the condition holds (R378). -/
def forbid (c : Prop) [Decidable c] (bit : Nat) : List Offence := if c then [⟨bit, false, none, 7⟩] else []

/-- A tile field at or beyond the tile count (R72). -/
def Core.tileOffence (c : Core) (t n bit : Nat) : List Offence :=
  if t + n ≤ c.tileCount then [] else [⟨bit, false, none, 6⟩]

/-! ## Control blocks, and the source lines of an APPEND (R267, R277) -/

/-- The number that `n` bytes of a block hold. -/
def num (b : List Byte) (o n : Nat) : Nat := ofBytes ((b.drop o).take n)

/-- Two ranges meet. -/
def meets (a m b n : Nat) : Bool := a < b + n && b < a + m

/-- LAYER. -/
def cbLayer (b : List Byte) : Nat := num b 0 2
/-- GROUP. -/
def cbGroup (b : List Byte) : Nat := num b 2 2
/-- HDIM. -/
def cbHdim (b : List Byte) : Nat := num b 4 2
/-- HEADS. -/
def cbHeads (b : List Byte) : Nat := num b 6 1
/-- NTOK, QROWS or the page index. -/
def cbCount (b : List Byte) : Nat := num b 8 4

/-- Source of an APPEND or QUERY in the core's scratchpad: first byte and length (R267). -/
def ctxSource (op : Nat) (xc : Word) (b : List Byte) : Nat × Nat :=
  if op = 0x28 then (xc.toNat, 4 * cbHeads b * cbHdim b * cbCount b) else (num b 0x10 8, 2 * cbHdim b * cbCount b)

/-- A range of a core's tiles holds a source line of an APPEND of the core whose completion add has not been made (R277). -/
def State.sourceBusy (s : State) (c lo n : Nat) : Bool :=
  s.cmds.any fun k =>
    let x := ctxSource k.op k.xc k.block
    k.core == c && k.op == 0x28 && !k.noAdd && !k.bare && meets (lo / 128 * 128) (n + lo % 128) x.1 ((x.2 + 127) / 128 * 128)

/-- A word that would write such a line breaks a must that names no outcome: an illegal operand use (R4, R277; log 72). -/
def State.sourceOffence (s : State) (c lo n bit : Nat) : List Offence := forbid (s.sourceBusy c lo n = true) bit

/-! ## Transfers (R149, R170) -/

/-- The word index that a transfer at `p` with a signed offset names. -/
def targetOf (p w o : Nat) : Int := (p : Int) + sx w o

/-- The offence of a transfer's own target: stage 1, whether or not it is taken (R378). -/
def targetOffence (t : Int) : List Offence := if t < 0 ∨ 24575 < t then [⟨0, false, none, 3⟩] else []

/-! ## Policy values (R115) -/

/-- SCOPE of a policy value. -/
def polScope (p : Word) : Nat := field p 20 3
/-- SPACE of a policy value. -/
def polSpace (p : Word) : Nat := field p 23 3
/-- ORD of a policy value. -/
def polOrd (p : Word) : Nat := field p 26 2

/-- The illegal policy values (R115, R126), against the field of xp. -/
def policyOffences (p : Word) (bit : Nat) : List Offence :=
  valAt (field p 10 10 < field p 0 10) bit 0 3 ++
  valAt (5 ≤ polScope p) bit 20 1 ++
  valAt (5 ≤ polSpace p) bit 23 1 ++
  valAt (polOrd p = 3) bit 26 1 ++
  valAt (field p 28 4 ≠ 0) bit 28 2 ++
  valAt (field p 28 4 = 0 ∧ field p 32 32 ≠ 0) bit 32 2 ++
  valAt (polSpace p = 4 ∧ polOrd p ≠ 0 ∧ polScope p ≠ 4) bit 20 9

/-- Bits of an address that its space requires to be zero (R96); a VA is checked by translation. -/
def addressOffences (space : Nat) (a : Word) (bit : Nat) : List Offence :=
  match space with
  | 1 => val (field a 21 43 ≠ 0) bit 2
  | 2 => val (field a 44 20 ≠ 0) bit 2 ++ val (7 < field a 27 5) bit 3
  | 3 => handleOffences a bit none
  | _ => []

/-! ## Counter handles in registers (R66, R127) -/

/-- A handle in register field `bit` for a word whose suffix names a scope: R66, R127. -/
def scopedHandle (h : Word) (suffix bit : Nat) : List Offence :=
  handleOffences h bit none ++ val (hScope h ≠ suffix) bit 9

/-- A counter that a core may wait on only where it lies: a core-scope counter of another core, or a quad-, die- or
pkg-scope counter of another module (R66, R175). -/
def State.foreign (s : State) (c : Nat) (h : Word) : Bool :=
  match hScope h with
  | 0 => hModule h != s.hub.module || 64 * hDie h + hUnit h != c
  | 4 => false
  | _ => hModule h != s.hub.module

/-- The completion counter that a register field names: x0 means none (R193, R257). -/
def State.counterReg (s : State) (k : Nat) : Word := if k = 0 then noCounter else s.rx k

/-- The offences of an optional completion counter: x0 means none (R193, R257). -/
def State.optHandle (s : State) (k bit : Nat) : List Offence := if k = 0 then [] else handleOffences (s.rx k) bit none

/-! ## Plans that words share -/

/-- A word that reads registers and writes one fixed-latency scalar result. -/
def State.scalar (s : State) (accs : List Acc) (lat d : Nat) (v : Word) : Plan :=
  let tok := s.tok
  { accs := accs, lat := some lat, go := fun t => t.writeX tok lat d v }

/-- A three-register word (format A) of latency `lat`. -/
def State.alu (s : State) (h : Hdr) (d a b lat : Nat) (f : Word → Word → Word) : State :=
  s.issue h (s.scalar [wrx d 16, rdx a 11, rdx b 6] lat d (f (s.rx a) (s.rx b)))

/-- A unary word of latency 1. -/
def State.alu1 (s : State) (h : Hdr) (d a : Nat) (f : Word → Word) : State :=
  s.issue h (s.scalar [wrx d 16, rdx a 11] 1 d (f (s.rx a)))

/-- A three-register word whose result is interlocked (R145, R167). -/
def State.aluLong (s : State) (h : Hdr) (d a b : Nat) (f : Word → Word → Word) : State :=
  let tok := s.tok
  let v := f (s.rx a) (s.rx b)
  s.issue h { accs := [wrx d 16, rdx a 11, rdx b 6], go := fun t => t.promiseX tok d v }

/-- An immediate word (format I). -/
def State.aluImm (s : State) (h : Hdr) (d a : Nat) (f : Word → Word) : State := s.alu1 h d a f

/-- A conditional branch (R149, R170). -/
def State.branch (s : State) (h : Hdr) (a o : Nat) (taken : Word → Bool) : State :=
  let t := targetOf (s.here.strand s.cur.strand).pc 13 o
  s.issue h { accs := [rdx a 16], bits := targetOffence t, target := if taken (s.rx a) then some t.toNat else none }

end Sys2Proof.Machine
end

