-- ==== Sys2Proof/Machine/Mops.lean ====
section
/-! DEFINITION. Outstanding accesses: posting one, and discarding the work of a strand from one on (R123, R379). -/

namespace Sys2Proof.Machine

/-- The strand whose word is being run. -/
def State.me (s : State) : Strand := s.here.strand s.cur.strand

/-- Replace the strand whose word is being run. -/
def State.setMe (s : State) (t : Strand) : State := s.setHere (s.here.setStrand s.cur.strand t)

/-- Hold the next word of the strand being run. -/
def State.hold (s : State) (b : Block) : State := s.setMe { s.me with block := b }

/-- What the strand being run returns to if its word is discarded. -/
def State.snapshot (s : State) : Snapshot :=
  { strand := s.here.strand s.cur.strand
    vec := s.here.vec
    masks := s.here.masks
    fixed := s.here.fixed.filter fun w => w.strand == s.cur.strand
    cycle := s.here.cycle
    latBy := s.here.latBy }

/-- An access of the strand being run goes on its way; an ordinary one follows what the strand's last bundle puts before it
(R124). -/
def State.postMop (s : State) (m : MemOp) : State :=
  let after := if m.fabric || m.posted then [] else sget [] s.here.barrier m.strand.index
  s.setHere { s.here with mops := s.here.mops ++ [{ m with after := after }] }

/-- A word that reads a block in memory follows the ordinary stores and atomics of its strand, as program order has it, and those
that a bundle puts before it (R120, R124, R134, R136). -/
def State.storesWait (s : State) : List Wait :=
  let first := sget [] s.here.barrier s.cur.strand.index
  if s.here.mops.any fun m => (m.strand == s.cur.strand || first.contains m.tok) && !m.fabric && match m.kind with
      | .store _ => true
      | .amo .. => true
      | _ => false
  then [.other] else []

/-- A queue without the entries that a discarded word pushed. -/
def Queue.unpush (u : Queue) (tok : Nat) : Queue := { u with entries := u.entries.filter fun e => e.tok < tok }

/-- A queue with a popped entry back at its head. -/
def Queue.unpop (u : Queue) (e : QEntry) : Queue := { u with entries := e :: u.entries }

/-- The pops of discarded words are undone, the latest first. -/
def Core.unpops (c : Core) : List PopRec → Core
  | [] => c
  | p :: r => (Core.unpops c r).setQueue p.partner p.strand (((Core.unpops c r).queue p.partner p.strand).unpop p.entry)

/-- The pushes of discarded words are undone. -/
def Core.unpushes (c : Core) (k : StrandId) (tok : Nat) : Core :=
  allStrands.foldl (fun c p => c.setQueue k p ((c.queue k p).unpush tok)) c

/-- A write of a discarded stretch goes on its way again with the cycles that were left to it at the access, so that the words
made again read what they read before (R123, R146; DESIGN CHOICE, log 78). -/
def Snapshot.again (p : Snapshot) (now : Nat) (w : FixedWrite) : FixedWrite := { w with land := w.land + (now - p.cycle) }

/-- The engine traps that a strand took behind an access are held again (R123, R419). -/
def Core.trapsAfter (c : Core) (m : MemOp) : List EngineTrap :=
  (c.trapLog.filter fun p => p.2.strand == m.strand && m.tok < p.1).map Prod.snd

/-- A strand's work from an access on is discarded (R123): the strand stands at the access's word again. -/
def Core.discard (c : Core) (m : MemOp) : Core :=
  let k := m.strand
  let c1 := (c.unpops (c.popLog.filter fun p => p.strand == k && m.tok ≤ p.tok)).unpushes k m.tok
  let c2 := { c1 with
    popLog := c1.popLog.filter fun p => !(p.strand == k && m.tok ≤ p.tok)
    traps := c1.trapsAfter m ++ c1.traps
    trapLog := c1.trapLog.filter fun p => !(p.2.strand == k && m.tok < p.1)
    vars := c1.vars.filter fun v => !(v.strand == k && m.tok ≤ v.tok)
    mops := c1.mops.filter fun x => !(x.strand == k && m.tok ≤ x.tok)
    sprs := c1.sprs.filter fun w => w.strand != k
    fixed := (m.snap.fixed.map (m.snap.again c1.cycle)).foldl (fun l w => insertWrite w l)
      (c1.fixed.filter fun w => w.strand != k)
    vec := if m.strand = StrandId.v then m.snap.vec else c1.vec
    latBy := if m.strand = StrandId.v then m.snap.latBy else c1.latBy
    masks := if m.strand = StrandId.m then m.snap.masks else c1.masks }
  c2.setStrand k m.snap.strand

/-- A load of memory or of a tile that was performed ahead has found the damage in its line, which it marks, whether or not it
retires (R123, R403). -/
def State.foundBy (s : State) (c : Nat) (m : MemOp) : State :=
  let info := fun (f : MemFault) => memInfo m.accNeed.1 m.space false (if m.space = 0 then m.accNeed.2 else 0) m.len f
  let line := m.addr.toNat / 128
  if m.effect then s
  else if m.space = 0 ∧ (s.checkRange (s.core c).asid (s.core c).root m.accNeed.2 m.addr.toNat m.len).isNone then
    s.markAll (s.mopLines c m) info
  else if m.space = 1 ∧ ((s.core c).tile (line / 32)).present (line % 32) then
    s.findLine c line (info (plainFault UCE (BitVec.ofNat 64 (128 * line)) s.hub.module))
  else s

/-- Some of the loads that are discarded were performed ahead; which, is open (R123, log 2). -/
def State.foundAhead (s : State) (c : Nat) (m : MemOp) : State :=
  (((s.core c).mops.filter fun x => x.strand == m.strand && decide (m.tok ≤ x.tok) && (s.core c).ahead x).foldl
    (fun s x => if s.free % 2 = 0 then (s.foundBy c x).drew else s.drew) s)

/-- The discard of an access of a core, with the counter adds that the discarded words had posted. -/
def State.discard (s : State) (c : Nat) (m : MemOp) : State :=
  let s0 := s.foundAhead c m
  let s1 := s0.setCore c ((s0.core c).discard m)
  { s1 with adds := s1.adds.filter fun a => match a.src with
      | some (c', k, t) => !(c' = c && k == m.strand && m.tok ≤ t)
      | none => true }

/-- Pops and engine traps that nothing can undo any more are forgotten. -/
def Core.forget (c : Core) : Core :=
  { c with
    popLog := c.popLog.filter fun p => c.olderMop p.strand p.tok
    trapLog := c.trapLog.filter fun p => c.olderMop p.2.strand p.1 }

/-- An access has retired; the strand's oldest load has then not been replayed (R409). -/
def Core.retire (c : Core) (m : MemOp) : Core :=
  { c with
    mops := c.mops.filter fun x => x.tok ≠ m.tok
    replays := if m.effect || m.posted then c.replays else sdel c.replays m.strand.index }.forget

/-- The oldest outstanding access of a strand. -/
def Core.oldestMop (c : Core) (k : StrandId) : Option MemOp := c.mops.find? fun m => m.strand == k

/-- A fault at an access that retires: the strand's work from it on is discarded, and it traps at the word (R379). An access of
a core that has stopped since ends without a trap (R327). -/
def State.faultAt (s : State) (c : Nat) (m : MemOp) (synd : Nat) (addr info : Word) (recAddr : Option Word) : State :=
  if m.orphan then s.setCore c ((s.core c).retire m) else
  let s1 := s.discard c m
  let t := m.snap.strand
  s1.trapWith c m.strand synd addr info recAddr t.pc false (sget 0 (s1.core c).imem t.pc)

end Sys2Proof.Machine
end

