-- ==== Sys2Proof/Machine/Vec.lean ====
section
/-! DEFINITION. The words of strand V (R197 to R213). -/

namespace Sys2Proof.Machine

/-! ## Shapes -/

/-- Put a 32-lane result of latency `n` on its way. -/
def State.writeV (s : State) (tok n d : Nat) (r : List W32) : State :=
  s.setHere (s.here.writeIn s.cur.strand tok n (.vec d r))

/-- A V3 word: `f` gives the lanes of D from the old lanes of D, of A and of B (R197); `old` marks a destination that is read. -/
def State.vec3 (s : State) (i : Instr) (h : Hdr) (d a b lat : Nat) (old : Bool)
    (f : List W32 → List W32 → List W32 → List W32) : Host.Outcome State Fault Refusal :=
  s.issueOn .v h fun s =>
    let v := s.here.vec
    let tok := s.tok
    { accs := [⟨.vec d, old, true, 14⟩, rdv a 7, rdv b 0]
      bits := wordFaults i
      lat := some lat
      go := fun t => t.writeV tok lat d (f (v.lanes d) (v.lanes a) (v.lanes b)) }

/-- A unary V word. -/
def State.vec2 (s : State) (i : Instr) (h : Hdr) (d a lat : Nat) (f : List W32 → List W32) :
    Host.Outcome State Fault Refusal :=
  s.issueOn .v h fun s =>
    let v := s.here.vec
    let tok := s.tok
    { accs := [wrv d 14, rdv a 7]
      bits := wordFaults i
      lat := some lat
      go := fun t => t.writeV tok lat d (f (v.lanes a)) }

/-- A function of two lanes, lane by lane. -/
def lanes2 (f : W32 → W32 → W32) (_ a b : List W32) : List W32 := List.zipWith f a b

/-- A function of the old lane of D and two lanes, lane by lane. -/
def lanes3 (f : W32 → W32 → W32 → W32) (d a b : List W32) : List W32 :=
  List.zipWith (fun o p => f o p.1 p.2) d (a.zip b)

/-- The mask of a comparison (R200, R201). -/
def maskOf (b : Bool) : W32 := if b then BitVec.allOnes 32 else 0

/-- A lane shift count (R200). -/
def laneCount (b : W32) : Nat := b.toNat % 32

/-- A function of two BF16 values on each half of two lanes (R202). -/
def halves (f : Nat → Nat → Nat) (a b : W32) : W32 :=
  BitVec.ofNat 32 (f (a.toNat % 65536) (b.toNat % 65536) + 65536 * f (a.toNat / 65536) (b.toNat / 65536))

/-- The scale exponent of `vcvtfi` and `vcvtif` (R203). -/
def laneScale (b : W32) : Int := sbyte b.toNat

/-- A number times 2^c. -/
def Num.scaled (c : Int) : Num → Num
  | .fin s m e => .fin s m (e + c)
  | x => x

/-- The lanes of a byte image (R197). -/
def lanesOf (bs : List Byte) : List W32 :=
  (List.range 32).map fun k => BitVec.ofNat 32 (ofBytes ((List.range 4).map fun b => bs.getD (4 * k + b) 0))

/-- The byte image of lanes (R197). -/
def imageOf (ls : List W32) : List Byte := ls.flatMap fun l => bytesOf 4 l.toNat

/-- The encoded block of 64 elements with its scale (R204). -/
def lnsBlock (fmt : Nat) (els : List W32) : List W32 :=
  let xs := els.map f32
  let e := lnsScale xs
  let cs := xs.map fun x => lnsEncode x fmt e
  let body := if fmt = 0 then cs.map (BitVec.ofNat 8) else pack6 cs
  lanesOf (body ++ [BitVec.ofInt 8 e])

/-- The expansion of 32 codes of a block (R205). -/
def lnsExpand (fmt : Nat) (a b : List W32) : List W32 :=
  let im := imageOf a
  let cs := if fmt = 0 then im.map (·.toNat) else unpack6 (im.take 48)
  let e := sbyte (if fmt = 0 then (a.getD 16 0).toNat else (a.getD 12 0).toNat)
  (List.range 32).map fun k => (lnsValue fmt (cs.getD (k + 32 * ((b.getD k 0).toNat % 2)) 0) e).toF32

/-- The exact sum of lanes, rounded once; a zero is −0 only when every lane is −0 (R207). -/
def sumLanes (a : List W32) : W32 := (sumNum (a.map f32)).toF32

/-- One value in every lane (R207 to R209). -/
def splat (x : W32) : List W32 := List.replicate 32 x

/-- A fold of the lanes from the first one on. -/
def foldLanes (f : W32 → W32 → W32) : List W32 → W32
  | [] => 0
  | x :: r => r.foldl f x

/-! ## Lane words (R200 to R208) -/

/-- Fused BF16 multiply-add on each half (R202). -/
def bfma (o a b : W32) : W32 :=
  let f := fun (o a b : Nat) => (((bf16 a).mul (bf16 b)).add (bf16 o)).toBF16
  BitVec.ofNat 32 (f (o.toNat % 65536) (a.toNat % 65536) (b.toNat % 65536) +
    65536 * f (o.toNat / 65536) (a.toNat / 65536) (b.toNat / 65536))

/-- VFADD (R201). -/
def execVfadd (h : Hdr) (d a b : Fin 128) (s : State) : Host.Outcome State Fault Refusal :=
  s.vec3 (.vfadd h d a b) h d a b 4 false (lanes2 addF)
/-- VFSUB (R201). -/
def execVfsub (h : Hdr) (d a b : Fin 128) (s : State) : Host.Outcome State Fault Refusal :=
  s.vec3 (.vfsub h d a b) h d a b 4 false (lanes2 subF)
/-- VFMUL (R201). -/
def execVfmul (h : Hdr) (d a b : Fin 128) (s : State) : Host.Outcome State Fault Refusal :=
  s.vec3 (.vfmul h d a b) h d a b 4 false (lanes2 mulF)
/-- VFMA (R201). -/
def execVfma (h : Hdr) (d a b : Fin 128) (s : State) : Host.Outcome State Fault Refusal :=
  s.vec3 (.vfma h d a b) h d a b 5 true (lanes3 fun o a b => fmaF a b o)
/-- VFMAX (R201). -/
def execVfmax (h : Hdr) (d a b : Fin 128) (s : State) : Host.Outcome State Fault Refusal :=
  s.vec3 (.vfmax h d a b) h d a b 4 false (lanes2 maxF)
/-- VFMIN (R201). -/
def execVfmin (h : Hdr) (d a b : Fin 128) (s : State) : Host.Outcome State Fault Refusal :=
  s.vec3 (.vfmin h d a b) h d a b 4 false (lanes2 minF)
/-- VFCEQ (R201). -/
def execVfceq (h : Hdr) (d a b : Fin 128) (s : State) : Host.Outcome State Fault Refusal :=
  s.vec3 (.vfceq h d a b) h d a b 4 false (lanes2 fun a b => maskOf ((f32 a).eqNum (f32 b)))
/-- VFCLT (R201). -/
def execVfclt (h : Hdr) (d a b : Fin 128) (s : State) : Host.Outcome State Fault Refusal :=
  s.vec3 (.vfclt h d a b) h d a b 4 false (lanes2 fun a b => maskOf ((f32 a).ltNum (f32 b)))
/-- VFCLE (R201). -/
def execVfcle (h : Hdr) (d a b : Fin 128) (s : State) : Host.Outcome State Fault Refusal :=
  s.vec3 (.vfcle h d a b) h d a b 4 false (lanes2 fun a b => maskOf ((f32 a).ltNum (f32 b) || (f32 a).eqNum (f32 b)))
/-- VBADD (R202). -/
def execVbadd (h : Hdr) (d a b : Fin 128) (s : State) : Host.Outcome State Fault Refusal :=
  s.vec3 (.vbadd h d a b) h d a b 4 false (lanes2 (halves fun a b => ((bf16 a).add (bf16 b)).toBF16))
/-- VBSUB (R202). -/
def execVbsub (h : Hdr) (d a b : Fin 128) (s : State) : Host.Outcome State Fault Refusal :=
  s.vec3 (.vbsub h d a b) h d a b 4 false (lanes2 (halves fun a b => ((bf16 a).add (bf16 b).neg).toBF16))
/-- VBMUL (R202). -/
def execVbmul (h : Hdr) (d a b : Fin 128) (s : State) : Host.Outcome State Fault Refusal :=
  s.vec3 (.vbmul h d a b) h d a b 4 false (lanes2 (halves fun a b => ((bf16 a).mul (bf16 b)).toBF16))
/-- VBFMA (R202). -/
def execVbfma (h : Hdr) (d a b : Fin 128) (s : State) : Host.Outcome State Fault Refusal :=
  s.vec3 (.vbfma h d a b) h d a b 5 true (lanes3 bfma)
/-- VADD (R200). -/
def execVadd (h : Hdr) (d a b : Fin 128) (s : State) : Host.Outcome State Fault Refusal :=
  s.vec3 (.vadd h d a b) h d a b 2 false (lanes2 fun a b => a + b)
/-- VSUB (R200). -/
def execVsub (h : Hdr) (d a b : Fin 128) (s : State) : Host.Outcome State Fault Refusal :=
  s.vec3 (.vsub h d a b) h d a b 2 false (lanes2 fun a b => a - b)
/-- VMUL (R200). -/
def execVmul (h : Hdr) (d a b : Fin 128) (s : State) : Host.Outcome State Fault Refusal :=
  s.vec3 (.vmul h d a b) h d a b 3 false (lanes2 fun a b => a * b)
/-- VAND (R200). -/
def execVand (h : Hdr) (d a b : Fin 128) (s : State) : Host.Outcome State Fault Refusal :=
  s.vec3 (.vand h d a b) h d a b 2 false (lanes2 fun a b => a &&& b)
/-- VOR (R200). -/
def execVor (h : Hdr) (d a b : Fin 128) (s : State) : Host.Outcome State Fault Refusal :=
  s.vec3 (.vor h d a b) h d a b 2 false (lanes2 fun a b => a ||| b)
/-- VXOR (R200). -/
def execVxor (h : Hdr) (d a b : Fin 128) (s : State) : Host.Outcome State Fault Refusal :=
  s.vec3 (.vxor h d a b) h d a b 2 false (lanes2 fun a b => a ^^^ b)
/-- VSHL (R200). -/
def execVshl (h : Hdr) (d a b : Fin 128) (s : State) : Host.Outcome State Fault Refusal :=
  s.vec3 (.vshl h d a b) h d a b 2 false (lanes2 fun a b => a <<< laneCount b)
/-- VSHR (R200). -/
def execVshr (h : Hdr) (d a b : Fin 128) (s : State) : Host.Outcome State Fault Refusal :=
  s.vec3 (.vshr h d a b) h d a b 2 false (lanes2 fun a b => a >>> laneCount b)
/-- VSRA (R200). -/
def execVsra (h : Hdr) (d a b : Fin 128) (s : State) : Host.Outcome State Fault Refusal :=
  s.vec3 (.vsra h d a b) h d a b 2 false (lanes2 fun a b => a.sshiftRight (laneCount b))
/-- VMAX (R200). -/
def execVmax (h : Hdr) (d a b : Fin 128) (s : State) : Host.Outcome State Fault Refusal :=
  s.vec3 (.vmax h d a b) h d a b 2 false (lanes2 fun a b => if a.slt b then b else a)
/-- VMIN (R200). -/
def execVmin (h : Hdr) (d a b : Fin 128) (s : State) : Host.Outcome State Fault Refusal :=
  s.vec3 (.vmin h d a b) h d a b 2 false (lanes2 fun a b => if b.slt a then b else a)
/-- VCEQ (R200). -/
def execVceq (h : Hdr) (d a b : Fin 128) (s : State) : Host.Outcome State Fault Refusal :=
  s.vec3 (.vceq h d a b) h d a b 2 false (lanes2 fun a b => maskOf (a == b))
/-- VCLT (R200). -/
def execVclt (h : Hdr) (d a b : Fin 128) (s : State) : Host.Outcome State Fault Refusal :=
  s.vec3 (.vclt h d a b) h d a b 2 false (lanes2 fun a b => maskOf (a.slt b))
/-- VSEL (R200). -/
def execVsel (h : Hdr) (d a b : Fin 128) (s : State) : Host.Outcome State Fault Refusal :=
  s.vec3 (.vsel h d a b) h d a b 2 true (lanes3 fun o a b => if o ≠ 0 then a else b)
/-- VCVTFB (R203). -/
def execVcvtfb (h : Hdr) (d a b : Fin 128) (s : State) : Host.Outcome State Fault Refusal :=
  s.vec3 (.vcvtfb h d a b) h d a b 3 false (lanes2 fun a b => BitVec.ofNat 32 ((f32 a).toBF16 + 65536 * (f32 b).toBF16))
/-- VCVTBF (R203). -/
def execVcvtbf (h : Hdr) (d a b : Fin 128) (s : State) : Host.Outcome State Fault Refusal :=
  s.vec3 (.vcvtbf h d a b) h d a b 3 false (lanes2 fun a b => (bf16 (a.toNat / 65536 ^ (b.toNat % 2) % 65536)).toF32)
/-- VCVTFI (R203). -/
def execVcvtfi (h : Hdr) (d a b : Fin 128) (s : State) : Host.Outcome State Fault Refusal :=
  s.vec3 (.vcvtfi h d a b) h d a b 3 false (lanes2 fun a b => BitVec.ofInt 32 (((f32 a).scaled (laneScale b)).toInt 32))
/-- VCVTIF (R203). -/
def execVcvtif (h : Hdr) (d a b : Fin 128) (s : State) : Host.Outcome State Fault Refusal :=
  s.vec3 (.vcvtif h d a b) h d a b 3 false (lanes2 fun a b => ((Dy.int a.toInt).num.scaled (laneScale b)).toF32)
/-- VCVTL8 (R204). -/
def execVcvtl8 (h : Hdr) (d a b : Fin 128) (s : State) : Host.Outcome State Fault Refusal :=
  s.vec3 (.vcvtl8 h d a b) h d a b 3 false (fun _ a b => lnsBlock 0 (a ++ b))
/-- VCVTL6 (R204). -/
def execVcvtl6 (h : Hdr) (d a b : Fin 128) (s : State) : Host.Outcome State Fault Refusal :=
  s.vec3 (.vcvtl6 h d a b) h d a b 3 false (fun _ a b => lnsBlock 1 (a ++ b))
/-- VXL8 (R205). -/
def execVxl8 (h : Hdr) (d a b : Fin 128) (s : State) : Host.Outcome State Fault Refusal :=
  s.vec3 (.vxl8 h d a b) h d a b 3 false (fun _ a b => lnsExpand 0 a b)
/-- VXL6 (R205). -/
def execVxl6 (h : Hdr) (d a b : Fin 128) (s : State) : Host.Outcome State Fault Refusal :=
  s.vec3 (.vxl6 h d a b) h d a b 3 false (fun _ a b => lnsExpand 1 a b)
/-- VPERM (R208). -/
def execVperm (h : Hdr) (d a b : Fin 128) (s : State) : Host.Outcome State Fault Refusal :=
  s.vec3 (.vperm h d a b) h d a b 3 false (fun _ a b => b.map fun x => a.getD (x.toNat % 32) 0)
/-- VMOV (R208). -/
def execVmov (h : Hdr) (d a : Fin 128) (s : State) : Host.Outcome State Fault Refusal :=
  s.vec2 (.vmov h d a) h d a 2 id
/-- VEXP2 (R206). -/
def execVexp2 (h : Hdr) (d a : Fin 128) (s : State) : Host.Outcome State Fault Refusal :=
  s.vec2 (.vexp2 h d a) h d a 8 (List.map exp2F)
/-- VLOG2 (R206). -/
def execVlog2 (h : Hdr) (d a : Fin 128) (s : State) : Host.Outcome State Fault Refusal :=
  s.vec2 (.vlog2 h d a) h d a 8 (List.map log2F)
/-- VRCP (R206). -/
def execVrcp (h : Hdr) (d a : Fin 128) (s : State) : Host.Outcome State Fault Refusal :=
  s.vec2 (.vrcp h d a) h d a 8 (List.map recipF)
/-- VRSQ (R206). -/
def execVrsq (h : Hdr) (d a : Fin 128) (s : State) : Host.Outcome State Fault Refusal :=
  s.vec2 (.vrsq h d a) h d a 8 (List.map rsqrtF)
/-- VREDADD (R207). -/
def execVredadd (h : Hdr) (d a : Fin 128) (s : State) : Host.Outcome State Fault Refusal :=
  s.vec2 (.vredadd h d a) h d a 6 (fun a => splat (sumLanes a))
/-- VREDMAX (R207). -/
def execVredmax (h : Hdr) (d a : Fin 128) (s : State) : Host.Outcome State Fault Refusal :=
  s.vec2 (.vredmax h d a) h d a 6 (fun a => splat (foldLanes maxF a))
/-- VREDMIN (R207). -/
def execVredmin (h : Hdr) (d a : Fin 128) (s : State) : Host.Outcome State Fault Refusal :=
  s.vec2 (.vredmin h d a) h d a 6 (fun a => splat (foldLanes minF a))
/-- VREDIADD (R207). -/
def execVrediadd (h : Hdr) (d a : Fin 128) (s : State) : Host.Outcome State Fault Refusal :=
  s.vec2 (.vrediadd h d a) h d a 6 (fun a => splat (a.foldl (· + ·) 0))
/-- VSHLI (R200). -/
def execVshli (h : Hdr) (d a : Fin 128) (i : Fin 32) (s : State) : Host.Outcome State Fault Refusal :=
  s.vec2 (.vshli h d a i) h d a 2 (List.map fun x => x <<< i.val)
/-- VROT (R208). -/
def execVrot (h : Hdr) (d a : Fin 128) (i : Fin 32) (s : State) : Host.Outcome State Fault Refusal :=
  s.vec2 (.vrot h d a i) h d a 3 (fun a => (List.range 32).map fun k => a.getD ((k + i.val) % 32) 0)

/-! ## Words between V state and scalars (R208, R209) -/

/-- VIMM (R208). -/
def execVimm (h : Hdr) (d i : Fin 128) (s : State) : Host.Outcome State Fault Refusal :=
  s.issueOn .v h fun s =>
    let tok := s.tok
    { accs := [wrv d 14]
      bits := wordFaults (.vimm h d i)
      lat := some 2
      go := fun t => t.writeV tok 2 d (splat ((BitVec.ofNat 7 i.val).signExtend 32)) }

/-- VBCAST (R209). -/
def execVbcast (h : Hdr) (d : Fin 128) (r : Fin 32) (s : State) : Host.Outcome State Fault Refusal :=
  s.issueOn .v h fun s =>
    let tok := s.tok
    let x := (s.rx r).setWidth 32
    { accs := [wrv d 14, rdx r 9]
      bits := wordFaults (.vbcast h d r)
      lat := some 2
      go := fun t => t.writeV tok 2 d (splat x) }

/-- VEXT (R56, R209): a scalar result, which leaves `lat` as it is. -/
def execVext (h : Hdr) (v : Fin 128) (r l : Fin 32) (s : State) : Host.Outcome State Fault Refusal :=
  s.issueOn .v h fun s =>
    { s.scalar [wrx r 9, rdv v 14] 3 r ((s.here.vec.lane v l).setWidth 64) with bits := wordFaults (.vext h v r l) }

/-! ## Scratchpad lines (R210, R211) -/

/-- An access of a whole scratchpad line by the word being tried. -/
def State.lineMop (s : State) (kind : MopKind) (t l : Nat) : MemOp :=
  { strand := s.cur.strand, tok := s.tok, kind := kind, space := 1, addr := BitVec.ofNat 64 (4096 * t + 128 * l),
    len := 128, ord := 0, scope := 0, sent := s.now, snap := s.snapshot }

/-- VLD (R199, R210): a plain load in space 1. -/
def execVld (h : Hdr) (v : Fin 128) (t : Fin 512) (l : Fin 32) (s : State) : Host.Outcome State Fault Refusal :=
  s.issueOn .v h fun s =>
    let tok := s.tok
    let m := s.lineMop (.vld v) t l
    { accs := [wrv v 14]
      bits := wordFaults (.vld h v t l) ++ s.here.tileOffence t 1 5
      go := fun s => (s.setHere (s.here.promise .v tok [.vec v []] false)).postMop m }

/-- VST (R211): a plain store in space 1. -/
def execVst (h : Hdr) (v : Fin 128) (t : Fin 512) (l : Fin 32) (s : State) : Host.Outcome State Fault Refusal :=
  s.issueOn .v h fun s =>
    let m := s.lineMop (.vst (imageOf (s.here.vec.lanes v))) t l
    { accs := [rdv v 14]
      bits := wordFaults (.vst h v t l) ++ s.here.tileOffence t 1 5
      checks := s.sourceOffence s.cur.core (4096 * t.val + 128 * l.val) 128 5
      go := fun s => s.postMop m }

/-! ## Accumulator moves (R62, R63, R212, R213) -/

/-- Element (i, j) of an accumulator. -/
def Core.accElem (c : Core) (n i j : Nat) : W32 := (sget [] c.acc (128 * n + i)).getD j 0

/-- A plain move waits for every operation on the accumulator that entered the queue in an earlier cycle (R62). -/
def Core.accBusy (c : Core) (n : Nat) : Bool :=
  (c.arr.any fun e => e.entered < c.cycle && e.op.targets n) || c.run.any fun r => r.entered < c.cycle && tcbNames r.tcb n

/-- A row in which a `.z` multiply of the queue has no active element shows the zeros that it writes there, from its issue on; one
that entered the queue in this very cycle has changed nothing yet (R61, R63, R213). -/
def Core.zeroedRow (c : Core) (n i : Nat) : Bool :=
  c.arr.any fun e => e.entered < c.cycle && e.beat ≤ i && match e.op with
    | .mma _ a _ m z _ => a == n && z && (!m.row.getLsbD i || m.col == 0)
    | _ => false

/-- Element (i, j) of an accumulator as a peek shows it (R63). -/
def Core.peekElem (c : Core) (n i j : Nat) : W32 := if c.zeroedRow n i then 0 else c.accElem n i j

/-- An accumulator move: `els` gives element k from the value of xb. -/
def State.accMove (s : State) (i : Instr) (h : Hdr) (d c x limit : Nat) (peek : Bool) (els : Core → Nat → Nat → W32) :
    Host.Outcome State Fault Refusal :=
  s.issueOn .v h fun s =>
    let tok := s.tok
    let core := s.here
    let r := (s.rx x).toNat
    { accs := [wrv d 14, rdx x 2]
      bits := wordFaults i
      waits := if !peek && core.accBusy c then [.other] else []
      checks := val (limit ≤ r) 2 3
      go := fun s => s.setHere (s.here.promise .v tok [.vec d ((List.range 32).map (els core r))] true) }

/-- MVACC.ROW (R212). -/
def execMvaccRow (h : Hdr) (d : Fin 128) (c : Fin 4) (g : Fin 8) (x : Fin 32) (s : State) :
    Host.Outcome State Fault Refusal :=
  s.accMove (.mvaccRow h d c g x) h d c x 128 false fun k r e => k.accElem c r (32 * g.val + e)
/-- MVACC.COL (R212). -/
def execMvaccCol (h : Hdr) (d : Fin 128) (c : Fin 4) (g : Fin 8) (x : Fin 32) (s : State) :
    Host.Outcome State Fault Refusal :=
  s.accMove (.mvaccCol h d c g x) h d c x 192 false fun k r e => k.accElem c (32 * g.val + e) r
/-- MVACC.ROW.PEEK (R63, R212). -/
def execMvaccRowPeek (h : Hdr) (d : Fin 128) (c : Fin 4) (g : Fin 8) (x : Fin 32) (s : State) :
    Host.Outcome State Fault Refusal :=
  s.accMove (.mvaccRowPeek h d c g x) h d c x 128 true fun k r e => k.peekElem c r (32 * g.val + e)
/-- MVACC.COL.PEEK (R63, R212). -/
def execMvaccColPeek (h : Hdr) (d : Fin 128) (c : Fin 4) (g : Fin 8) (x : Fin 32) (s : State) :
    Host.Outcome State Fault Refusal :=
  s.accMove (.mvaccColPeek h d c g x) h d c x 192 true fun k r e => k.peekElem c (32 * g.val + e) r

end Sys2Proof.Machine
end

