-- ==== Sys2Proof/Machine/Mem.lean ====
section
/-! DEFINITION. Loads, stores, prefetches, atomics, reductions and tile control of strand L (R247 to R255). -/

namespace Sys2Proof.Machine

/-! ## Shared forms -/

/-- A space that a form does not allow, or an order that it does not allow (R97, R126, R248, R253). -/
def formOffences (p : Word) (bit : Nat) (spaces : List Nat) (ords : List Nat) : List Offence :=
  valAt (polSpace p < 5 ∧ !spaces.contains (polSpace p)) bit 23 9 ++
  valAt (polOrd p < 3 ∧ !ords.contains (polOrd p)) bit 26 9

/-- The offences of the address of an access of `n` bytes (R4, R96, R97, R248); a counter handle must be a multiple of 8 too
(log 68). -/
def Core.accessOffences (c : Core) (space : Nat) (a : Word) (n bit : Nat) : List Offence :=
  addressOffences space a bit ++ val (a.toNat % n ≠ 0) bit 5 ++
  val (space = 1 ∧ field a 21 43 = 0 ∧ c.padSize ≤ a.toNat) bit 6

/-- The part of memory that a space-0 access of the word being tried holds from issue on, if its check passes then: a store is
posted only after it (R398). -/
def State.passed (s : State) (need space : Nat) (a : Word) (n : Nat) : List Seg :=
  let c := s.here
  if space = 0 ∧ (s.checkRange c.asid c.root need a.toNat n).isNone then s.segs c.asid c.root a.toNat n else []

/-- The access that the word being tried makes, `need` its permissions. -/
def State.accessMop (s : State) (kind : MopKind) (need : Nat) (p a : Word) (n : Nat) : MemOp :=
  { strand := s.cur.strand, tok := s.tok, kind := kind, space := polSpace p, addr := a, len := n, ord := polOrd p,
    scope := polScope p, sent := s.now, segs := s.passed need (polSpace p) a n,
    cls := classOf (field p 0 10) (field p 10 10) a.toNat, snap := s.snapshot }

/-- LD (R247 to R249). -/
def execLd (h : Hdr) (d a p : Fin 32) (n : Fin 4) (x : Fin 2) (s : State) : Host.Outcome State Fault Refusal :=
  s.issueOn .l h fun s =>
    let tok := s.tok
    let w := 2 ^ n.val
    let pv := s.rx p
    let av := s.rx a
    let m := s.accessMop (.load d (x.val = 1)) PR pv av w
    { accs := [wrx d 16, rdx a 11, rdx p 6]
      bits := wordFaults (.ld h d a p n x)
      checks := policyOffences pv 6 ++ formOffences pv 6 [0, 1, 2, 3, 4] [0, 1] ++
        valAt (polSpace pv = 3 ∧ n.val ≠ 3) 6 23 9 ++ s.here.accessOffences (polSpace pv) av w 11
      go := fun s => (s.setHere (s.here.promise .l tok [.x d 0] false)).postMop m }

/-- The tiles of this module that a store at an address of a space reaches: the core and the byte offset. -/
def State.tileAt (s : State) (space : Nat) (a : Word) : Option (Nat × Nat) :=
  if space = 1 then some (s.cur.core, a.toNat)
  else if space = 2 ∧ sprModule a = s.hub.module then some (sprCore a, sprOffset a)
  else none

/-- A store into the source lines of an APPEND (R4, R277). -/
def State.storeOffence (s : State) (space : Nat) (a : Word) (n bit : Nat) : List Offence :=
  match s.tileAt space a with
  | some (c, o) => s.sourceOffence c o n bit
  | none => []

/-- ST (R247 to R249). -/
def execSt (h : Hdr) (d a p : Fin 32) (n : Fin 4) (s : State) : Host.Outcome State Fault Refusal :=
  s.issueOn .l h fun s =>
    let w := 2 ^ n.val
    let pv := s.rx p
    let av := s.rx a
    let m := s.accessMop (.store (bytesOf w (s.rx d).toNat)) PW pv av w
    { accs := [rdx d 16, rdx a 11, rdx p 6]
      bits := wordFaults (.st h d a p n)
      checks := policyOffences pv 6 ++ formOffences pv 6 [0, 1, 2, 4] [0, 2] ++
        s.here.accessOffences (polSpace pv) av w 11 ++ s.storeOffence (polSpace pv) av w 11
      go := fun s => s.postMop m }

/-- A prefetch brings its line in (R250): it is read, with what that finds of damage, and held with the policy's class. Nothing
comes past an egress stop (R368). -/
def State.prefetch (s : State) (a : Word) (n : Nat) (cls : Option Nat) : State :=
  let c := s.here
  if s.walkSealed c.asid c.root a.toNat || s.sealed (lineOf (s.paOf c.asid c.root a.toNat)) then s else
  let s1 := s.settleVa c.asid c.root a.toNat n
  let s2 := s1.markAll (s1.linesOf c.asid c.root a.toNat n) (memInfo 0 0 false PR n)
  s2.touchAll s2.cur.core (s2.segs c.asid c.root a.toNat n) (cls.getD (s2.pageClass c.asid c.root a.toNat))

/-- PF (R250): it may bring the line in, or not; nothing else of it shows. -/
def execPf (h : Hdr) (a p : Fin 32) (n : Fin 4) (s : State) : Host.Outcome State Fault Refusal :=
  s.issueOn .l h fun s =>
    let pv := s.rx p
    let av := s.rx a
    let c := s.here
    let ok : Bool := (s.checkRange c.asid c.root PR av.toNat 1).isNone
    { accs := [rdx a 11, rdx p 6]
      bits := wordFaults (.pf h a p n)
      checks := policyOffences pv 6 ++ formOffences pv 6 [0] [0] ++
        s.here.accessOffences (polSpace pv) av (2 ^ n.val) 11
      go := fun s =>
        if ok ∧ s.free % 2 = 0 then
          (s.prefetch av (2 ^ n.val) (classOf (field pv 0 10) (field pv 10 10) av.toNat)).drew
        else s.drew }

/-- Bytes of an atomic's operand (R251). -/
def amoBytes (z : Fin 2) : Nat := if z.val = 0 then 8 else 4

/-- An atomic (R251, R253): xd is read as the expected value by `cas` alone. -/
def State.amo (s : State) (i : Instr) (h : Hdr) (op : AmoOp) (d a b p : Fin 32) (z : Fin 2) :
    Host.Outcome State Fault Refusal :=
  s.issueOn .l h fun s =>
    let tok := s.tok
    let pv := s.rx p
    let av := s.rx a
    let cas : Bool := op = .cas
    let m := s.accessMop (.amo op d (s.rx b) (if cas then s.rx d else 0)) PATOM pv av (amoBytes z)
    { accs := [⟨.x d, cas, true, 16⟩, rdx a 11, rdx b 6, rdx p 1]
      bits := wordFaults i
      checks := policyOffences pv 1 ++ formOffences pv 1 [0, 4] [0, 1, 2] ++
        s.here.accessOffences (polSpace pv) av (amoBytes z) 11
      go := fun s => (s.setHere (s.here.promise .l tok [.x d 0] false)).postMop m }

/-- AMO.ADD (R251). -/
def execAmoAdd (h : Hdr) (d a b p : Fin 32) (z : Fin 2) (s : State) : Host.Outcome State Fault Refusal :=
  s.amo (.amoAdd h d a b p z) h .add d a b p z
/-- AMO.AND (R251). -/
def execAmoAnd (h : Hdr) (d a b p : Fin 32) (z : Fin 2) (s : State) : Host.Outcome State Fault Refusal :=
  s.amo (.amoAnd h d a b p z) h .and d a b p z
/-- AMO.OR (R251). -/
def execAmoOr (h : Hdr) (d a b p : Fin 32) (z : Fin 2) (s : State) : Host.Outcome State Fault Refusal :=
  s.amo (.amoOr h d a b p z) h .or d a b p z
/-- AMO.XOR (R251). -/
def execAmoXor (h : Hdr) (d a b p : Fin 32) (z : Fin 2) (s : State) : Host.Outcome State Fault Refusal :=
  s.amo (.amoXor h d a b p z) h .xor d a b p z
/-- AMO.MAX (R251). -/
def execAmoMax (h : Hdr) (d a b p : Fin 32) (z : Fin 2) (s : State) : Host.Outcome State Fault Refusal :=
  s.amo (.amoMax h d a b p z) h .max d a b p z
/-- AMO.MIN (R251). -/
def execAmoMin (h : Hdr) (d a b p : Fin 32) (z : Fin 2) (s : State) : Host.Outcome State Fault Refusal :=
  s.amo (.amoMin h d a b p z) h .min d a b p z
/-- AMO.SWAP (R251). -/
def execAmoSwap (h : Hdr) (d a b p : Fin 32) (z : Fin 2) (s : State) : Host.Outcome State Fault Refusal :=
  s.amo (.amoSwap h d a b p z) h .swap d a b p z
/-- AMO.CAS (R251). -/
def execAmoCas (h : Hdr) (d a b p : Fin 32) (z : Fin 2) (s : State) : Host.Outcome State Fault Refusal :=
  s.amo (.amoCas h d a b p z) h .cas d a b p z

/-- A reduction (R252, R253): a space-0 `red` is translated and checked before it enters the memory queue (R398). -/
def State.red (s : State) (i : Instr) (h : Hdr) (op : RedOp) (a b p : Fin 32) (z : Fin 2) :
    Host.Outcome State Fault Refusal :=
  s.issueOn .l h fun s =>
    let pv := s.rx p
    let av := s.rx a
    let c := s.here
    let bad := if polSpace pv = 0 then s.checkRange c.asid c.root PATOM av.toNat 4 else none
    let leaf := s.leafOf c.asid c.root av.toNat
    let m := { s.accessMop (.red op (z.val = 1) ((s.rx b).setWidth 32)) PATOM pv av 4 with
      home := if polSpace pv = 0 then some (s.paOf c.asid c.root av.toNat, leafKv leaf, leafRed leaf) else none }
    { accs := [rdx a 11, rdx b 6, rdx p 1]
      bits := wordFaults i
      checks := policyOffences pv 1 ++ formOffences pv 1 [0, 4] [0, 1, 2] ++
        s.here.accessOffences (polSpace pv) av 4 11
      fault := bad.map fun f => ⟨f.synd, f.addr, memInfo 3 0 false PATOM 4 f, recOf f, none⟩
      found := fun s => if polSpace pv = 0 then s.settleWalk c.asid c.root av.toNat else s
      go := fun s => s.postMop m }

/-- RED.ADD (R252). -/
def execRedAdd (h : Hdr) (a b p : Fin 32) (z : Fin 2) (s : State) : Host.Outcome State Fault Refusal :=
  s.red (.redAdd h a b p z) h .add a b p z
/-- RED.MAX (R252). -/
def execRedMax (h : Hdr) (a b p : Fin 32) (z : Fin 2) (s : State) : Host.Outcome State Fault Refusal :=
  s.red (.redMax h a b p z) h .max a b p z
/-- RED.MIN (R252). -/
def execRedMin (h : Hdr) (a b p : Fin 32) (z : Fin 2) (s : State) : Host.Outcome State Fault Refusal :=
  s.red (.redMin h a b p z) h .min a b p z

/-! ## Tile control (R254, R255) -/

/-- A tile instruction that acts in order with the strand's space-1 accesses. -/
def State.tileMop (s : State) (kind : MopKind) (t : Nat) : MemOp := { s.lineMop kind t 0 with len := 4096 }

/-- A `tseal` would write an absent source line of an APPEND (R4, R277). -/
def State.sealOffence (s : State) (t bit : Nat) : List Offence :=
  forbid ((List.range 32).any (fun n => !(s.here.tile t).present n && (s.here.tile t).state != 2 &&
    s.sourceBusy s.cur.core (4096 * t + 128 * n) 128) = true) bit

/-- TSEAL (R254). -/
def execTseal (h : Hdr) (t : Fin 512) (s : State) : Host.Outcome State Fault Refusal :=
  s.issueOn .l h fun s =>
    let m := s.tileMop (.tseal t) t
    { bits := wordFaults (.tseal h t) ++ s.here.tileOffence t 1 7
      checks := s.sealOffence t 7
      go := fun s => s.postMop m }

/-- TDROP (R254). -/
def execTdrop (h : Hdr) (t : Fin 512) (s : State) : Host.Outcome State Fault Refusal :=
  s.issueOn .l h fun s =>
    let m := s.tileMop (.tdrop t) t
    { bits := wordFaults (.tdrop h t) ++ s.here.tileOffence t 1 7, go := fun s => s.postMop m }

/-- Tile instructions follow strand L's space-1 accesses in program order (R255). -/
def Core.tileOrder (c : Core) : List Wait := if c.mops.any fun m => m.strand == .l && m.space == 1 then [.other] else []

/-- TALLOC (R112, R254): EXPECT is aux + 1 and PRES is clear, in order with the earlier accesses; not ready until the tile is
EMPTY. -/
def execTalloc (h : Hdr) (t : Fin 512) (c : Fin 32) (s : State) : Host.Outcome State Fault Refusal :=
  s.issueOn .l h fun s =>
    { bits := wordFaults (.talloc h t c) ++ s.here.tileOffence t 1 7
      waits := (if (s.here.tile t).state = 0 then [] else [.other]) ++ s.here.tileOrder
      go := fun s => s.setHere (s.here.setTile t { s.here.tile t with expect := c.val + 1, pres := 0 }) }

/-- TWAIT (R254): it holds the strand's next word, in order with the earlier accesses. -/
def execTwait (h : Hdr) (t : Fin 512) (s : State) : Host.Outcome State Fault Refusal :=
  s.issueOn .l h fun s =>
    { bits := wordFaults (.twait h t) ++ s.here.tileOffence t 1 7
      waits := s.here.tileOrder
      go := fun s => s.hold (.tile t) }

/-- TSTAT (R111, R254): the tile's entry in the issue cycle. -/
def execTstat (h : Hdr) (d : Fin 32) (t : Fin 512) (s : State) : Host.Outcome State Fault Refusal :=
  s.issueOn .l h fun s =>
    { s.scalar [wrx d 16] 2 d (s.here.tile t).word with
      bits := wordFaults (.tstat h d t) ++ s.here.tileOffence t 1 7
      waits := s.here.tileOrder }

end Sys2Proof.Machine
end

