-- ==== Sys2Proof/Machine/Perform.lean ====
section
/-! DEFINITION. How outstanding accesses are performed: their order, their effects and their faults, at home and at remote
targets (R98, R112, R119 to R127, R138, R139, R249 to R255, R338, R379, R396 to R412). -/

namespace Sys2Proof.Machine

/-! ## Results and faults -/

/-- A load or atomic has its value: the result arrives, and the access retires. -/
def State.finish (s : State) (c : Nat) (m : MemOp) (rs : List Result) : State :=
  s.setCore c (((s.core c).fulfil m.strand m.tok rs).retire m)

/-- The 64-bit result of a load of `n` bytes (R247). -/
def loadWord (sx : Bool) (n v : Nat) : Word := if sx then sxWord (8 * n) v else BitVec.ofNat 64 v

/-- `%tinfo` of a fault of an access. -/
def MemOp.info (m : MemOp) (defer : Bool) (f : MemFault) : Word :=
  memInfo m.accNeed.1 m.space defer (if m.space = 0 ∨ m.space = 4 then m.accNeed.2 else 0) m.len f

/-- An access traps with a fault, if it retires; else it waits. -/
def State.faultOf (s : State) (c : Nat) (m : MemOp) (f : MemFault) : State :=
  if (s.core c).retires m then s.faultAt c m f.synd f.addr (m.info false f) (recOf f) else s

/-- A read of an access finds damaged or poisoned lines: it marks what it finds, and traps if it retires, with UCE where one of
its own reads made the mark (R123, R403). -/
def State.dataTrap (s : State) (c : Nat) (m : MemOp) (f : MemFault) : State :=
  if (s.core c).retires m then s.faultOf c m (if m.found then { f with synd := UCE } else f)
  else if f.synd = UCE then
    s.setCore c { s.core c with mops := (s.core c).mops.map fun x => if x.tok = m.tok then { x with found := true } else x }
  else s

/-! ## Space 0 -/

/-- Translate and check a space-0 access whose check has not passed, and find damaged data where it reads (R106, R117, R398,
R403). The walks read their tables, and reduce-state lines are merged. -/
def State.access0 (s : State) (c : Nat) (m : MemOp) (reads : Bool) (go : List Seg → State → State) : State :=
  let k := s.core c
  let walks : Bool := m.segs.isEmpty && m.walk.isNone
  if walks && s.walkSealed k.asid k.root m.addr.toNat then s else
  let s0 := if walks then s.settleWalks k.asid k.root m.addr.toNat m.len else s
  match s.mopFault c m with
  | some f => s0.faultOf c m f
  | none =>
    let gs := s.mopSegs c m
    let s1 := s0.mergeLines (segLines gs)
    let ls := s.mopLines c m
    if (segLines gs).any s.sealed then s else
    match if reads then s1.dataFault ls else none with
    | some f => (s1.markAll ls (m.info false)).dataTrap c m f
    | none => go gs s1

/-- The eviction class of a space-0 access: its policy's, or its page's (R115). -/
def State.classFor (s : State) (c : Nat) (m : MemOp) : Nat :=
  m.cls.getD (s.pageClass (s.core c).asid (s.core c).root m.addr.toNat)

/-- The leases of the lines of an access are renewed (R120), and the caches hold them (R114). -/
def State.renewAll (s : State) (c : Nat) (m : MemOp) (gs : List Seg) : State :=
  ((segLines gs).foldl State.renewLease s).touchAll c gs (s.classFor c m)

/-- The home of the lines of an access holds them with the access's class (R114, R138). -/
def State.touchHome (s : State) (cls : Nat) (gs : List Seg) : State :=
  (segLines gs).foldl (fun s l => s.touch [llcPlace l] l cls) s

/-! ## Space 1 (R112, R210, R211, R225, R249, R254) -/

/-- A read of a line of the core's own tiles: it waits for presence, and finds a damaged line (R112, R403). -/
def State.readLine (s : State) (c : Nat) (m : MemOp) (go : List Byte → State → State) : State :=
  let k := s.core c
  let line := m.addr.toNat / 128
  if !(k.tile (line / 32)).present (line % 32) then s
  else if k.padBad line then
    let f := plainFault (if k.padDamaged.contains line then UCE else POISON) (BitVec.ofNat 64 (128 * line)) s.hub.module
    (s.findLine c line (m.info false f)).dataTrap c m f
  else go (k.padRead m.addr.toNat m.len) s

/-- The mask pair that the first 40 bytes of a line hold (R225). -/
def maskBytes (bs : List Byte) : MaskPair :=
  ⟨BitVec.ofNat 128 (ofBytes (bs.take 16)), BitVec.ofNat 192 (ofBytes ((bs.drop 16).take 24))⟩

/-- `tseal` of a tile that is not FULL (R254): absent lines become zero, and a marked absent line loses its mark. -/
def Core.seal (c : Core) (t : Nat) : Core :=
  let e := c.tile t
  let c1 := ((List.range 32).filter fun n => !e.present n).foldl
    (fun c n => (c.padWrite (4096 * t + 128 * n) (List.replicate 128 0)).markLine (32 * t + n) false) c
  c1.setTile t { e with state := 2, pres := BitVec.allOnes 32 }

/-- A space-1 access other than a read is performed and retires. -/
def State.act1 (s : State) (c : Nat) (m : MemOp) (k : Core) : State := s.setCore c (k.retire m)

/-- A space-1 access of the core is performed (R112, R254). -/
def State.perform1 (s : State) (c : Nat) (m : MemOp) : State :=
  let k := s.core c
  if k.heldStore m then s
  else
    match m.kind with
    | .load d sx => s.readLine c m fun bs s => s.finish c m [.x d (loadWord sx m.len (ofBytes bs))]
    | .vld code => s.readLine c m fun bs s => s.finish c m [.vec code (lanesOf bs)]
    | .mkld n => s.readLine c m fun bs s => s.finish c m [.mask n (maskBytes bs)]
    | .store bs => s.act1 c m (k.storeTile m.addr.toNat bs)
    | .vst bs => s.act1 c m (k.storeTile m.addr.toNat bs)
    | .tseal t => s.act1 c m (if (k.tile t).state = 2 then k else k.seal t)
    | .tdrop t => s.act1 c m (if (k.tile t).state = 0 then k else k.setTile t { k.tile t with state := 0, pres := 0 })
    | _ => s

/-! ## Space 3 (R97, R406) -/

/-- A load of a counter of this module. -/
def State.perform3 (s : State) (c : Nat) (m : MemOp) : State :=
  match m.kind with
  | .load d _ =>
    if hModule m.addr ≠ s.hub.module ∨ s.counterDown m.addr = true then s
    else if s.counterBad m.addr then s.faultOf c m (plainFault POISON m.addr (hModule m.addr))
    else s.finish c m [.x d (BitVec.ofNat 64 (s.counter m.addr))]
  | _ => s

/-- The oldest ordinary access of a strand that is not a posted one (R119, R120). -/
def Core.nextOrdinary (c : Core) (k : StrandId) : Option MemOp :=
  c.mops.find? fun m => m.strand == k && !m.fabric && !m.posted

/-- A load may be discarded with the strand's later words: none of them has had an effect that no discard undoes (R123), and
it has not been replayed 16 times in a row (R409). -/
def Core.undoable (c : Core) (m : MemOp) : Bool :=
  decide (sget 0 c.gave m.strand.index ≤ m.tok + 1) && !m.effect && c.retires m && decide (sget 0 c.replays m.strand.index < 16)

/-- A strand's oldest load is replayed, with its later work (R123, R409). -/
def State.replay (s : State) (c : Nat) (m : MemOp) : State :=
  let s1 := s.discard c m
  let k := s1.core c
  s1.setCore c { k with replays := sput k.replays m.strand.index (sget 0 k.replays m.strand.index + 1) }

/-- LOAD_RETIREMENT (R120, R123, R379): the strand's oldest ordinary access is performed. A load whose value changed since it
was performed ahead is discarded with the strand's later work, and replayed. -/
def execLoadRetirement (c : CoreIx) (k : StrandId) (changed : Bool) (s : State) : Host.Outcome State Fault Refusal :=
  match (s.core c).nextOrdinary k with
  | none => .next s
  | some m =>
    if !s.mayPerform c m then .next s
    else if changed then .next (if (s.core c).undoable m && !m.orphan then s.replay c m else s)
    else
      match m.space with
      | 0 =>
        match m.kind with
        | .load d sx => .next (s.access0 c m true fun gs s =>
            (s.renewAll c m gs).finish c m [.x d (loadWord sx m.len (ofBytes (s.readAt gs)))])
        | .store bs => .next (s.access0 c m false fun gs s =>
            let s1 := (s.writeAt c gs bs).touchAll c gs (s.classFor c m)
            s1.act1 c m (s1.core c))
        | _ => .next s
      | 1 => .next (s.perform1 c m)
      | _ => .next (s.perform3 c m)

/-- ATOMIC_AT_HOME (R138, R251): one point at the line's home. -/
def execAtomicAtHome (c : CoreIx) (k : StrandId) (s : State) : Host.Outcome State Fault Refusal :=
  match (s.core c).nextOrdinary k with
  | some m =>
    match m.kind with
    | .amo op d b e =>
      if m.space = 0 ∧ s.mayPerform c m then
        .next (s.access0 c m true fun gs s =>
          let r := s.atomicAt gs m.len op b.toNat e.toNat
          (((segLines gs).foldl State.renewLease r.2).touchHome (s.classFor c m) gs).finish c m [.x d (BitVec.ofNat 64 r.1)])
      else .next s
    | _ => .next s
  | none => .next s

/-- A reduction at a PA of this module (R116, R117): absorbed in reduce state, where DRAM is not read, or, as an atomic at the
home, applied to the value of memory (R138). -/
def State.redAt (s : State) (pa : Nat) (red : Bool) (c : Nat) (op : RedOp) (f32 : Bool) (x : W32) : State :=
  if red then s.absorbRed pa c op f32 x
  else
    let s1 := s.markDamaged (lineOf pa) (memInfo 3 0 false PATOM 4 (plainFault UCE 0 s.hub.module))
    let s2 := s1.mergeLine (lineOf pa)
    let old := BitVec.ofNat 32 (ofBytes (s2.readAt [⟨pa, 4, true⟩]))
    s2.writeAt 0 [⟨pa, 4, true⟩] (bytesOf 4 (absorbOp op f32 old x).toNat)

/-- RED_AT_HOME (R116, R117, R252): the `i`-th access of the core, a `red` in space 0. -/
def execRedAtHome (c : CoreIx) (i : Nat) (s : State) : Host.Outcome State Fault Refusal :=
  match (s.core c).mops[i]? with
  | some m =>
    match m.kind, m.home with
    | .red op f32 x, some (pa, _, red) =>
      if m.space = 0 ∧ s.mayPerform c m ∧ !s.sealed (lineOf pa) then
        let s1 := (s.redAt pa red c op f32 x).touchHome (s.classFor c m) [⟨pa, 4, true⟩]
        .next (s1.act1 c m (s1.core c))
      else .next s
    | _, _ => .next s
  | none => .next s

/-! ## Space 2 (R249, R412) -/

/-- A space-2 access of one of this module's cores, to a tile of this module. A fenced die answers nothing (R412, R447). -/
def State.perform2 (s : State) (c : Nat) (m : MemOp) : State :=
  let a := m.addr
  if s.dieDown (dieOf (sprCore a)) then s else
  let t := s.core (sprCore a)
  let line := sprOffset a / 128
  let tile := t.tile (line / 32)
  match m.kind with
  | .load d sx =>
    match s.bad2 a with
    | some f =>
      if f.synd = SPREF ∨ f.synd = XLATE then s.faultOf c m f
      else (s.findLine (sprCore a) line (m.info false f)).dataTrap c m f
    | none =>
      if tile.present (line % 32) then s.finish c m [.x d (loadWord sx m.len (ofBytes (t.padRead (sprOffset a) m.len)))]
      else s
  | .store bs =>
    if !s.hub.valid || s.refuses2 a || tile.state = 3 then s
    else
      let s1 := s.setCore (sprCore a) (t.storeTile (sprOffset a) bs)
      s1.act1 c m (s1.core c)
  | _ => s

/-- The `i`-th outstanding access of a strand. -/
def Core.mopOf (c : Core) (k : StrandId) (i : Nat) : Option MemOp := (c.mops.filter fun m => m.strand == k)[i]?

/-- The fault that another module reports for a load or atomic (R402, R403, R412). -/
def remoteFault (m : MemOp) (f : RemoteFault) : MemFault :=
  match f with
  | .xlate l b => ⟨XLATE, m.addr, l.val, b, 0, m.module⟩
  | .perm l h => ⟨PERM, m.addr, l.val, false, h.val, m.module⟩
  | .refused => ⟨SPREF, m.addr, 0, false, 0, m.module⟩
  | .poison => ⟨POISON, m.addr &&& BitVec.ofNat 64 (2 ^ 64 - 128), 0, false, 0, m.module⟩

/-- A failure that an access in its space can have. -/
def MemOp.canFail (m : MemOp) (f : RemoteFault) : Bool :=
  match m.space, f with
  | 2, .xlate l b => l.val == 0 && !b
  | 2, .perm .. => false
  | 3, .poison => true
  | 3, _ => false
  | 4, .refused => false
  | _, _ => true

/-- Whether an access to another module may fail so: one to an absent module, and every one while this module's number is not
set, which sends none, fails with XLATE at LEVEL 0 (R334, R402, R412; log 61); the answer of a present one needs a route
(R336, R446). -/
def State.mayFail (s : State) (m : MemOp) (f : RemoteFault) : Bool :=
  m.canFail f && if s.hub.valid && !s.hub.absent m.module then s.hub.sends m.module else f == .xlate 0 false

/-- Another module answers an access: a load or atomic has its value, a store or `red` is done (R98, R139, R249). -/
def State.answer (s : State) (c : Nat) (m : MemOp) (value : Word) : State :=
  match m.kind with
  | .load d sx => s.finish c m [.x d (loadWord sx m.len (value.toNat % 256 ^ m.len))]
  | .amo _ d _ _ => s.finish c m [.x d (BitVec.ofNat 64 (value.toNat % 256 ^ m.len))]
  | _ => s.act1 c m (s.core c)

/-- Another module's answer or failure for an access of a strand of this module, if it is one that may be performed. -/
def State.remotely (s : State) (c : Nat) (k : StrandId) (i : Nat) (spaces : List Nat) (go : MemOp → State) : State :=
  match (s.core c).mopOf k i with
  | some m =>
    if spaces.contains m.space ∧ m.module ≠ s.hub.module ∧ !s.hub.egress ∧ s.mayPerform c m then go m else s
  | none => s

/-- Another module answers an access that a route of at most two hops carries to it (R336, R446). -/
def State.answered (s : State) (c : Nat) (m : MemOp) (v : Word) : State :=
  if s.hub.sends m.module then s.answer c m v else s

/-- The value last loaded from another module's counter (R122). -/
def Core.seenOf (c : Core) (m : MemOp) : Nat := sget 0 c.seen (4 * m.addr.toNat + m.strand.index)

/-- A load of another module's counter is answered with a value no lower than an earlier load of it returned (R122). -/
def State.answeredCounter (s : State) (c : Nat) (m : MemOp) (v : Word) : State :=
  let k := s.core c
  if v.toNat < k.seenOf m then s
  else (s.setCore c { k with seen := sput k.seen (4 * m.addr.toNat + m.strand.index) v.toNat }).answered c m v

/-- A record of a posted access that failed at this module (R407). -/
def State.postedRecord (s : State) (space : Nat) (a : Word) (f : MemFault) (info : Word) : State :=
  if space = 2 then s.coreRecord (sprCore a) f.synd 3 true false f.addr info
  else ((s.record 16 16 (s.free % 25) (Config.freeNat (s.draws + 1) % 65536) f.synd 3 true false f.addr info).drew).drew

/-- Whole lines of one tile in the order of their addresses, unmarked. -/
def linesOfBytes (bs : List Byte) : List (List Byte × Bool) :=
  (List.range (bs.length / 128)).map fun i => ((bs.drop (128 * i)).take 128, false)

/-- Whole lines that another module's Welt engine sends (R112): accepted, or refused, which the sender learns (R45, R412). -/
def State.incomingLines (s : State) (a : Word) (bs : List Byte) : State :=
  let line := sprOffset a / 128
  if s.refuses2 a ∨ bs.length % 128 ≠ 0 ∨ sprOffset a % 128 ≠ 0 ∨ 32 < line % 32 + bs.length / 128 then s
  else match (s.core (sprCore a)).arrive line (linesOfBytes bs) with
    | some k => s.setCore (sprCore a) k
    | none => s

/-- A space-2 access from another module (R249, R407, R412). -/
def State.incoming2 (s : State) (a : Word) (op : RemoteOp) : State :=
  let t := s.core (sprCore a)
  let line := sprOffset a / 128
  if sprModule a ≠ s.hub.module ∨ field a 44 20 ≠ 0 ∨ 7 < field a 27 5 ∨ !s.hub.valid ∨ s.dieDown (dieOf (sprCore a)) then s
  else
    match op with
    | .load n =>
      match s.bad2 a with
      | some f => if f.synd = SPREF then s else s.findLine (sprCore a) line (memInfo 0 2 false 0 n f)
      | none => s
    | .store bs =>
      if 128 ≤ bs.length then s.incomingLines a bs
      else if s.refuses2 a then
        let f := plainFault SPREF a s.hub.module
        s.postedRecord 2 a f (memInfo 1 2 true 0 bs.length f)
      else if (t.tile (line / 32)).state = 3 ∨ 128 < sprOffset a % 128 + bs.length then s
      else s.setCore (sprCore a) (t.storeTile (sprOffset a) bs)
    | _ => s

/-- SPACE2_ACCESS_AT_TARGET (R249, R412). -/
def execSpace2AccessAtTarget (r : PodRequest) (s : State) : Host.Outcome State Fault Refusal :=
  match r with
  | .own c k i =>
    match (s.core c).mopOf k i with
    | some m => .next (if m.space = 2 ∧ m.module = s.hub.module ∧ s.mayPerform c m then s.perform2 c m else s)
    | none => .next s
  | .answered c k i v => .next (s.remotely c k i [2] fun m => s.answered c m v)
  | .failed c k i f => .next (s.remotely c k i [2] fun m =>
      if s.mayFail m f ∧ !m.posted then s.faultOf c m (remoteFault m f) else s)
  | .incoming _ a op => .next (s.incoming2 a op)

/-! ## Space 4 (R98, R125, R139, R338, R402) -/

/-- A pod read finds damaged data: the fault with the pod address of the line, and the state after. -/
def State.podData (s : State) (a : Word) (va len : Nat) (info : MemFault → Word) : Option MemFault × State :=
  let s1 := s.settleVa s.hub.exportAsid s.hub.exportRoot va len
  let ls := s1.linesOf s.hub.exportAsid s.hub.exportRoot va len
  match s1.dataFault ls with
  | some f => (some { f with addr := a &&& BitVec.ofNat 64 (2 ^ 64 - 128) }, s1.markAll ls info)
  | none => (none, s1)

/-- The effect of a pod operation on this module's memory, once checked, at the one home of its bytes (R98): the value it
returns and the state after. -/
def State.podDo (s : State) (va : Nat) (op : RemoteOp) (c : Nat) : Nat × State :=
  let at' := fun (n : Nat) => s.segs s.hub.exportAsid s.hub.exportRoot va n
  match op with
  | .load n => (ofBytes (s.readAt (at' n)), s)
  | .store bs => (0, s.writeAt 0 (homed (at' bs.length)) bs)
  | .amo op w b e => let n := if w.val = 1 then 4 else 8; s.atomicAt (at' n) n op b.toNat e.toNat
  | .red op f x =>
    (0, s.redAt (s.paOf s.hub.exportAsid s.hub.exportRoot va) (leafRed (s.leafOf s.hub.exportAsid s.hub.exportRoot va)) c op
      (f.val = 1) x)

/-- The operation that an outstanding access asks of its target. -/
def MemOp.remoteOp (m : MemOp) : RemoteOp :=
  match m.kind with
  | .store bs => .store bs
  | .amo op _ b e => .amo op (if m.len = 4 then 1 else 0) b e
  | .red op f x => .red op (if f then 1 else 0) x
  | _ => .load m.len

/-- A pod operation reads memory, so damaged data stops it (R403, R404). -/
def opReads : RemoteOp → Bool
  | .load _ => true
  | .amo .. => true
  | _ => false

/-- The contention state of a page after an atomic from a module (R338). Only time depends on it. -/
def PageMode.note (p : PageMode) (m : Nat) : PageMode :=
  let cnt := if p.last = some m then min (p.cnt + 1) 255 else p.cnt / 2
  let owner := match p.owner with
    | none => if 32 ≤ cnt then some m else none
    | some o => if m ≠ o then none else some o
  { cnt := cnt, last := some m, owner := owner }

/-- Hub die 16's atomic cache takes a line in, the latest first, or gives back every line of its page (R338). -/
def Hub.keepAtomic (h : Hub) (a : Word) (keep : Bool) : Hub :=
  let line := a.toNat / 128
  { h with atomics := if keep then (line :: h.atomics.filter (· ≠ line)).take 4096
      else h.atomics.filter fun l => l / 512 ≠ line / 512 }

/-- The page's contention state takes note of an atomic that is performed, and the atomic cache with it, where this module is
the owner. -/
def State.contend (s : State) (a : Word) (m : Nat) : State :=
  let page := field a 16 36
  let mode := (sget {} s.hub.modes page).note m
  { s with hub := { s.hub with modes := sput s.hub.modes page mode }.keepAtomic a (mode.owner == some s.hub.module) }

/-- Another module performs an atomic of this one, which may own the page or lose it: which, is open here (R338, log 2). -/
def State.contendFar (s : State) (a : Word) : State :=
  { s.drew with hub := s.hub.keepAtomic a (s.free % 2 = 0) }

/-- An operation that POD_ATOMIC_AT_HOME serves (R139, R252). -/
def opAtomic : RemoteOp → Bool
  | .amo .. => true
  | .red .. => true
  | _ => false

/-- A checked pod operation from a module is performed; an atomic, but for a reduction that reduce state absorbs, counts in its
page's contention state (R98, R116, R338). -/
def State.podPerform (s : State) (a : Word) (va : Nat) (op : RemoteOp) (c m : Nat) : Nat × State :=
  let r := s.podDo va op c
  let counts := match op with
    | .amo .. => true
    | .red .. => !leafRed (s.leafOf s.hub.exportAsid s.hub.exportRoot va)
    | _ => false
  if counts then (r.1, r.2.contend a m) else r

/-- The walks of a pod operation read their tables, and reduce-state lines of its bytes are merged; a reduction merges only what
it is not absorbed in (R117). -/
def State.podSettle (s : State) (va : Nat) (op : RemoteOp) (n : Nat) : State :=
  match op with
  | .red .. => s.settleWalks s.hub.exportAsid s.hub.exportRoot va n
  | _ => s.settleVa s.hub.exportAsid s.hub.exportRoot va n

/-- A pod operation would have to cross to an expander after an egress stop (R368). -/
def State.podSealed (s : State) (va n : Nat) : Bool :=
  s.walkSealed s.hub.exportAsid s.hub.exportRoot va ||
    (s.linesOf s.hub.exportAsid s.hub.exportRoot va n).any fun p => s.sealed p.2

/-- An access of a core of this module to this module's own window. -/
def State.perform4 (s : State) (c : Nat) (m : MemOp) : State :=
  match s.podCheck m.addr m.accNeed.2 with
  | .error f => if m.posted then s else s.faultOf c m f
  | .ok va =>
    if s.podSealed va m.len then s else
    let op := m.remoteOp
    let r := if opReads op then s.podData m.addr va m.len (m.info false) else (none, s.podSettle va op m.len)
    match r.1 with
    | some f => r.2.dataTrap c m f
    | none =>
      let q := r.2.podPerform m.addr va op c s.hub.module
      q.2.answer c m (BitVec.ofNat 64 q.1)

/-- ACC, NEED and length of a pod operation. -/
def opAccNeed : RemoteOp → Nat × Nat × Nat
  | .load n => (0, PR, n)
  | .store bs => (1, PW, bs.length)
  | .amo _ w _ _ => (2, PATOM, if w.val = 1 then 4 else 8)
  | .red .. => (3, PATOM, 4)

/-- A pod operation that a strand's posted access makes: aligned, and of at most eight bytes (R248, R407). -/
def opPosted (a : Word) (op : RemoteOp) : Bool :=
  match op with
  | .store bs => [1, 2, 4, 8].contains bs.length && a.toNat % bs.length == 0
  | .red .. => true
  | _ => false

/-- A pod operation from another module (R98, R402, R407): an access of a strand, or a part of one line that a Welt engine, a
conditional copy or an operand fetcher there reads or writes, whose failure that engine alone reports (R426). -/
def State.incoming4 (s : State) (src : Nat) (a : Word) (op : RemoteOp) : State :=
  let n := opAccNeed op
  if field a 52 12 ≠ s.hub.module ∨ n.2.2 = 0 ∨ 128 < a.toNat % 128 + n.2.2 ∨ (opAtomic op ∧ a.toNat % n.2.2 ≠ 0) then s
  else
    match s.podCheck a n.2.1 with
    | .error f => if opPosted a op then s.postedRecord 4 a f (memInfo n.1 4 true n.2.1 n.2.2 f) else s
    | .ok va =>
      if s.podSealed va n.2.2 then s else
      let r := if opReads op then s.podData a va n.2.2 (memInfo n.1 4 false n.2.1 n.2.2)
        else (none, s.podSettle va op n.2.2)
      match r.1 with
      | some _ => r.2
      | none => if n.1 = 3 then (r.2.podPerform a va op (s.free % 512) src).2.drew else (r.2.podPerform a va op 0 src).2

/-- A read-modify-write. -/
def MopKind.isAmo : MopKind → Bool
  | .amo .. => true
  | _ => false

/-- An access that POD_ATOMIC_AT_HOME serves: an atomic, or a `red` (R139, R252). -/
def MemOp.atomic (m : MemOp) : Bool :=
  match m.kind with
  | .amo .. => true
  | .red .. => true
  | _ => false

/-- A remote access event on space 4, for atomics or for loads and stores; a load of another module's counter is answered
like a pod load (R66, R97). -/
def State.podEvent (s : State) (r : PodRequest) (atomic : Bool) : State :=
  let spaces := if atomic then [4] else [3, 4]
  match r with
  | .own c k i =>
    match (s.core c).mopOf k i with
    | some m =>
      if m.space = 4 ∧ m.module = s.hub.module ∧ m.atomic = atomic ∧ s.mayPerform c m then s.perform4 c m else s
    | none => s
  | .answered c k i v => s.remotely c k i spaces fun m =>
      if m.atomic ≠ atomic then s
      else if m.space = 3 then s.answeredCounter c m v
      else if m.kind.isAmo ∧ s.hub.sends m.module then (s.answered c m v).contendFar m.addr else s.answered c m v
  | .failed c k i f => s.remotely c k i spaces fun m =>
      if m.atomic = atomic ∧ s.mayFail m f ∧ !m.posted then s.faultOf c m (remoteFault m f) else s
  | .incoming src a op => if opAtomic op = atomic ∧ s.hub.valid then s.incoming4 src a op else s

/-- POD_ATOMIC_AT_HOME (R139, R338). -/
def execPodAtomicAtHome (r : PodRequest) (s : State) : Host.Outcome State Fault Refusal := .next (s.podEvent r true)

/-- POD_ACCESS_AT_TARGET (R98, R125). -/
def execPodAccessAtTarget (r : PodRequest) (s : State) : Host.Outcome State Fault Refusal := .next (s.podEvent r false)

/-! ## Posted failures (R407, R408) -/

/-- The first failure of a queue fills the strand's deferred slot: 0 Welt, 1 fabric (R407). -/
def Core.defer (c : Core) (k : StrandId) (queue : Nat) (d : Deferred) : Core :=
  let key := 2 * k.index + queue
  match sget none c.deferred key with
  | some _ => c
  | none => { c with deferred := sput c.deferred key (some d) }

/-- How a posted access fails at its target, where that is this module. -/
def State.ownFailure (s : State) (m : MemOp) : Option MemFault :=
  if m.space = 2 then
    if s.dieDown (dieOf (sprCore m.addr)) then none
    else if !s.hub.valid then some (plainFault XLATE m.addr s.hub.module)
    else if s.refuses2 m.addr then some (plainFault SPREF m.addr s.hub.module) else none
  else match s.podCheck m.addr m.accNeed.2 with
    | .error f => some f
    | .ok _ => none

/-- POSTED_ACCESS_FAILURE (R407): the target's record, if the target is this module, and the strand's deferred slot. -/
def execPostedAccessFailure (c : CoreIx) (i : Nat) (f : RemoteFault) (s : State) : Host.Outcome State Fault Refusal :=
  match (s.core c).mops[i]? with
  | some m =>
    if !(m.posted && m.fabric) || !s.mayPerform c m then .next s
    else
      let own := m.module = s.hub.module
      let g := remoteFault m f
      let found := if own then s.ownFailure m else if s.mayFail m f ∧ f ≠ .poison then some g else none
      if found = some g then
        let info := m.info true g
        let s1 := if own then s.postedRecord m.space m.addr g info else s
        .next (s1.act1 c m
          (if m.orphan then s1.core c else (s1.core c).defer m.strand (if m.space = 2 then 0 else 1) ⟨g.synd, g.addr, info⟩))
      else .next s
  | none => .next s

/-! ## Leases and walks -/

/-- LEASE_RENEWAL (R120). -/
def execLeaseRenewal (line : Nat) (s : State) : Host.Outcome State Fault Refusal := .next (s.renewLease (lineOf line))

/-- An access may be waiting for the walk of a page: its check has neither passed nor failed (R105). -/
def MemOp.awaits (m : MemOp) (va : Nat) : Bool :=
  m.space == 0 && m.segs.isEmpty && m.walk.isNone && m.home.isNone && m.addr.toNat / 65536 == va / 65536

/-- The result of the walk that an access waited for: its translation is held, or its check has failed (R106, R400). -/
def State.walkedTo (s : State) (m : MemOp) (w : Walk) : MemOp :=
  match s.checkWalk m.accNeed.2 m.addr.toNat w with
  | .ok (l, e) => { m with segs := [⟨leafPa s.hub.expanders l e m.addr.toNat, m.len, leafKv e⟩] }
  | .error f => { m with walk := some ⟨f.level, f.malf, if f.synd = PERM then some f.have4 else none⟩ }

/-- One walk ends for a K-die's walker: each access of the die's cores that waited for it has its one result. Which accesses
waited, and which had found the page in a TLB or looked later, is open (R105, R400, log 2). -/
def State.coalesce (s : State) (d asid root va : Nat) (w : Walk) : State :=
  let cs := ((List.range 64).map fun i => 64 * d + i).filter fun c => (s.core c).asid == asid && (s.core c).root == root
  (cs.flatMap fun c => ((s.core c).mops.filter fun m => m.awaits va).map fun m => (c, m)).foldl (fun t p =>
    if t.free % 2 = 0 then
      let k := t.core p.1
      (t.setCore p.1 { k with mops := k.mops.map fun x => if x.tok = p.2.tok then s.walkedTo x w else x }).drew
    else t.drew) s

/-- TABLE_WALK_END (R105, R399, R400): a walk ends with one result for every access that waits for it, and leaves what it read
cached where it ends in a valid leaf. -/
def execTableWalkEnd (c : CoreIx) (va : Nat) (s : State) : Host.Outcome State Fault Refusal :=
  let k := s.core c
  if 2 ^ 57 ≤ va ∨ s.walkSealed k.asid k.root va = true then .next s
  else .next (((s.settleWalk k.asid k.root va).coalesce (dieOf c) k.asid k.root va (s.translate k.asid k.root va)).cacheWalk
    k.asid k.root va)

end Sys2Proof.Machine
end

