-- ==== Sys2Proof/Machine/Counters.lean ====
section
/-! DEFINITION. Routes to other modules, counter adds and remote waits on their way, evictions and write-backs
(R66, R67, R114, R118, R127 to R130, R175, R335, R336, R446). -/

namespace Sys2Proof.Machine

/-! ## Counter adds (R67, R127, R173, R175) -/

/-- The i-th add is the next of its stream: of one sender's adds to one die or module that have been sent, the earlier arrive
first, and what its core's port sent there before comes before it (R333, R337). -/
def State.addNext (s : State) (i : Nat) (a : Add) : Bool :=
  ((s.adds.take i).all fun x => x.sender.stream.isNone || x.sender.stream != a.sender.stream || s.addTarget x != s.addTarget a || !s.addReady x) &&
  match a.src with
  | none => true
  | some (c, k, t) => (s.core c).mops.all fun m =>
      t ≤ m.tok || s.streamOf m != some (s.addTarget a) || !(m.strand == k || s.mayEnter c m)

/-- The value that a barrier waits for: the next multiple of n at or above the value just after its add (R175). -/
def barrierGoal (n v : Nat) : Nat := n * ((v + n - 1) / n)

/-- A barrier of strand `k` whose add has returned v begins its wait. A goal that no counter reaches is never reached. -/
def Block.added (b : Block) (tok v own : Nat) : Block :=
  match b with
  | .barrier h n t pc ls =>
    let g := barrierGoal n.toNat v
    if t ≠ tok ∨ 2 ^ 64 ≤ g then b
    else if hModule h = own then .counter h (BitVec.ofNat 64 g) pc ls
    else .remote h (BitVec.ofNat 64 g) false pc ls
  | b => b

/-- The strand of a `bar` learns the value that its add returned. -/
def State.barReturns (s : State) (a : Add) (v : Nat) : State :=
  match a.bar, a.src with
  | some _, some (c, k, t) =>
    let x := (s.core c).strand k
    s.setCore c ((s.core c).setStrand k
      { x with block := x.block.added t v s.hub.module, asideBlock := x.asideBlock.added t v s.hub.module })
  | _, _ => s

/-- COUNTER_ADD_ARRIVAL (R67, R127, R129): an add is performed at the counter's holder. -/
def execCounterAddArrival (a : AddArrival) (s : State) : Host.Outcome State Fault Refusal :=
  match a with
  | .own i r =>
    match s.adds[i]? with
    | none => .next s
    | some d =>
      let s1 := { s with adds := s.adds.eraseIdx i }
      if !s.addReady d ∨ !s.addNext i d ∨ s.counterDown d.handle = true then .next s
      else if hModule d.handle = s.hub.module then
        let s2 := s1.landAdd d
        .next (s2.barReturns d (s2.counter d.handle))
      else .next (if s.hub.sends (hModule d.handle) then s1.barReturns d r.toNat else s)
  | .incoming h v =>
    .next (if handleOk h ∧ hModule h = s.hub.module ∧ s.hub.valid ∧ s.counterDown h = false then s.performAdd h v.toNat else s)

/-! ## Remote waits (R66) -/

/-- The remote wait of a block ends. -/
def Block.answered : Block → Block
  | .remote .. => .none
  | b => b

/-- A strand's remote wait, of its next word or of the word that a handler interrupted. -/
def Strand.remoteWait (t : Strand) : Option (Word × Word × Bool × Nat × List LoopLevel) :=
  match t.block, t.asideBlock with
  | .remote h v r pc ls, _ => some (h, v, r, pc, ls)
  | _, .remote h v r pc ls => some (h, v, r, pc, ls)
  | _, _ => none

/-- REMOTE_WAIT_ANSWER (R66, R334, R368, R406): the other hub answers, by a route that stands, once the counter holds the value;
a poisoned counter traps. -/
def execRemoteWaitAnswer (c : CoreIx) (k : StrandId) (value : RemoteValue) (s : State) : Host.Outcome State Fault Refusal :=
  let core := s.core c
  let t := core.strand k
  match t.remoteWait with
  | some (h, v, true, pc, ls) =>
    match value with
    | .value w =>
      .next (if v ≤ w ∧ s.hub.sends (hModule h) then
          s.setCore c (core.setStrand k { t with block := t.block.answered, asideBlock := t.asideBlock.answered })
        else s)
    | .poisoned =>
      .next (match t.block with
        | .remote .. => if s.hub.sends (hModule h) then s.trapAt c k POISON h (counterInfo h) pc ls else s
        | _ => s)
  | _ => .next s

/-- A remote wait is registered, or refused again (R66). -/
def Block.register (b : Block) (accepted : Bool) : Block :=
  match b with
  | .remote h v false pc ls => .remote h v accepted pc ls
  | b => b

/-- A strand's remote wait names a module to which messages leave (R334, R336, R368). -/
def State.waitSends (s : State) (t : Strand) : Bool := t.remoteWait.any fun x => s.hub.sends (hModule x.1)

/-- REMOTE_WAIT_RESEND (R66): a registration that was refused is sent again. -/
def execRemoteWaitResend (c : CoreIx) (k : StrandId) (accepted : Bool) (s : State) : Host.Outcome State Fault Refusal :=
  let core := s.core c
  let t := core.strand k
  .next (if s.waitSends t then s.setCore c (core.setStrand k
      { t with block := t.block.register accepted, asideBlock := t.asideBlock.register accepted })
    else s)

/-! ## Evictions and write-backs (R114, R117, R118, R137, R195) -/

/-- A cache's lines in their order of eviction: EVICT-FIRST before NORMAL before KEEP (R114). -/
def evictRank (cls : Nat) : Nat := if cls = 1 then 0 else if cls = 0 then 1 else 2

/-- A line of a cache is no later in the order of eviction than any other line that the cache holds (R114). -/
def State.evictable (s : State) (t : CacheLine) : Bool :=
  s.cached.all fun x => x.place != t.place || evictRank t.cls ≤ evictRank x.cls

/-- Lines leave a cache: reduce-state lines are merged where it is the home's, and lines dirty there are written back (R117). -/
def State.evict (s : State) (place : Nat) (lines : List Nat) : State :=
  let s1 := { s with cached := s.cached.filter fun t => !(t.place == place && lines.contains t.line) }
  if 1024 ≤ place then s1.mergeLines lines
  else s1.writeBackAll 0 false (lines.filter fun l => s1.dirtyPlace l == place && !(s1.dirtyBytes l).isEmpty)

/-- LINE_EVICTION (R114, R117): a line, or by free choice its superblock, leaves a cache that holds it; which, is open. -/
def execLineEviction (line : Nat) (s : State) : Host.Outcome State Fault Refusal :=
  let ts := s.cached.filter fun t => t.line == lineOf line && s.evictable t
  match ts[s.free % max ts.length 1]? with
  | none => .next s
  | some t =>
    let ls := if Config.freeNat (s.draws + 1) % 2 = 0 then [lineOf line]
      else (List.range 4).map fun i => line / 512 * 512 + 128 * i
    .next ((s.evict t.place ls).drew).drew

/-- A write-back reaches its home: its bytes are in memory, with its mark; damage to the line in a write-back buffer or a cache is
found as it is read there (R118, R404, R414). -/
def State.land (s : State) (w : WriteBack) : State :=
  let s := if w.bytes.length < 128 then s.findCopy w.line else s
  let s0 : State := { s with mem := w.bytes.foldl (fun m p => Memory.set m p.1 p.2) s.mem }
  let s1 := s0.noteWrite (homeOf w.line) none w.line
  if w.poison then s1.setMark w.line else s1

/-- A write-back reaches an L2 slice: its bytes are dirty there, but for those written again meanwhile (R118). -/
def State.landL2 (s : State) (w : WriteBack) : State :=
  let newer := fun (m : List Host.Cell) (a : Nat) => (slook m a).isSome || s.wbs.any fun x => (slook x.bytes a).isSome
  let s1 : State := { s with
    dirty := w.bytes.foldl (fun m p => if newer m p.1 then m else sput m p.1 p.2) s.dirty
    dirtyAt := if (slook s.dirtyAt w.line).isSome then s.dirtyAt else sput s.dirtyAt w.line w.dst }
  s1.touch [w.dst] w.line (((s.cached.find? fun t => t.line == w.line && t.place == w.dst).map (·.cls)).getD 0)

/-- The write-back buffer of a slice holds 16 entries, of which any number may have drained meanwhile (R118, log 2). -/
def State.bufferRoom (s : State) (slice : Nat) : Nat := sget 0 s.wbuf slice - s.free % 17

/-- The i-th write-back is in flight: a requester has at most two to one slice, and a line's arrive in order (R118). -/
def State.inFlight (s : State) (i : Nat) (w : WriteBack) : Bool :=
  decide (((s.wbs.take i).filter fun x => x.src == w.src && x.dst == w.dst).length < 2) &&
  (s.wbs.take i).all fun x => x.line != w.line

/-- A write-back is accepted by the buffer of its slice, or refused (R118); one that is meant for the home goes on from an L2
slice (R195). -/
def State.arriveBack (s : State) (i : Nat) (resend : Bool) : State :=
  match s.wbs[i]? with
  | none => s
  | some w =>
    if w.refused ≠ resend || !s.inFlight i w then s
    else
      let n := s.bufferRoom w.dst
      if s.hub.egress ∧ 1024 + 32 * 18 ≤ w.dst then s
      else if 16 ≤ n then { s with wbs := s.wbs.set i { w with refused := true }, wbuf := sput s.wbuf w.dst n }.drew
      else
        let s1 := { s with wbuf := sput s.wbuf w.dst (n + 1) }.drew
        let s2 := { s1 with wbs := s1.wbs.eraseIdx i }
        if 1024 ≤ w.dst then s2.land w
        else if w.home then { s1 with wbs := s1.wbs.set i { w with src := w.dst, dst := llcPlace w.line, refused := false } }
        else s2.landL2 w

/-- WRITE_BACK_ARRIVAL (R118). -/
def execWriteBackArrival (i : Nat) (s : State) : Host.Outcome State Fault Refusal := .next (s.arriveBack i false)

/-- WRITE_BACK_RESEND (R118). -/
def execWriteBackResend (i : Nat) (s : State) : Host.Outcome State Fault Refusal := .next (s.arriveBack i true)

end Sys2Proof.Machine
end

