-- ==== Sys2Proof/Machine/Maps.lean ====
section
/-! DEFINITION. The words that the hub shows of readiness and of the islands (R14, R19, R20). -/

namespace Sys2Proof.Machine

/-- Bits 0 to n − 1 given by a test, as a number. -/
def bitsOf (n : Nat) (f : Nat → Bool) : Nat := ((List.range n).map fun i => if f i then 2 ^ i else 0).sum

/-- The functions present: those of the package dies and of attached expanders; an expander port counts where an expander is
attached, and the host link of hub die 17 where it is connected (R17; log 20). -/
def Hub.presentUnits (h : Hub) : List UnitId :=
  ((List.range 22).flatMap fun n =>
    if n < 18 ∨ h.expanders.contains n then dieUnits (Fin.ofNat 22 n) else []).filter fun u =>
      match u with
      | .xport k p => h.expanders.contains (18 + 2 * k.val + p.val)
      | .host k => k.val = 0 || Config.secondLink
      | _ => true

/-- ALLUP. -/
def State.allUp (s : State) : Bool := s.hub.presentUnits.all s.isReady

/-- Word `r` of a K-die, T-die or hub die's part of the map. -/
def State.dieMapWord (s : State) (n r : Nat) : Nat :=
  let d : Fin 8 := Fin.ofNat 8 n
  let t : Fin 22 := Fin.ofNat 22 n
  let h : Fin 2 := Fin.ofNat 2 (n - 16)
  let on := fun (lo : Nat) (u : UnitId) => if s.isReady u then 2 ^ lo else 0
  if r = 0x10 then bitsOf 12 fun m => s.isReady (.link t (Fin.ofNat 12 m))
  else if n < 8 then
    if r = 0 then bitsOf 64 fun c => s.isReady (.core d (Fin.ofNat 64 c))
    else if r = 8 then
      (bitsOf 16 fun q => s.isReady (.quad d (Fin.ofNat 16 q))) +
      2 ^ 16 * (bitsOf 32 fun i => s.isReady (.slice d (Fin.ofNat 32 i))) +
      on 48 (.heap d) + on 49 (.nest d) + on 50 (.cinch d) + on 51 (.awl d) + on 52 (.ring d) +
      2 ^ 53 * (bitsOf 4 fun g => s.isReady (.gway d (Fin.ofNat 4 g)))
    else 0
  else if n = 16 ∨ n = 17 then
    if r = 8 then
      on 0 (.host h) + on 1 (.xport h 0) + on 2 (.xport h 1) + on 3 (.graph h) + on 4 (.coll h) + on 5 (.barr h) +
      on 6 (.tele h)
    else 0
  else if r = 0 then bitsOf 64 fun e => s.isReady (.attn t (Fin.ofNat 64 e))
  else if r = 8 then
    on 0 (.ccu t) + on 1 (.rtree t) + on 2 (.llc t) + on 3 (.hbm t) + on 4 (.lpdr t) + on 5 (.pres t)
  else 0

/-- The readiness map word at an offset; unlisted words read as zero (R20). -/
def State.mapWord (s : State) (off : Nat) : Word :=
  BitVec.ofNat 64
    (if off % 8 ≠ 0 then 0
     else if off = 0 then s.hub.gen + 2 ^ 32 * s.hub.boot.img + if s.allUp then 2 ^ 35 else 0
     else if 0x100 ≤ off ∧ off < 0x200 then s.dieMapWord ((off - 0x100) / 32) (off % 32)
     else if 0x200 ≤ off ∧ off < 0x3C0 ∧ (off - 0x200) / 32 ≠ 8 ∧ (off - 0x200) / 32 ≠ 9 then
       s.dieMapWord (8 + (off - 0x200) / 32) (off % 32)
     else if 0x400 ≤ off ∧ off < 0x440 then s.dieMapWord (16 + (off - 0x400) / 32) (off % 32)
     else if 0x500 ≤ off ∧ off < 0x520 then
       bitsOf 64 fun b => s.isReady (.fibre (Fin.ofNat 256 (64 * ((off - 0x500) / 8) + b)))
     else 0)

/-- An island status word (R14). -/
def Island.word (i : Island) : Word :=
  BitVec.ofNat 64 (i.mhz % 2 ^ 16 + 2 ^ 16 * (i.mv % 2 ^ 16) + (if i.pwr then 2 ^ 32 else 0) + if i.hot then 2 ^ 33 else 0)

/-- The status word of island i, 0 above 25. -/
def State.islandWord (s : State) (i : Nat) : Word := if i < 26 then (sget {} s.hub.islands i).word else 0

end Sys2Proof.Machine
end

