-- ==== Sys2Proof/Machine/Blocks.lean ====
section
/-! DEFINITION. Control blocks read at issue, lineages, loop-nest records and task entries (R134, R182 to R187, R268, R396). -/

namespace Sys2Proof.Machine

/-! ## Reading a block (R106, R134, R398) -/

/-- A block that a word reads as it would issue: its fault, what the read leaves, and its bytes. -/
structure BlockRead where
  fault : Option TrapInfo
  found : State → State
  bytes : List Byte

/-- Read a block of global memory as an ordinary reader at one point (R134); ACC as R396 gives it. -/
def State.readBlock (s : State) (acc asid root va len need : Nat) : BlockRead :=
  let info := memInfo acc 0 false need len
  match s.checkRange asid root need va len with
  | some f => ⟨some ⟨f.synd, f.addr, info f, some f.addr, none⟩, fun t => t.settleWalks asid root va len, []⟩
  | none =>
    let s1 := s.settleVa asid root va len
    let ls := s1.linesOf asid root va len
    let found := fun (t : State) => (t.settleVa asid root va len).markAll ls info
    match s1.dataFault ls with
    | some f => ⟨some ⟨f.synd, f.addr, info f, recOf f, none⟩, found, []⟩
    | none => ⟨none, found, s1.readVa asid root va len⟩

/-- Read a block in the address space of the core being run. -/
def State.blockHere (s : State) (va : Word) (len need : Nat) : BlockRead :=
  s.readBlock 6 s.here.asid s.here.root va.toNat len need

/-- The block was read, so that its contents can be looked at. -/
def BlockRead.ok (b : BlockRead) : Bool := b.fault.isNone

/-- A 32-bit signed field of a block. -/
def snum (b : List Byte) (o : Nat) : Int := (BitVec.ofNat 32 (num b o 4)).toInt

/-- An offence of a block's field, in the order of R384: BIT the address field, POS the byte offset. -/
def blk (c : Prop) [Decidable c] (bit pos : Nat) : List Offence := valAt c bit pos 11

/-- The first byte of a range that should be zero and is not. -/
def nonZero (b : List Byte) (o n : Nat) : Bool := num b o n ≠ 0

/-! ## Lineages (R69, R183, R268) -/

/-- A lineage held in a block. -/
def lineageAt (b : List Byte) (o depth : Nat) : Lineage :=
  ⟨depth, BitVec.ofNat 64 (num b o 8), BitVec.ofNat 64 (num b (o + 8) 8)⟩

/-- A non-zero level at or above the depth: the first such byte. -/
def levelOffences (b : List Byte) (o depth bit : Nat) : List Offence :=
  match (List.range 16).find? fun k => depth ≤ k && num b (o + k) 1 ≠ 0 with
  | some k => blk True bit (o + k)
  | none => []

/-- `%ctx` of a context id, its flags and a depth (R69). -/
def ctxWord (ctx flags depth : Nat) : Word := BitVec.ofNat 64 (ctx + 2 ^ 24 * flags + 2 ^ 32 * depth)

/-! ## Loop-nest records (R183, R184) -/

/-- Values of one loop: the count (R183). -/
def loopCount (l : Int × Int × Int) : Nat :=
  if l.2.2 = 0 then 0 else (-(Int.fdiv (l.1 - l.2.1) l.2.2)).toNat

/-- Loop l of a record. -/
def loopAt (b : List Byte) (l : Nat) : Int × Int × Int :=
  (snum b (0x40 + 16 * l), snum b (0x44 + 16 * l), snum b (0x48 + 16 * l))

/-- NLOOPS of a record, at most 4. -/
def nestLoops (b : List Byte) : Nat := min (num b 0x14 1) 4

/-- The loop numbers by position, outermost first. -/
def nestOrder (b : List Byte) : List Nat := (List.range (nestLoops b)).map fun j => num b 0x15 1 / 4 ^ j % 4

/-- Counts of the declared loops by number. -/
def nestCounts (b : List Byte) : List Nat := (List.range (nestLoops b)).map fun l => loopCount (loopAt b l)

/-- The lowest loop at which the product of counts passes 2^48 − 1. -/
def nestOverflow (b : List Byte) : Option Nat :=
  if 2 ^ 48 ≤ (nestCounts b).prod then
    (List.range (nestLoops b)).find? fun l => 2 ^ 48 ≤ ((nestCounts b).take (l + 1)).prod
  else none

/-- The offences of a record's contents (R184), against the field that holds its address. -/
def nestOffences (b : List Byte) (bit : Nat) : List Offence :=
  let n := nestLoops b
  let e := BitVec.ofNat 64 (num b 0x18 8)
  let depth := num b 0x24 1 % 32
  blk (num b 0 8 = 0) bit 0 ++
  blk (24575 < num b 0x10 4) bit 0x10 ++
  blk (num b 0x14 1 = 0 ∨ 4 < num b 0x14 1) bit 0x14 ++
  blk (!(List.range n).all (fun l => (nestOrder b).contains l) ∨ num b 0x15 1 / 4 ^ n ≠ 0) bit 0x15 ++
  blk (nonZero b 0x16 2) bit 0x16 ++
  (if e = 0 then [] else handleOffences e bit (some 0x18)) ++
  blk (16 < depth ∨ num b 0x24 4 / 32 ≠ 0) bit 0x24 ++
  levelOffences b 0x28 (min depth 16) bit ++
  blk (nonZero b 0x38 8) bit 0x38 ++
  ((List.range 4).flatMap fun l =>
    let o := 0x40 + 16 * l
    if n ≤ l then blk (nonZero b o 16) bit o
    else blk (num b (o + 8) 4 = 0) bit (o + 8) ++ blk (nonZero b (o + 12) 4) bit (o + 12)) ++
  match nestOverflow b with
  | some l => valAt True bit (0x40 + 16 * l) 3
  | none => []

/-- A record as the walker takes it (R183). -/
def nestRec (b : List Byte) (id : Nat) (va : Word) (agent : Nat) : NestRec :=
  { id := id
    va := va
    agent := agent
    cores := BitVec.ofNat 64 (num b 0 8)
    arg := BitVec.ofNat 64 (num b 8 8)
    entry := num b 0x10 4
    order := nestOrder b
    loops := (List.range (nestLoops b)).map (loopAt b)
    endH := blockCounter (BitVec.ofNat 64 (num b 0x18 8))
    ctx := num b 0x20 3
    flags := num b 0x23 1
    lin := lineageAt b 0x28 (num b 0x24 1 % 32)
    total := (nestCounts b).prod }

/-- CLASS of a record's FLAGS (R315). -/
def NestRec.cls (r : NestRec) : Nat := r.flags % 4

/-- NOPRE of a record's FLAGS (R315). -/
def NestRec.nopre (r : NestRec) : Bool := bitOf r.flags 2

/-- The iteration counts by loop number of a linear number: the innermost position varies fastest (R183). -/
def splitLinear (loops : List (Int × Int × Int)) : List Nat → Nat → List (Nat × Nat)
  | [], _ => []
  | l :: r, n =>
    let c := loopCount (loops.getD l (0, 0, 0))
    (l, n % c) :: splitLinear loops r (n / c)

/-- The value of loop l in an iteration: start + k × step, 0 for a loop not declared (R41). -/
def NestRec.loopValue (r : NestRec) (n l : Nat) : Word :=
  match (splitLinear r.loops r.order.reverse n).find? fun p => p.1 == l with
  | some (_, k) =>
    let x := r.loops.getD l (0, 0, 0)
    BitVec.ofInt 64 (x.1 + k * x.2.2)
  | none => 0

/-- Hand a record to a K-die's walker: the status, and the state after (R182, R184, R325). -/
def State.submitNest (s : State) (d : Nat) (va : Word) (agent : Nat) (b : List Byte) : Nat × State :=
  let k := s.kdie d
  let r := nestRec b k.nextRec va agent
  if !s.isReady (.nest (Fin.ofNat 8 d)) then (2, s)
  else if 64 ≤ k.recs.length then (1, s)
  else if coveredBy k.prefixes r.lin then (0, s.postAdd (.nest (Fin.ofNat 8 d)) r.endH (2 ^ 48))
  else if r.total = 0 then (0, s.postAdd (.nest (Fin.ofNat 8 d)) r.endH 1)
  else (0, s.setKdie d { k with recs := k.recs ++ [r], nextRec := k.nextRec + 1 })

/-! ## Task entries (R185, R186) -/

/-- The offences of a task entry, against the field that holds its address. -/
def taskOffences (b : List Byte) (bit : Nat) : List Offence :=
  let p := BitVec.ofNat 64 (num b 24 8)
  let depth := field p 59 5
  levelOffences b 8 (min depth 16) bit ++ blk (16 < depth ∨ field p 57 2 ≠ 0) bit 24

/-- A task entry as the heap holds it. -/
def taskEntry (b : List Byte) (stamp : Nat) : HeapEntry :=
  let p := BitVec.ofNat 64 (num b 24 8)
  { key := num b 0 4, ctx := num b 4 3, flags := num b 7 1, lin := lineageAt b 8 (field p 59 5), ptr := p, stamp := stamp }

/-- Offer an entry to a K-die's heap: the status, and the state after (R186, R324, R325, R433). -/
def State.submitTask (s : State) (d : Nat) (_va : Word) (_agent : Nat) (b : List Byte) : Nat × State :=
  let k := s.kdie d
  let e := taskEntry b k.pops
  if !s.isReady (.heap (Fin.ofNat 8 d)) then (2, s)
  else if coveredBy k.prefixes e.lin then (0, s)
  else if 16384 ≤ k.heap.length then
    let s1 := s.setKdie d { k with heapLogged := true }
    (1, if k.heapLogged then s else s1.record d d 3 0 HEAPF 1 false false 0 (BitVec.ofNat 64 e.ctx))
  else (0, s.setKdie d { k with heap := k.heap ++ [e] })

/-! ## Nodes of a graph record (R311, R314) -/

/-- A node's bytes. -/
abbrev GraphNode := List Byte

/-- KIND: 1 NEST, 2 TASK, 3 KVCMD, 4 AWL, 5 ADD. -/
def gnKind (b : GraphNode) : Nat := num b 0 1
/-- DIE. -/
def gnDie (b : GraphNode) : Nat := num b 1 1
/-- CORE. -/
def gnCore (b : GraphNode) : Nat := num b 2 1
/-- WAITH. -/
def gnWait (b : GraphNode) : Word := BitVec.ofNat 64 (num b 8 8)
/-- WAITV. -/
def gnValue (b : GraphNode) : Nat := num b 0x10 8
/-- NDONE: the counter named, all ones for none. -/
def gnDone (b : GraphNode) : Word := blockCounter (BitVec.ofNat 64 (num b 0x18 8))

/-- Operand k of a node under a replay's snapshot (R314). -/
def Replay.operand (r : Replay) (b : GraphNode) (k : Nat) : Word :=
  if bitOf (num b 3 1) k then sget 0 r.snapshot (num b (4 + k) 1) else BitVec.ofNat 64 (num b (0x20 + 8 * k) 8)

end Sys2Proof.Machine
end

