-- ==== Sys2Proof/Machine/Control.lean ====
section
/-! DEFINITION. Shared control: transfers, loops, counters, barriers, fences, special registers, stopping, software traps
(R170 to R179). -/

namespace Sys2Proof.Machine

/-! ## Transfers (R170) -/

/-- BEQZ (R151, R170). -/
def execBeqz (h : Hdr) (a : Fin 32) (o : Fin 8192) (s : State) : Host.Outcome State Fault Refusal :=
  .next (s.branch h a o fun x => x == 0)
/-- BNEZ (R151, R170). -/
def execBnez (h : Hdr) (a : Fin 32) (o : Fin 8192) (s : State) : Host.Outcome State Fault Refusal :=
  .next (s.branch h a o fun x => x != 0)
/-- BLTZ (R151, R170). -/
def execBltz (h : Hdr) (a : Fin 32) (o : Fin 8192) (s : State) : Host.Outcome State Fault Refusal :=
  .next (s.branch h a o fun x => x.slt 0)
/-- BGEZ (R151, R170). -/
def execBgez (h : Hdr) (a : Fin 32) (o : Fin 8192) (s : State) : Host.Outcome State Fault Refusal :=
  .next (s.branch h a o fun x => !x.slt 0)
/-- BLEZ (R151, R170). -/
def execBlez (h : Hdr) (a : Fin 32) (o : Fin 8192) (s : State) : Host.Outcome State Fault Refusal :=
  .next (s.branch h a o fun x => !(0 : Word).slt x)
/-- BGTZ (R151, R170). -/
def execBgtz (h : Hdr) (a : Fin 32) (o : Fin 8192) (s : State) : Host.Outcome State Fault Refusal :=
  .next (s.branch h a o fun x => (0 : Word).slt x)

/-- A transfer that is always taken, with an optional link in x31 (R170). -/
def State.jump (s : State) (h : Hdr) (w o : Nat) (link : Bool) : State :=
  let p := s.me.pc
  let t := targetOf p w o
  let tok := s.tok
  s.issue h
    { accs := if link then [wrx 31 0] else []
      lat := if link then some 1 else none
      bits := targetOffence t
      target := some t.toNat
      go := fun s => if link then s.writeX tok 1 31 (BitVec.ofNat 64 (p + 1)) else s }

/-- BR (R151, R170). -/
def execBr (h : Hdr) (o : Fin 8192) (s : State) : Host.Outcome State Fault Refusal := .next (s.jump h 13 o false)
/-- J (R170). -/
def execJ (h : Hdr) (o : Fin 2097152) (s : State) : Host.Outcome State Fault Refusal := .next (s.jump h 21 o false)
/-- JAL (R170). -/
def execJal (h : Hdr) (o : Fin 2097152) (s : State) : Host.Outcome State Fault Refusal := .next (s.jump h 21 o true)

/-- JR (R170): the target is a register value. -/
def execJr (h : Hdr) (a : Fin 32) (s : State) : Host.Outcome State Fault Refusal :=
  let v := (s.rx a).toNat
  .next (s.issue h { accs := [rdx a 11], checks := val (24575 < v) 11 3, target := some v })

/-- JALR (R170): the link is written, and the strand continues at the value xa had before. -/
def execJalr (h : Hdr) (d a : Fin 32) (s : State) : Host.Outcome State Fault Refusal :=
  let v := (s.rx a).toNat
  let p := s.me.pc
  let tok := s.tok
  .next (s.issue h
    { accs := [wrx d 16, rdx a 11]
      lat := some 1
      checks := val (24575 < v) 11 3
      target := some v
      go := fun s => s.writeX tok 1 d (BitVec.ofNat 64 (p + 1)) })

/-- LOOP (R171): a level is pushed, or with a count of zero the strand continues after the body. -/
def execLoop (h : Hdr) (a : Fin 32) (i : Fin 1024) (s : State) : Host.Outcome State Fault Refusal :=
  let p := s.me.pc
  let n := (s.rx a).toNat
  let stop := p + i.val
  let outer := match s.me.loops with
    | [] => 24575
    | l :: _ => l.stop
  .next (s.issue h
    { accs := [rdx a 11]
      bits := wordFaults (.loop h a i) ++ (if 24575 < stop then [⟨0, false, none, 3⟩] else [])
      checks := forbid ((n ≠ 0 ∧ 4 ≤ s.me.loops.length) ∨ outer < stop) 0
      target := if n = 0 then some (stop + 1) else none
      go := fun s => if n = 0 then s else s.setMe { s.me with loops := ⟨p + 1, stop, n⟩ :: s.me.loops } })

/-! ## Counters and barriers (R173 to R175) -/

/-- Put a counter add of the strand being run on its way (R127). -/
def State.postCadd (s : State) (tok : Nat) (h : Word) (v : Nat) (bar : Option Nat) : State :=
  { s with adds := s.adds ++ [⟨h, v, some (s.cur.core, s.cur.strand, tok), bar, s.now, .port s.cur.core⟩] }

/-- CADD (R173). -/
def execCadd (h : Hdr) (a b : Fin 32) (c : Fin 8) (s : State) : Host.Outcome State Fault Refusal :=
  let n := s.rx a
  let v := (s.rx b).toNat
  let tok := s.tok
  .next (s.issue h
    { accs := [rdx a 11, rdx b 6]
      bits := wordFaults (.cadd h a b c)
      checks := scopedHandle n c 11
      go := fun s => s.postCadd tok n v none })

/-- The trap of a wait on a poisoned counter of this module (R406). -/
def State.counterTrap (s : State) (h : Word) : Option TrapInfo :=
  if hModule h = s.hub.module ∧ s.counterBad h then some ⟨POISON, h, counterInfo h, some h, none⟩ else none

/-- CWAIT (R66, R174): a wait on another module's counter is registered there, or refused and sent again. -/
def execCwait (h : Hdr) (a b : Fin 32) (c : Fin 8) (s : State) : Host.Outcome State Fault Refusal :=
  let n := s.rx a
  let v := s.rx b
  let pc := s.me.pc
  let ls := s.me.loops
  .next (s.issue h
    { accs := [rdx a 11, rdx b 6]
      bits := wordFaults (.cwait h a b c)
      checks := scopedHandle n c 11 ++ val (handleOk n ∧ s.foreign s.cur.core n) 11 10
      fault := s.counterTrap n
      go := fun s =>
        if v = 0 then s
        else if hModule n = s.hub.module then s.hold (.counter n v pc ls)
        else (s.hold (.remote n v (s.hub.sends (hModule n) && s.free % 2 == 0) pc ls)).drew })

/-- BAR (R175): its own add, and then the wait for the next multiple of n. -/
def execBar (h : Hdr) (a b : Fin 32) (c : Fin 8) (s : State) : Host.Outcome State Fault Refusal :=
  let x := s.rx a
  let n := (s.rx b).toNat
  let tok := s.tok
  let pc := s.me.pc
  let ls := s.me.loops
  .next (s.issue h
    { accs := [rdx a 11, rdx b 6]
      bits := wordFaults (.bar h a b c)
      checks := scopedHandle x c 11 ++ val (handleOk x ∧ s.foreign s.cur.core x) 11 10 ++ val (n = 0 ∨ 2 ^ 32 < n) 6 3
      fault := s.counterTrap x
      go := fun s => (s.postCadd tok x 1 (some n)).hold (.barrier x (BitVec.ofNat 64 n) tok pc ls) })

/-! ## Marker fence (R48, R131, R176, R408) -/

/-- A filled deferred slot of a masked queue (R408): the Welt slot first. -/
def Core.slotOf (c : Core) (k : StrandId) (mask : Nat) : Option (Nat × Deferred) :=
  let get := fun (bit i : Nat) =>
    if bitOf mask bit then ((sget none c.deferred (2 * k.index + i)).map fun d => (2 * k.index + i, d)) else none
  (get 0 0).orElse fun _ => get 2 1

/-- The token behind which the markers of the fence being tried stand. -/
def State.fenceTok (s : State) (mask : Nat) : Nat :=
  match s.me.block with
  | .fence m t => if m = mask then t else s.tok
  | _ => s.tok

/-- MFENCE (R131, R176): its markers are placed when it is first tried; it issues, or traps with a deferred report, once every
older command of the masked queues has its effects. -/
def execMfence (h : Hdr) (d a m : Fin 32) (s : State) : Host.Outcome State Fault Refusal :=
  let k := s.cur.strand
  let tok := s.fenceTok m
  let done : Bool := m.val = 0 || s.fenceDone s.cur.core k m tok
  let slot := s.here.slotOf k m
  let r := s.issue h
    { accs := [namedx d 16, namedx a 11]
      bits := wordFaults (.mfence h d a m)
      waits := if done then [] else [.other]
      fault := slot.map fun p => ⟨p.2.synd, p.2.addr, p.2.info, none, some p.1⟩ }
  let placed : Bool := match s.me.block with
    | .none => true
    | .fence .. => true
    | _ => false
  .next (match r.status with
    | .waiting .. => if !done ∧ placed ∧ !s.here.notYet k then r.hold (.fence m tok) else r
    | _ => r)

/-! ## Special registers (R68 to R72, R177) -/

/-- A read of %dmdq pops the strand's demand queue (R71). -/
def State.readDmdq (s : State) (h : Hdr) (d a : Nat) : State :=
  let k := s.cur.strand
  let q := sget [] s.here.demands k.index
  let tok := s.tok
  s.issue h
    { accs := [wrx d 16, namedx a 11]
      waits := if q.isEmpty then [.other] else []
      go := fun s =>
        (s.setHere { s.here with demands := sput s.here.demands k.index q.tail }).promiseX tok d (q.headD 0) }

/-- SPRD (R68, R177). -/
def execSprd (h : Hdr) (d a : Fin 32) (n : Fin 2048) (s : State) : Host.Outcome State Fault Refusal :=
  if n.val = 0x31 then .next (s.readDmdq h d a)
  else .next (s.issue h
    { s.scalar [wrx d 16, namedx a 11] 2 d (s.spr s.cur.core s.cur.strand n) with bits := wordFaults (.sprd h d a n) })

/-- SPRD of %dmdq (R71). -/
def execSprdDmdq (h : Hdr) (d a : Fin 32) (s : State) : Host.Outcome State Fault Refusal := .next (s.readDmdq h d a)

/-- A write of a special register (R68 to R72, R177): it takes effect in the next cycle, and for %spsplit at its completion. -/
def State.writeSpr (s : State) (h : Hdr) (a : Fin 32) (n : Fin 2048) : State :=
  let k := s.cur.strand
  let v := s.rx a
  let tok := s.tok
  s.issue h
    { accs := [rdx a 11]
      bits := wordFaults (.spwr h a n)
      checks := s.here.sprOffences k n v
      go := fun s =>
        let s1 := s.setHere { s.here with sprs := s.here.sprs ++ [⟨k, n, v⟩] }
        if n.val = 0x04 then ((s1.setHere (s1.here.promise k tok [] true)).flushL1 s1.cur.core).hold (.result tok) else s1 }

/-- SPWR (R68, R177). -/
def execSpwr (h : Hdr) (a : Fin 32) (n : Fin 2048) (s : State) : Host.Outcome State Fault Refusal := .next (s.writeSpr h a n)
/-- SPWR of %joinmask (R33). -/
def execSpwrJoinmask (h : Hdr) (a : Fin 32) (s : State) : Host.Outcome State Fault Refusal := .next (s.writeSpr h a 0x02)
/-- SPWR of %spsplit (R72). -/
def execSpwrSpsplit (h : Hdr) (a : Fin 32) (s : State) : Host.Outcome State Fault Refusal := .next (s.writeSpr h a 0x04)
/-- SPWR of %mprog (R223). -/
def execSpwrMprog (h : Hdr) (a : Fin 32) (s : State) : Host.Outcome State Fault Refusal := .next (s.writeSpr h a 0x20)
/-- SPWR of %dmsub (R71). -/
def execSpwrDmsub (h : Hdr) (a : Fin 32) (s : State) : Host.Outcome State Fault Refusal := .next (s.writeSpr h a 0x30)
/-- SPWR of %tret (R386). -/
def execSpwrTret (h : Hdr) (a : Fin 32) (s : State) : Host.Outcome State Fault Refusal := .next (s.writeSpr h a 0x46)

/-! ## Stopping and software traps (R178, R179, R386) -/

/-- A strand stops at its `halt` (R178): in a handler INH clears, and in strand M's handler of a stopped multiply the
multiply is abandoned (R223, R386). -/
def Core.haltStrand (c : Core) (k : StrandId) : Core :=
  let t := c.strand k
  let c1 := if k == .m && c.inOpnd && !c.opndHeld && bitOf c.mprog.toNat 8 then c.dropStopped else c
  c1.setStrand k { t.stopped with trap := { t.trap with cause := t.trap.cause &&& BitVec.ofNat 64 (2 ^ 64 - 1 - 256) } }

/-- HALT (R178). -/
def execHalt (h : Hdr) (s : State) : Host.Outcome State Fault Refusal :=
  .next (s.issue h { go := fun s => s.setHere (s.here.haltStrand s.cur.strand) })

/-- SWI (R179): it issues, and the strand then takes the trap with PAST set. -/
def execSwi (h : Hdr) (i : Fin 2048) (s : State) : Host.Outcome State Fault Refusal :=
  let w := s.here.fetch s.cur.strand
  .next (s.issue h
    { go := fun s => s.trapWith s.cur.core s.cur.strand SWI 0 (BitVec.ofNat 64 i.val) none s.me.pc true w })

end Sys2Proof.Machine
end

