-- ==== Sys2Proof/Machine/Traps.lean ====
section
/-! DEFINITION. Results that land, traps without a word of their own, rendezvous deadlock, freezes, demand delivery
(R35, R71, R145, R199, R359, R389, R392, R418). -/

namespace Sys2Proof.Machine

/-- RSVOP_TRAP (R389): the word at the strand's program counter has a reserved OP. -/
def execRsvopTrap (w : W32) (s : State) : Host.Outcome State Fault Refusal :=
  if s.here.fetch s.cur.strand = w ∧ s.me.pc < 24576 ∧ decode (.strand s.cur.strand) w.toNat = .reserved then
    .next (s.earlyTrap RSVOP)
  else .next s

/-- IRANGE_TRAP (R392): the program counter has reached 24,576 by falling through. -/
def execIrangeTrap (s : State) : Host.Outcome State Fault Refusal :=
  if 24576 ≤ s.me.pc then .next (s.earlyTrap IRANGE) else .next s

/-- The first held engine trap that its strand can take now (R418, R419): one whose access is at fault traps there first
(R379), and a core that a CANCEL is to stop takes none (R437). -/
def State.nextEngineTrap (s : State) (c : Nat) : Option EngineTrap :=
  let k := s.core c
  k.traps.find? fun t =>
    t.due ≤ k.cycle && (k.strand t.strand).running && !(k.strand t.strand).trap.inh && !s.doomed c t.strand && !s.cancelDue c

/-- Remove the first entry that equals a held trap. -/
def dropTrap (t : EngineTrap) : List EngineTrap → List EngineTrap
  | [] => []
  | x :: r => if x = t then r else x :: dropTrap t r

/-- ENGINE_TRAP (R418 to R420): the strand traps at its next word, whether or not that word is ready. -/
def execEngineTrap (c : CoreIx) (s : State) : Host.Outcome State Fault Refusal :=
  let core := s.core c
  match s.nextEngineTrap c with
  | none => .next s
  | some t =>
    if core.frozen.isSome then .next s
    else
      let pc := (core.strand t.strand).pc
      let w := core.fetch t.strand
      let s1 := s.setCore c { core with
        traps := dropTrap t core.traps
        trapLog := if core.olderMop t.strand core.seq then core.trapLog ++ [(core.seq, t)] else core.trapLog }
      .next (s1.trapWith c t.strand t.synd t.addr t.info (some t.addr) pc false w)

/-- FIXED_LATENCY_WRITE (R145, R146): the first write that is due lands. -/
def execFixedLatencyWrite (c : CoreIx) (s : State) : Host.Outcome State Fault Refusal :=
  let core := s.core c
  match core.fixed with
  | w :: r =>
    if w.land ≤ core.cycle then .next (s.setCore c (({ core with fixed := r }).landFixed w)) else .next s
  | [] => .next s

/-- The `i`-th pending variable-latency result of a strand. -/
def Core.varOf (c : Core) (k : StrandId) (i : Nat) : Option VarResult := (c.vars.filter fun v => v.strand == k)[i]?

/-- VARIABLE_LATENCY_RESULT (R199): a result that has arrived is written to its destination, after the fixed-latency writes of
the cycle whose words issued before its own (R58, R146); a new split follows the write-backs of the core's L1 (R72). -/
def execVariableLatencyResult (c : CoreIx) (k : StrandId) (i : Nat) (s : State) : Host.Outcome State Fault Refusal :=
  let core := s.core c
  match core.varOf k i with
  | none => .next s
  | some v =>
    if !v.known || (v.res.isEmpty && s.wbs.any fun w => w.src == c.val) || core.fixed.any fun w => w.strand == k && w.tok < v.tok && w.land ≤ core.cycle then .next s
    else
      let c1 := ({ core with vars := core.vars.filter fun x => !(x.strand == k && x.tok == v.tok) }).landSnaps k v.tok v.res
      let c2 := if v.res.isEmpty then c1.landSplit k else c1.landResults k v.tok v.res
      .next (s.setCore c c2)

/-- DEMAND_DELIVERY (R71): the network's oldest held event enters the strand's demand queue if an entry is free. -/
def execDemandDelivery (c : CoreIx) (k : StrandId) (s : State) : Host.Outcome State Fault Refusal :=
  let core := s.core c
  let q := sget [] core.demands k.index
  match sget [] core.demandNet k.index with
  | e :: r =>
    if q.length < 32 then
      .next (s.setCore c { core with demands := sput core.demands k.index (q ++ [e]),
                                     demandNet := sput core.demandNet k.index r })
    else .next s
  | [] => .next s

/-! ## Rendezvous (R32 to R35, R54) -/

/-- A strand is in the participating set (R32). -/
def Core.participant (c : Core) (k : StrandId) : Bool := (c.strand k).running && bitOf c.joinmask.toNat k.index

/-- The participating set. -/
def Core.participants (c : Core) : List StrandId := allStrands.filter c.participant

/-- What a strand was found waiting for in its join slot, in this very cycle. -/
def Core.joined (c : Core) (k : StrandId) : Option JoinRec :=
  match (c.strand k).join with
  | some j => if j.cycle = c.cycle then some j else none
  | none => none

/-- A participant's word waits for queue entries alone (R383). -/
def Core.popsOnly (c : Core) (k : StrandId) : Bool :=
  match c.joined k with
  | some j => !j.waits.isEmpty && j.waits.all fun w => match w with
      | .pop _ => true
      | _ => false
  | none => false

/-- A participant's word waits for free entries alone (R383). -/
def Core.pushesOnly (c : Core) (k : StrandId) : Bool :=
  match c.joined k with
  | some j => !j.waits.isEmpty && j.waits.all fun w => match w with
      | .push _ => true
      | _ => false
  | none => false

/-- The word of a participant waits only for entries that the words of other participants of the join would push: the queues
hold nothing, not even a place reserved by an earlier push (R35, R53). -/
def Core.popDead (c : Core) (k : StrandId) : Bool :=
  match c.joined k with
  | some j => c.popsOnly k && j.waits.all fun w => match w with
      | .pop u => c.participant u && (c.queue u k).entries.isEmpty && match c.joined u with
        | some i => i.pushes.contains k
        | none => false
      | _ => false
  | none => false

/-- The word of a participant waits only for free entries that other participants' pops of the join would give (R54). -/
def Core.pushDead (c : Core) (k : StrandId) : Bool :=
  match c.joined k with
  | some j => c.pushesOnly k && j.waits.all fun w => match w with
      | .push u => c.participant u && (c.queue k u).entries.length == 8 && match c.joined u with
        | some i => i.pops.contains k
        | none => false
      | _ => false
  | none => false

/-- Every participant is in its join slot, and one waits only for a queue place inside the join (R35, R54): for entries alone or for
free places alone; a word that waits for both is not found deadlocked (DESIGN CHOICE, log 85). A core whose work is to be
abandoned at the boundary is past it (R387). -/
def Core.deadlocked (c : Core) : Bool :=
  let ps := c.participants
  c.lost.isNone && ps.all (fun k => (c.joined k).isSome && !(c.strand k).trap.inh) && ps.any fun k => c.popDead k || c.pushDead k

/-- The set of strands of a list, as bits. -/
def strandBits (l : List StrandId) : Nat := (l.map fun k => 2 ^ k.index).sum

/-- RENDEZVOUS_DEADLOCK (R35, R54, R381): strand Q, or else the participant with the lowest index, takes RDVDL. -/
def execRendezvousDeadlock (c : CoreIx) (s : State) : Host.Outcome State Fault Refusal :=
  let core := s.core c
  let ps := core.participants
  if core.deadlocked then
    match ps with
    | k :: _ =>
      let info := strandBits ps + 16 * strandBits (ps.filter core.popsOnly) + 256 * strandBits (ps.filter core.pushesOnly)
      .next (s.trapWith c k RDVDL 0 (BitVec.ofNat 64 info) none (core.strand k).pc false (core.fetch k))
    | [] => .next s
  else .next s

/-- CORE_FREEZE_END (R359): the frozen core resumes with the word recomputed, or is fenced after three mismatches, which can be
mismatches of sequencing on strand Q alone. The freeze ends in a later cycle than the words that issued before it (R377). -/
def execCoreFreezeEnd (c : CoreIx) (third sequencer : Bool) (index : Nat) (s : State) : Host.Outcome State Fault Refusal :=
  let core := s.core c
  match core.frozen with
  | none => .next s
  | some (k, i, n) =>
    if i ≠ index ∨ third ≠ (3 ≤ n) ∨ (sequencer = true ∧ k ≠ .q) then .next s
    else if third then .next (s.fenceCore c (if sequencer then SEQF else RESID) (BitVec.ofNat 64 index))
    else .next ((s.setCore c { core with frozen := none }).corrected (dieOf c) 0 (c % 64))

end Sys2Proof.Machine
end

