-- ==== Sys2Proof/Machine/Sched.lean ====
section
/-! DEFINITION. Units of work on a core: launches, iterations, their ends, pre-emption, resumption and cancellation
(R36 to R42, R181, R315 to R327, R387, R408, R420). -/

namespace Sys2Proof.Machine

/-! ## Free cores (R40) -/

/-- A core's store of core-scope counters holds the counter with this key (R65). -/
def coreCounter (module c key : Nat) : Bool :=
  key / 2 ^ 12 == c + 2 ^ 11 * module && key % 2 ^ 12 < 256

/-- An add on its way belongs to a core's work: a strand of it posted it, or it goes to one of its own counters. -/
def addOf (module c : Nat) (a : Add) : Bool :=
  coreCounter module c a.handle.toNat || match a.src with
    | some (c', _, _) => c' == c
    | none => false

/-- The Welt, context command and Awl queues of a core are empty (R40, R318). -/
def State.enginesIdle (s : State) (c : Nat) : Bool :=
  let k := s.core c
  k.welt.isEmpty && k.awlq.all (fun p => p.2.isEmpty) &&
  (s.kdie (dieOf c)).awl.runs.all (fun r => r.src.all fun p => p.1 != c) && s.cmds.all fun m => m.core != c

/-- Every engine queue of a core is empty: Welt, array, fabric, context commands and Awl (R40). -/
def State.enginesEmpty (s : State) (c : Nat) : Bool :=
  let k := s.core c
  s.enginesIdle c && k.mops.isEmpty && k.arr.isEmpty && k.run.isNone && s.adds.all fun a => !addOf s.hub.module c a

/-- All four strands are stopped. -/
def Core.allStopped (c : Core) : Bool := allStrands.all fun k => !(c.strand k).running

/-- Nothing that the strands' words left on its way is still to land. -/
def Core.quiet (c : Core) : Bool := c.fixed.isEmpty && c.vars.isEmpty && c.sprs.isEmpty && c.ovl.isEmpty

/-- The strands of a core have stopped, and everything that they left to its engines has its effects (R40, R129). -/
def State.drained (s : State) (c : Nat) : Bool :=
  let k := s.core c
  k.allStopped && k.quiet && s.enginesEmpty c

/-- A core is free (R40). -/
def State.isFree (s : State) (c : Nat) : Bool :=
  let k := s.core c
  !k.loading && s.drained c &&
  match k.work with
  | .idle => true
  | .draining => true
  | _ => false

/-- What a core keeps from one unit of work to the next: instruction memory, its mailbox, what firmware bound to it, the
scratchpad's bytes with their marks, and %spsplit (R69, R404). -/
def Core.fresh (c : Core) : Core :=
  { cycle := c.cycle, seq := c.seq, imem := c.imem, loaded := c.loaded, header := c.header, mbox := c.mbox
    asid := c.asid, root := c.root, pad := c.pad, padPoison := c.padPoison, padDamaged := c.padDamaged, spsplit := c.spsplit }

/-- Core-scope counters are 0 at the start of a launch and of an iteration (R67). -/
def State.clearCounters (s : State) (c : Nat) : State :=
  { s with counters := s.counters.filter fun p => !coreCounter s.hub.module c p.1 }

/-- Strand Q runs from an entry word. -/
def Core.runQ (c : Core) (entry : Nat) (xs : SMap Word) : Core :=
  { c with q := { c.q with running := true, pc := entry, readyAt := c.cycle, x := xs } }

/-! ## Launch (R36 to R39) -/

/-- A core runs work of its walker: an iteration, or a save or restore. -/
def Work.ofWalker : Work → Bool
  | .iteration .. => true
  | .saving .. => true
  | .restoring .. => true
  | _ => false

/-- BOOT_MAILBOX_GO (R17, R37, R372): a write of the host. A GO refused because the core is not ready leaves REF as it was (DESIGN CHOICE, log 63). -/
def execBootMailboxGo (c : CoreIx) (s : State) : Host.Outcome State Fault Refusal :=
  let k := s.core c
  let b := k.mbox
  if s.hostReach = false then .next s else
  .next (s.setCore c
    (if !s.isReady (coreUnit c) then { k with mbox := { b with go := false, state := 4, synd := 0 } }
     else if k.loading ∨ b.state = 1 ∨ b.state = 2 then { k with mbox := { b with go := false, ref := true } }
     else if k.work.ofWalker then { k with mbox := { b with go := false, state := 6, ref := true, synd := 0 } }
     else { k with
       loading := true
       mbox := { b with go := false, state := 1, ref := false, synd := 0, latchedImage := b.image, latchedArg := b.arg } }))

/-- What an image load comes to: a syndrome, or the resident words and the entry. -/
structure ImageRead where
  synd : Nat
  entry : Nat := 0
  words : List Byte := []
  found : State → State := id

/-- The image header is one that the loader accepts (R38). -/
def headerOk (b : List Byte) : Bool :=
  let n := num b 8 4
  num b 0 4 = 0x4D494B41 && num b 4 2 = 1 && num b 6 2 = 0 && num b 24 40 = 0 && 1 ≤ n && n ≤ 24576 && num b 12 4 < n

/-- The loader's reading of an image (R38). -/
def State.readImage (s : State) (asid root : Nat) (image : Word) : ImageRead :=
  if field image 0 7 ≠ 0 then { synd := IMGBAD }
  else
    let h := s.loaderRead asid root image.toNat 64
    match h.1 with
    | none => { synd := LOADF, found := h.2 }
    | some b =>
      if !headerOk b then { synd := IMGBAD, found := h.2 }
      else
        let w := s.loaderRead asid root (image.toNat + 64) (4 * num b 8 4)
        match w.1 with
        | none => { synd := LOADF, found := fun t => w.2 (h.2 t) }
        | some ws => { synd := 0, entry := num b 12 4, words := ws, found := fun t => w.2 (h.2 t) }

/-- Write words of four bytes to instruction memory from an index on. -/
def putWords (m : SMap W32) (i : Nat) : List Byte → SMap W32
  | a :: b :: c :: d :: r => putWords (sput m i (BitVec.ofNat 32 (ofBytes [a, b, c, d]))) (i + 1) r
  | _ => m

/-- Words of instruction memory take unspecified values (R38, R181; log 2). -/
def State.scrambleWords (s : State) (c i n : Nat) : State :=
  let k := s.core c
  let m := (List.range n).foldl (fun m j => sput m (i + j) (BitVec.ofNat 32 (Config.freeNat (s.draws + j)))) k.imem
  { s.setCore c { k with imem := m } with draws := s.draws + n }

/-- The state that a launch starts in (R39). -/
def Core.launched (c : Core) (entry : Nat) (words : List Byte) : Core :=
  { c.fresh.runQ entry [(6, c.mbox.latchedArg)] with
    imem := putWords c.imem 0 words
    spsplit := 2
    loaded := true
    header := some c.mbox.latchedImage
    loading := false
    work := .launch
    mbox := { c.mbox with state := 2 } }

/-- IMAGE_LOAD_END (R38, R39): the launch starts, or ends in STATE 5. A load that was accepted while the engines of an earlier unit of
work still ran ends once they have drained (DESIGN CHOICE, log 87). -/
def execImageLoadEnd (c : CoreIx) (s : State) : Host.Outcome State Fault Refusal :=
  let k := s.core c
  if !k.loading || !s.drained c || k.work.ofWalker then .next s
  else
    let r := s.readImage k.asid k.root k.mbox.latchedImage
    let s1 := r.found (s.released c)
    if r.synd = 0 then .next ((s1.setCore c (k.launched r.entry r.words)).clearCounters c)
    else
      .next ((s1.setCore c { k with
        loading := false, loaded := false, work := .idle,
        mbox := { k.mbox with state := 5, synd := r.synd } }).scrambleWords c 0 24576)

/-- A held engine trap or a filled deferred slot of a core whose strands have all stopped: the syndrome of the abandonment
(R408, R420). -/
def Core.leftOver (c : Core) : Option Nat :=
  match c.traps with
  | t :: _ => some t.synd
  | [] => (List.range 8).findSome? fun i => (sget none c.deferred i).map fun d => d.synd

/-- A held engine trap of a core whose strands have all stopped leaves its record, if its code has one (R420). -/
def State.leftRecord (s : State) (c : Nat) : State :=
  match (s.core c).traps with
  | t :: _ => if 8 ≤ t.synd then s.coreRecord c t.synd 3 false true t.addr t.info else s
  | [] => s

/-- A read that waits for the presence of a line of the core's own tiles, or stands behind one (R112). -/
def Core.stuck (c : Core) (m : MemOp) : Bool :=
  !m.effect && !m.fabric && c.mops.any fun x => x.strand == m.strand && decide (x.tok ≤ m.tok) && !x.effect && x.space == 1 &&
    !(c.tile (x.addr.toNat / 4096)).present (x.addr.toNat / 128 % 32)

/-- No access of a core's strands can trap any more, so a stop of its strands stands (R123, R379), reads apart that wait for
presence: they stand in no engine queue, and hold no end of a unit of work (R39 to R41). -/
def Core.settledMops (c : Core) : Bool := c.mops.all fun m => m.safe || c.stuck m

/-- The reads that wait for presence end with their unit of work. -/
def Core.dropStuck (c : Core) : Core :=
  { c with
    mops := c.mops.filter fun m => !c.stuck m
    vars := c.vars.filter fun v => !c.mops.any fun m => c.stuck m && m.strand == v.strand && m.tok == v.tok }

/-- LAUNCH_END (R39, R387, R408, R420). -/
def execLaunchEnd (c : CoreIx) (s : State) : Host.Outcome State Fault Refusal :=
  let k := s.core c
  if k.work ≠ .launch ∨ !k.allStopped ∨ k.lost.isSome then .next s
  else
    match k.leftOver with
    | some synd => .next ((s.leftRecord c).abandon c synd)
    | none =>
      let s1 := s.setCore c k.dropStuck
      if s1.drained c then
        .next (s.setCore c { k.dropStuck with work := .idle, mbox := { k.mbox with state := 3 } })
      else .next s

/-! ## Iterations (R40, R41, R184, R316) -/

/-- Replace a record of a K-die. -/
def KDie.setRec (d : KDie) (r : NestRec) : KDie := { d with recs := d.recs.map fun x => if x.id = r.id then r else x }

/-- A core of the die is being saved with an iteration of a record. -/
def State.savingOf (s : State) (d id : Nat) : Bool :=
  (List.range 64).any fun i => match (s.core (64 * d + i)).work with
    | .saving r _ _ => r == id
    | _ => false

/-- The work that the walker's search finds for a core (R316): a record, and whether a saved iteration of it is resumed. -/
def State.search (s : State) (c : Nat) : Option (NestRec × Bool) :=
  let d := dieOf c
  let k := s.kdie d
  [3, 2, 1, 0].findSome? fun cls =>
    let rs := k.recs.filter fun r => r.cls == cls
    let turn := match slook k.last cls with
      | some l => rs.filter (fun (r : NestRec) => l < r.id) ++ rs.filter fun (r : NestRec) => r.id ≤ l
      | none => rs
    turn.findSome? fun r =>
      if !bitOf r.cores.toNat (c % 64) || coveredBy k.prefixes r.lin then none
      else if !r.saved.isEmpty then some (r, true)
      else if r.next < r.total && !s.savingOf d r.id then some (r, false)
      else none

/-- The walker is ready and may give a core work (R21, R40). -/
def State.mayWork (s : State) (c : Nat) : Bool :=
  s.isFree c && s.isReady (coreUnit c) && s.isReady (.nest (Fin.ofNat 8 (dieOf c)))

/-- The state that an iteration starts in (R41). -/
def Core.iteration (c : Core) (r : NestRec) (n stamp : Nat) : Core :=
  let xs := sputs [] 1 ([r.loopValue n 0, r.loopValue n 1, r.loopValue n 2, r.loopValue n 3, BitVec.ofNat 64 n, r.arg])
  { c.fresh.runQ r.entry xs with
    spsplit := c.spsplit
    ctx := ctxWord r.ctx r.flags r.lin.depth
    lineageLo := r.lin.lo
    lineageHi := r.lin.hi
    work := .iteration r.id n
    dispatched := stamp }

/-- The walker's search has work for a core that is free and ready, and holds an image (R40, R316). -/
def State.servable (s : State) (c : Nat) : Bool := s.mayWork c && (s.core c).loaded && (s.search c).isSome

/-- Of the cores of a die that the walker can serve, the lowest-numbered one is served first (R316; log 64). -/
def State.firstServed (s : State) (c : Nat) : Bool :=
  s.servable c && (List.range (c % 64)).all fun j => !s.servable (64 * dieOf c + j)

/-- NEST_ITERATION_DISPATCH (R41, R316). -/
def execNestIterationDispatch (c : CoreIx) (s : State) : Host.Outcome State Fault Refusal :=
  let k := s.core c
  let d := s.kdie (dieOf c)
  if !s.firstServed c then .next s
  else
    match s.search c with
    | some (r, false) =>
      let r1 := { r with next := r.next + 1, running := r.running ++ [(c.val, r.next)] }
      let d1 := { d.setRec r1 with last := sput d.last r.cls r.id, dispatches := d.dispatches + 1 }
      .next ((((s.setCore c (k.iteration r r.next d.dispatches)).clearCounters c).setKdie (dieOf c) d1).released c)
    | _ => .next s

/-- ITERATION_END (R41, R184, R408, R420): the iteration ends once its strands have stopped, and its core is free when its
queues have drained, which this event also tells the record. A held trap that comes after the end stops what still runs in them
(log 65). -/
def execIterationEnd (c : CoreIx) (s : State) : Host.Outcome State Fault Refusal :=
  let k := s.core c
  if !k.allStopped || !k.settledMops || k.lost.isSome then .next s
  else
    match k.work, k.leftOver with
    | .iteration .., some synd => .next ((s.leftRecord c).abandon c synd)
    | .iteration id n, none =>
      let d := (s.kdie (dieOf c)).loseIteration (some c.val) id n false false
      .next ((s.setCore c { k.dropStuck with work := .idle, preq := none, yielded := false }).setKdie (dieOf c) d)
    | .idle, some synd => .next (if s.drained c then s.released c else (s.leftRecord c).abandon c synd)
    | _, _ => .next (if s.drained c && !k.work.ofWalker then s.released c else s)

/-! ## Cancellation at a K-die (R325 to R327) -/

/-- A context command by its identity. -/
def State.cmdOf (s : State) (id : Nat) : Option CtxCmd := s.cmds.find? fun k => k.id == id

/-- The i-th context message is the next of its stream: a core's messages to one die arrive in order (R333). -/
def State.inOrder (s : State) (i : Nat) (m : CtxMsg) (core : Nat) : Bool :=
  (s.ctxMsgs.take i).all fun x => x.die != m.die || x.refused || (s.cmdOf x.cmd).all fun k => k.core != core

/-- CANCEL_ARRIVAL_KDIE (R325): the `i`-th context message, if it is a CANCEL for this K-die. -/
def execCancelArrivalKdie (d : Fin 8) (i : Nat) (s : State) : Host.Outcome State Fault Refusal :=
  match s.ctxMsgs[i]? with
  | none => .next s
  | some m =>
    match s.cmdOf m.cmd with
    | some k =>
      if m.die ≠ d.val ∨ k.op ≠ 0x2B ∨ !s.inOrder i m k.core then .next s
      else
        let p := lineageAt k.block 0x18 (num k.block 0x28 1)
        let t := s.kdie d
        .next ({ s with ctxMsgs := s.ctxMsgs.eraseIdx i }.setKdie d { t with
          recv := (t.recv + 1) % 2 ^ 32
          prefixes := (p :: t.prefixes).take 1024
          cancels := t.cancels ++ [CancelJob.mk k.id p] })
    | none => .next s

/-- An iteration is stopped by a CANCEL (R326, R327). -/
def State.cancelWork (s : State) (c id n : Nat) (area : Option Nat) : State :=
  let s1 := s.stopCore c false
  let s2 := s1.setCore c { s1.core c with work := .draining }
  let d := (s2.kdie (dieOf c)).loseIteration (some c) id n false true
  (s2.setKdie (dieOf c) { d with areas := d.areas.filter fun a => some a ≠ area }).settleRecs (dieOf c)

/-- CANCEL_CORE_STOP (R327, R388): a core whose lineage matches a CANCEL that has arrived stops at a bundle boundary, before
any word or trap of the cycle. -/
def execCancelCoreStop (c : CoreIx) (s : State) : Host.Outcome State Fault Refusal :=
  if !(s.core c).acted && s.cancelDue c then
    match (s.core c).work with
    | .iteration id n => .next (s.cancelWork c id n none)
    | .restoring id n a => .next (s.cancelWork c id n (some a))
    | _ => .next s
  else .next s

/-- Saved iterations that a CANCEL matches leave a record (R326). -/
def NestRec.dropSaved (r : NestRec) (p : Lineage) : NestRec :=
  let gone := r.saved.filter fun x => p.covers x.core.lineage
  { r with
    saved := r.saved.filter fun x => !p.covers x.core.lineage
    ended := r.ended + gone.length
    stopped := r.stopped || !gone.isEmpty }

/-- The areas of a record's saved iterations that a CANCEL frees (R326). -/
def NestRec.areasGone (r : NestRec) (p : Lineage) : List Nat :=
  (r.saved.filter fun x => p.covers r.lin || p.covers x.core.lineage).map fun x => x.area

/-- The purge of a CANCEL at a K-die (R326); a function that is not ready is left out (R270). -/
def State.purge (s : State) (d : Nat) (p : Lineage) : State :=
  let t := s.kdie d
  let nest := s.isReady (.nest (Fin.ofNat 8 d))
  let heap := if s.isReady (.heap (Fin.ofNat 8 d)) then t.heap.filter fun e => !p.covers e.lin else t.heap
  if !nest then s.setKdie d { t with heap := heap }
  else
    let freed := t.recs.flatMap fun r => r.areasGone p
    let kept := (t.recs.filter fun r => !p.covers r.lin).map fun r => r.dropSaved p
    ((s.setKdie d { t with heap := heap, recs := kept, areas := t.areas.filter fun a => !freed.contains a }).postAdds (.nest (Fin.ofNat 8 d))
      ((t.recs.filter fun r => p.covers r.lin).map fun r => (r.endH, 2 ^ 48))).settleRecs d

/-- CANCEL_EFFECTS_DONE (R326): the `i`-th CANCEL of the die has had its effects, and DONE advances. -/
def execCancelEffectsDone (d : Fin 8) (i : Nat) (s : State) : Host.Outcome State Fault Refusal :=
  let t := s.kdie d
  match t.cancels[i]? with
  | none => .next s
  | some j =>
    if (List.range 64).any fun c => s.matched (64 * d.val + c) j.lin then .next s
    else
      let s1 := s.purge d j.lin
      let t1 := s1.kdie d
      .next { s1.setKdie d { t1 with done := (t1.done + 1) % 2 ^ 32, cancels := t1.cancels.eraseIdx i } with
        cmds := s1.cmds.map fun k => if k.id = j.cmd then { k with kpending := k.kpending.filter (· ≠ d.val) } else k }

end Sys2Proof.Machine
end

