-- ==== Sys2Proof/Machine/Seq.lean ====
section
/-! DEFINITION. Strand Q's words: starting strands, nest records, the task heap, yielding, graph parameters, the sampler and
overlays (R180 to R193). -/

namespace Sys2Proof.Machine

/-! ## Starting strands (R180) -/

/-- A stopped strand starts at an entry word. -/
def Core.startStrand (c : Core) (k : StrandId) (entry : Nat) : Core :=
  let t := c.strand k
  if t.running then c
  else c.setStrand k { t with running := true, pc := entry, readyAt := c.cycle + 1, loops := [], aside := [], join := none,
                              block := .none, asideBlock := .none }

/-- START (R30, R180). -/
def execStart (h : Hdr) (t : Fin 8) (e : Fin 32768) (s : State) : Host.Outcome State Fault Refusal :=
  s.issueOn .q h fun _ =>
    let ks := [(0, StrandId.v), (1, .m), (2, .l)].filterMap fun p => if bitOf t.val p.1 then some p.2 else none
    { bits := wordFaults (.start h t e)
      go := fun s => s.setHere (ks.foldl (fun c k => c.startStrand k e.val) s.here) }

/-! ## Submitting work (R182, R186) -/

/-- A word that reads a block and gets a status for it. -/
def State.submit (s : State) (i : Instr) (d a b align len : Nat) (offs : List Byte → Nat → List Offence)
    (act : State → Nat → Word → Nat → List Byte → Nat × State) : Plan :=
  let tok := s.tok
  let va := s.rx a
  let die := (s.rx b).toNat
  let r := s.blockHere va len PR
  { accs := [wrx d 16, rdx a 11, rdx b 6]
    bits := wordFaults i
    waits := s.storesWait
    checks := val (7 < die) 6 3 ++ val (va.toNat % align ≠ 0) 11 5 ++
      if va.toNat % align = 0 && r.ok then offs r.bytes 11 else []
    fault := r.fault
    found := r.found
    go := fun s =>
      let q := act s die va (dieOf s.cur.core) r.bytes
      q.2.promiseX tok d (BitVec.ofNat 64 q.1) }

/-- NEST (R182 to R184). -/
def execNest (h : Hdr) (d a b : Fin 32) (s : State) : Host.Outcome State Fault Refusal :=
  s.issueOn .q h fun s => s.submit (.nest h d a b) d a b 128 128 nestOffences State.submitNest

/-- TASKPUSH (R185, R186). -/
def execTaskpush (h : Hdr) (d a b : Fin 32) (s : State) : Host.Outcome State Fault Refusal :=
  s.issueOn .q h fun s => s.submit (.taskpush h d a b) d a b 32 32 taskOffences State.submitTask

/-! ## Taking a task (R46, R187, R323, R433) -/

/-- Entries that read as uncorrectable leave the heap with a record each; whether the key survives is open (R433, log 2). A fenced
heap writes none (R371). -/
def State.sweepHeap (s : State) (d : Nat) : State :=
  let k := s.kdie d
  (k.heap.filter HeapEntry.bad).foldl
    (fun s e => if s.silent d 3 0 then s
      else (s.record d d 3 0 HEAPF 2 true false 0 (if s.free % 2 = 0 then BitVec.ofNat 64 e.key else 0)).drew)
    (s.setKdie d { k with heap := k.heap.filter fun e => !e.bad })

/-- The entries that a pop may return: none that is damaged, and none that a CANCEL matches (R325). -/
def KDie.eligible (k : KDie) : List HeapEntry := k.heap.filter fun e => !e.bad && !coveredBy k.prefixes e.lin

/-- An entry is aged (R323). -/
def KDie.aged (k : KDie) (e : HeapEntry) : Bool := e.stamp + 1024 ≤ k.pops

/-- Insert an entry behind those with keys no greater. -/
def insertKey (e : HeapEntry) : List HeapEntry → List HeapEntry
  | [] => [e]
  | x :: r => if x.key ≤ e.key then x :: insertKey e r else e :: x :: r

/-- The 16 entries with the smallest keys (R46). Which entries of equal key at the edge are among them is open: the later accepted
ones are here (DESIGN CHOICE, log 77). -/
def window (l : List HeapEntry) : List HeapEntry := (l.foldr insertKey []).take 16

/-- The window of a pop (R46, R323): the 16 first in an order that puts every aged entry, by acceptance, before the others. -/
def KDie.window (k : KDie) : List HeapEntry :=
  ((k.eligible.filter k.aged) ++ Machine.window (k.eligible.filter fun e => !k.aged e)).take 16

/-- The entry that a pop returns: an aged one of the window where there is one, and which of those that remain is open (R323; log 2). -/
def KDie.choose (k : KDie) (choice : Nat) : Option HeapEntry :=
  let l := if k.window.any k.aged then k.window.filter k.aged else k.window
  l[choice % l.length]?

/-- Remove the first entry that equals a given one. -/
def dropEntry (e : HeapEntry) : List HeapEntry → List HeapEntry
  | [] => []
  | x :: r => if x = e then r else x :: dropEntry e r

/-- The core takes a task over (R42, R187). -/
def State.takeTask (s : State) (e : HeapEntry) : State :=
  let d := dieOf s.cur.core
  let k := s.kdie d
  let s1 := (s.setKdie d { k with heap := dropEntry e k.heap, pops := k.pops + 1, heapLogged := false }).drew
  s1.setHere { s1.here with ctx := ctxWord e.ctx e.flags e.lin.depth, lineageLo := e.lin.lo, lineageHi := e.lin.hi }

/-- The words that `taskpop` returns: the pointer, and the flags, context and key. -/
def HeapEntry.words (e : HeapEntry) : Word × Word :=
  (BitVec.ofNat 64 (field e.ptr 0 57), BitVec.ofNat 64 (e.key + 2 ^ 32 * e.ctx + 2 ^ 56 * e.flags))

/-- Strand V, M or L is running. -/
def Core.othersRun (c : Core) : Bool := c.v.running || c.m.running || c.l.running

/-- A pop that waits has found the damaged entries, which leave the heap (R433). -/
def State.popFinds (s : State) : State :=
  let die := dieOf s.cur.core
  match s.status with
  | .waiting .. =>
    if !s.here.notYet .q && !s.here.othersRun && ((s.kdie die).choose 0).isNone && (s.kdie die).heap.any (·.bad) then s.sweepHeap die
    else s
  | _ => s

/-- TASKPOP (R46, R187, R323 to R325, R433). -/
def execTaskpop (h : Hdr) (d a : Fin 32) (s : State) : Host.Outcome State Fault Refusal :=
  nextMap State.popFinds <| s.issueOn .q h fun s =>
    let tok := s.tok
    let av := s.rx a
    let die := dieOf s.cur.core
    let e := (s.kdie die).choose s.free
    { accs := [wrx d 16, wrx (d.val + 1) 16, rdx a 11]
      bits := wordFaults (.taskpop h d a)
      waits := (if s.here.othersRun then [.other] else []) ++
        if av = 0 && e.isNone && s.isReady (.heap (Fin.ofNat 8 die)) then [.other] else []
      checks := val (1 < av) 11 3
      notReady := if s.isReady (.heap (Fin.ofNat 8 die)) then none else some (.heap (Fin.ofNat 8 die))
      go := fun s =>
        let w := match e with
          | some x => x.words
          | none => (0, 0)
        let s1 := match e with
          | some x => (s.takeTask x).sweepHeap die
          | none => s.sweepHeap die
        s1.setHere (s1.here.promise .q tok [.x d w.1, .x (d.val + 1) w.2] true) }

/-- CANST (R188). -/
def execCanst (h : Hdr) (d : Fin 32) (s : State) : Host.Outcome State Fault Refusal :=
  s.issueOn .q h fun s =>
    let k := s.kdie (dieOf s.cur.core)
    { s.scalar [wrx d 16] 2 d (BitVec.ofNat 64 (k.recv + 2 ^ 32 * k.done)) with bits := wordFaults (.canst h d) }

/-- YIELD (R189, R317): a pre-emption request is served after the word, at the next bundle boundary. -/
def execYield (h : Hdr) (s : State) : Host.Outcome State Fault Refusal :=
  s.issueOn .q h fun _ =>
    { bits := wordFaults (.yield h)
      go := fun s => if s.here.preq.isSome then s.setHere { s.here with yielded := true } else s }

/-! ## Graph parameters and the sampler (R192, R193) -/

/-- The readiness identity of hub die 16's graph engine. -/
abbrev graphUnit : UnitId := .graph 0

/-- A graph engine that is not ready, as a word names it. -/
def State.graphDown (s : State) : Option UnitId := if s.isReady graphUnit then none else some graphUnit

/-- GPWR (R192). -/
def execGpwr (h : Hdr) (a b : Fin 32) (s : State) : Host.Outcome State Fault Refusal :=
  s.issueOn .q h fun s =>
    let i := s.rx a
    let v := s.rx b
    { accs := [rdx a 11, rdx b 6]
      bits := wordFaults (.gpwr h a b)
      checks := val (255 < i) 11 3
      notReady := s.graphDown
      go := fun s => { s with hub := { s.hub with graph := { s.hub.graph with gp := sput s.hub.graph.gp i.toNat v } } } }

/-- GPRD (R192). -/
def execGprd (h : Hdr) (d a : Fin 32) (s : State) : Host.Outcome State Fault Refusal :=
  s.issueOn .q h fun s =>
    let tok := s.tok
    let i := s.rx a
    { accs := [wrx d 16, rdx a 11]
      bits := wordFaults (.gprd h d a)
      checks := val (255 < i) 11 3
      notReady := s.graphDown
      go := fun s => s.promiseX tok d (sget 0 s.hub.graph.gp i.toNat) }

/-- AWLRUN (R193): the run enters the strand's launch queue of 8. -/
def execAwlrun (h : Hdr) (d a b : Fin 32) (s : State) : Host.Outcome State Fault Refusal :=
  s.issueOn .q h fun s =>
    let tok := s.tok
    let v := s.rx a
    let arg := s.rx b
    let k := s.counterReg d
    let die := Fin.ofNat 8 (dieOf s.cur.core)
    let q := sget [] s.here.awlq StrandId.q.index
    { accs := [rdx d 16, rdx a 11, rdx b 6]
      bits := wordFaults (.awlrun h d a b)
      waits := if 8 ≤ q.length then [.other] else []
      checks := s.optHandle d 16 ++ val (field v 8 8 ≠ 0 ∨ field v 48 16 ≠ 0) 11 2 ++ val (arg.toNat % 8 ≠ 0) 6 5
      notReady := if s.isReady (.awl die) then none else some (.awl die)
      go := fun s =>
        let r : AwlReq := ⟨tok, field v 0 8, field v 16 16, field v 32 16, arg, k, s.here.asid, s.here.root, none⟩
        s.setHere { s.here with awlq := sput s.here.awlq StrandId.q.index (q ++ [r]) } }

/-! ## Overlays (R181) -/

/-- A LOADF trap of an overlay load. -/
def loadTrap : TrapInfo := ⟨LOADF, 0, 0, some 0, none⟩

/-- What `ovl` finds of its segment: offences, or the segment's VA, destination and count. -/
structure OvlRead where
  offs : List Offence := []
  fault : Bool := false
  found : State → State := id
  src : Nat := 0
  dest : Nat := 0
  count : Nat := 0
  bytes : List Byte := []

/-- The overlay table entry i of the image with a header at VA `hd` (R38, R181): header and table are read anew at each `ovl`
(log 71). -/
def State.readOvl (s : State) (hd i : Word) : OvlRead :=
  let c := s.here
  let h := s.loaderRead c.asid c.root hd.toNat 64
  match h.1 with
  | none => { fault := true, found := h.2 }
  | some b =>
    let ofs := num b 16 4
    if ofs = 0 ∨ num b 20 4 ≤ i.toNat then { offs := val True 11 3, found := h.2 }
    else
      let t := s.loaderRead c.asid c.root (hd.toNat + ofs + 16 * i.toNat) 16
      let both := fun x => t.2 (h.2 x)
      match t.1 with
      | none => { fault := true, found := both }
      | some e =>
        let dst := num e 8 4
        let w := num e 12 4
        let offs := blk (num e 0 8 % 4 ≠ 0) 11 0 ++ blk (24576 ≤ dst) 11 8 ++ blk (w = 0 ∨ 24576 < dst + w) 11 12
        let src := hd.toNat + num e 0 8
        if offs.isEmpty then
          let g := s.loaderRead c.asid c.root src (4 * w)
          { fault := g.1.isNone, found := fun x => g.2 (both x), src := src, dest := dst, count := w
            bytes := g.1.getD [] }
        else { offs := offs, found := both }

/-- OVL (R181): faults of the table and the segment found as it would issue trap at the word, and a segment at fault leaves
its words unspecified. The translations found then are the ones that the loader reads with. -/
def execOvl (h : Hdr) (d a : Fin 32) (s : State) : Host.Outcome State Fault Refusal :=
  s.issueOn .q h fun s =>
    let tok := s.tok
    let core := s.cur.core
    let snap := s.snapshot
    let r := match s.here.header with
      | some hd => s.readOvl hd (s.rx a)
      | none => { offs := forbid True 0 }
    { accs := [wrx d 16, rdx a 11]
      bits := wordFaults (.ovl h d a)
      checks := r.offs
      fault := if r.fault then some loadTrap else none
      found := fun s => if r.fault then (r.found s).scrambleWords core r.dest r.count else r.found s
      go := fun s =>
        let k := s.here
        let o : OvlLoad := ⟨tok, d, r.src, r.dest, r.count, s.segs k.asid k.root r.src (4 * r.count), r.bytes, k.cycle, snap⟩
        s.setHere { (k.promise .q tok [.x d 0] false) with ovl := k.ovl ++ [o] } }

/-- The overlay load as the access whose words a fault discards (R181, R379). -/
def OvlLoad.mop (o : OvlLoad) : MemOp :=
  { strand := .q, tok := o.tok, kind := .load o.d false, space := 0, addr := BitVec.ofNat 64 o.src, len := 4 * o.count,
    ord := 0, scope := 0, sent := 0, snap := o.snap }

/-- OVERLAY_LOAD_END (R181): the last word of the oldest load is written, and its xd becomes 0. The segment is read again here: damage
that has come to it since the `ovl` traps precisely, with strand Q's words from the `ovl` on discarded, or, where they have had an
effect that no discard undoes, was not yet there when the loader read (DESIGN CHOICE, log 71). -/
def execOverlayLoadEnd (c : CoreIx) (s : State) : Host.Outcome State Fault Refusal :=
  let k := s.core c
  match k.ovl with
  | [] => .next s
  | o :: rest =>
    let ls := (segLines o.segs).map fun l => (o.src, l)
    if s.ovlFault c o then
      let word := sget 0 k.imem o.snap.strand.pc
      let s1 := s.markAll ls (memInfo 0 0 false PX (4 * o.count))
      let s2 := (s1.setCore c { s1.core c with ovl := rest.filter fun x => x.tok < o.tok }).discard c o.mop
      .next ((s2.scrambleWords c o.dest o.count).trapWith c .q LOADF 0 0 (some 0) o.snap.strand.pc false word)
    else
      let s1 := if s.badLines ls then s else s.mergeLines (segLines o.segs)
      let ws := if s.badLines ls then o.bytes else s1.readAt o.segs
      .next (s1.setCore c { (s1.core c).fulfil .q o.tok [.x o.d 0] with
        imem := putWords k.imem o.dest ws, ovl := rest }.forget)

end Sys2Proof.Machine
end

