-- ==== Sys2Proof/Machine/Matrix.lean ====
section
/-! DEFINITION. Strand M's words: weight loads, multiplies, drains, masks, tables and treadle control (R214 to R246). -/

namespace Sys2Proof.Machine

/-! ## The array queue (R214) -/

/-- The array queue has no free entry (R214). -/
def State.queueWaits (s : State) : List Wait := if 8 ≤ s.here.arr.length then [.other] else []

/-- A mask pair is still to be written (R225). -/
def Core.maskBusy (c : Core) (k : Nat) : Bool :=
  c.vars.any fun v => v.strand == .m && v.res.any fun r => match r with
    | .mask j _ => j == k
    | _ => false

/-- A word that names a mask pair waits until the pair has been written (R225). -/
def State.maskWait (s : State) (k : Nat) : List Wait := if s.here.maskBusy k then [.other] else []

/-- A core's array queue takes an entry (R214). -/
def Core.enqueue (c : Core) (e : ArrEntry) : Core := { c with arr := c.arr ++ [{ e with entered := c.cycle }] }

/-! ## Operands (R110, R154, R217 to R219, R396, R403) -/

/-- An operand of a multiply or a weight load as its word would issue: what the word's checks find of it, the tiles it
consumes, or the translations of its pages. -/
structure Operand where
  accs : List Acc := []
  bits : List Offence := []
  waits : List Wait := []
  checks : List Offence := []
  fault : Option TrapInfo := none
  found : State → State := id
  tiles : List Nat := []
  src : OperandSrc
  segs : List Seg := []
  geom : Nat := 64
  /-- free draws used up -/
  draws : Nat := 0

/-- The damaged lines of a group of tiles are found as a consumer reads it (R361, R403): ACC 8. -/
def State.findGroup (s : State) (c first lines len : Nat) : State :=
  (List.range lines).foldl (fun s i => s.findLine c (first + i)
    (memInfo 8 1 false 0 len (plainFault UCE (BitVec.ofNat 64 (128 * (first + i))) s.hub.module))) s

/-- The trap of a consumer whose group holds a damaged or poisoned line, and the marks that its read leaves (R361, R403). -/
def State.groupFault (s : State) (t lines len : Nat) : Option TrapInfo × (State → State) :=
  let k := s.here
  match k.firstBad (32 * t) lines with
  | none => (none, id)
  | some line =>
    let f := plainFault (if k.padDamaged.contains line then UCE else POISON) (BitVec.ofNat 64 (128 * line)) s.hub.module
    let c := s.cur.core
    (some ⟨f.synd, f.addr, memInfo 8 1 false 0 len f, recOf f, none⟩, fun s => s.findGroup c (32 * t) lines len)

/-- An operand in tiles (R217, R221): a consuming use of the group, which waits until each tile is FULL (R31). -/
def State.tileOperand (s : State) (t fmt rows : Nat) : Operand :=
  let n := groupTiles fmt rows
  let f := s.groupFault t (32 * n) (4096 * n)
  { bits := s.here.tileOffence t n 4
    waits := if s.here.allFull (tilesFrom t n) then [] else [.other]
    fault := f.1
    found := f.2
    tiles := tilesFrom t n
    src := .tile t }

/-- The page FMT that a matrix format needs (R101, R108). -/
def pageFmt : Nat → Nat
  | 0 => 2
  | 1 => 1
  | 2 => 3
  | _ => 5

/-- A page of a range in space 0, or in space 4 at this module: the PA of an address in it and its leaf, or the fault. -/
def State.pageAt (s : State) (pod : Bool) (need a : Nat) : Except MemFault (Nat × Word) :=
  if pod then
    match s.podCheck (BitVec.ofNat 64 a) need with
    | .error f => .error f
    | .ok va =>
      match s.checkPage s.hub.exportAsid s.hub.exportRoot need va with
      | .ok (l, e) => .ok (leafPa s.hub.expanders l e va, e)
      | .error f => .error f
  else
    match s.checkPage s.here.asid s.here.root need a with
    | .ok (l, e) => .ok (leafPa s.hub.expanders l e a, e)
    | .error f => .error f

/-- The walks of a range's pages read their tables: reduce state in these is merged, and damage found (R117, R403). -/
def State.settlePages (s : State) (pod : Bool) (a len : Nat) : State :=
  if pod then
    match s.podVa (BitVec.ofNat 64 a) with
    | some va => s.settleWalks s.hub.exportAsid s.hub.exportRoot va len
    | none => s
  else s.settleWalks s.here.asid s.here.root a len

/-- The K-block of the page of an address, 64 where no page maps it. -/
def State.geomOf (s : State) (pod : Bool) (a : Nat) : Nat :=
  leafGeom (if pod then
    match s.podVa (BitVec.ofNat 64 a) with
    | some va => s.leafOf s.hub.exportAsid s.hub.exportRoot va
    | none => 0
  else s.leafOf s.here.asid s.here.root a)

/-- The first address in each 64 KiB of a range. -/
def granules (a len : Nat) : List Nat :=
  a :: (List.range ((a + max len 1 - 1) / 65536 - a / 65536)).map fun i => (a / 65536 + 1 + i) * 65536

/-- The lowest fault of a range's pages. -/
def State.rangeFault (s : State) (pod : Bool) (need a len : Nat) : Option MemFault :=
  (granules a len).findSome? fun p => match s.pageAt pod need p with
    | .error f => some f
    | .ok _ => none

/-- The leaves of a range's pages, once they have been checked. -/
def State.rangeLeaves (s : State) (pod : Bool) (need a len : Nat) : List Word :=
  (granules a len).filterMap fun p => match s.pageAt pod need p with
    | .ok (_, e) => some e
    | .error _ => none

/-- The parts of a checked range, cut at 4 KiB so that each has one home (R100); pod accesses are made at it (R98). -/
def State.rangeSegs (s : State) (pod : Bool) (need a len : Nat) : List Seg :=
  ((List.range ((a + len - 1) / 4096 - a / 4096 + 1)).map fun i =>
    let lo := max a ((a / 4096 + i) * 4096)
    let hi := min (a + len) ((a / 4096 + i + 1) * 4096)
    match s.pageAt pod need lo with
    | .ok (pa, e) => ⟨pa, hi - lo, pod || leafKv e⟩
    | .error _ => ⟨0, hi - lo, false⟩)

/-- Bytes of an operand in a page layout with K-block `g` (R109, R218). -/
def layoutBytes (fmt rows g : Nat) : Nat := elemBytes fmt rows + rows * rowScales fmt (fmtK fmt) g

/-- POD of a tile handle (R218). -/
def handlePod (h : Word) : Bool := bitOf h.toNat 0
/-- Start of the operand of a tile handle. -/
def handleBase (h : Word) : Nat := h.toNat / 128 * 128
/-- Module that serves the operand of a tile handle. -/
def State.handleModule (s : State) (h : Word) : Nat := if handlePod h then field h 52 12 else s.hub.module

/-- A fault of an operand's pages as a trap (R219, R396): ACC 4. -/
def operandTrap (pod : Bool) (len : Nat) (f : MemFault) : TrapInfo :=
  ⟨f.synd, f.addr, memInfo 4 (if pod then 4 else 0) false PR len f, some f.addr, none⟩

/-- An operand by handle in memory of this module (R218, R219). -/
def State.localOperand (s : State) (h : Word) (o : Operand) (fmt rows : Nat) : Operand :=
  let pod := handlePod h
  let a := handleBase h
  let o := { o with found := fun t => t.settlePages pod a (layoutBytes fmt rows (s.geomOf pod a)) }
  match s.pageAt pod PR a with
  | .error f => { o with fault := some (operandTrap pod (layoutBytes fmt rows (s.geomOf pod a)) f) }
  | .ok (_, e) =>
    let g := leafGeom e
    let len := layoutBytes fmt rows g
    match s.rangeFault pod PR a len with
    | some f => { o with fault := some (operandTrap pod len f) }
    | none =>
      let ls := s.rangeLeaves pod PR a len
      let bad := ls.any fun e => leafFmt e != pageFmt fmt || (fmt != 2 && leafGeom e != g)
      { o with
        checks := val (bad = true ∨ (fmt ≠ 2 ∧ fmtK fmt % g ≠ 0)) 8 8
        segs := s.rangeSegs pod PR a len
        geom := g }

/-- The permissions of a leaf that lacks some of those that an access needs; which others it has is open. -/
def lacking (need n : Nat) : Nat :=
  let have4 := n % 16
  if have4 &&& need = need then have4 - need else have4

/-- What the check of a range at another module finds, which its tables decide and which is open here (R98, R396, R402, log 2):
no fault, or the first address in the lowest page that fails, with what failed; `n` is the free choice. -/
def farFault (n need a len m : Nat) : Option MemFault :=
  let l := granules a len
  let at' := BitVec.ofNat 64 (l.getD (n / 64 % l.length) a)
  match n % 4 with
  | 0 => some ⟨XLATE, at', n / 4 % 4, n / 16 % 2 == 1, 0, m⟩
  | 1 => some ⟨PERM, at', 1 + n / 4 % 3, false, lacking need (n / 2 ^ 20), m⟩
  | _ => none

/-- An operand by handle at another module: its tables decide what is found and the K-block of the operand's pages, which are open
here (R98, R219, R402; log 2). -/
def State.remoteOperand (s : State) (h : Word) (o : Operand) (fmt rows : Nat) : Operand :=
  let a := handleBase h
  let m := s.handleModule h
  let n := Config.freeNat (s.draws + 1)
  let g := 64 * 2 ^ (n / 2 % 3)
  let len := layoutBytes fmt rows g
  if !s.hub.sends m then { o with fault := some (operandTrap true len ⟨XLATE, BitVec.ofNat 64 a, 0, false, 0, m⟩) }
  else
    match farFault s.free PR a len m with
    | some f => { o with fault := some (operandTrap true len f), draws := 2 }
    | none =>
      if n % 2 = 0 ∨ (fmt ≠ 2 ∧ fmtK fmt % g ≠ 0) then { o with checks := val True 8 8 } else { o with geom := g, draws := 2 }

/-- An operand by tile handle in register `r` (R218, R219). -/
def State.handleOperand (s : State) (r fmt rows : Nat) : Operand :=
  let h := s.rx r
  let o : Operand := { accs := [rdx r 8], src := .handle h }
  if field h 1 6 ≠ 0 then { o with checks := val True 8 2 }
  else if s.handleModule h = s.hub.module then s.localOperand h o fmt rows
  else s.remoteOperand h o fmt rows

/-- Free draws are used up. -/
def State.spend (s : State) (n : Nat) : State := { s with draws := s.draws + n }

/-- The operand's part of a plan, and the entry that its word puts in the queue (R214, R217). -/
def State.operandPlan (s : State) (i : Instr) (o : Operand) (waits : List Wait) (checks : List Offence) (op : ArrOp)
    (also : Core → Core) : Plan :=
  let tok := s.tok
  { accs := o.accs
    bits := wordFaults i ++ o.bits
    waits := s.queueWaits ++ waits ++ o.waits
    checks := o.checks ++ checks
    fault := o.fault
    found := fun s => if o.fault.isSome then (o.found s).spend o.draws else o.found s
    go := fun s =>
      let c := also (s.here.consume o.tiles)
      (s.setHere (c.enqueue { tok := tok, op := op, segs := o.segs, geom := o.geom })).spend o.draws }

/-! ## Weight loads (R217) -/

/-- A weight load: the plane's issue tag changes as the word issues. -/
def State.wldPlan (s : State) (i : Instr) (fmt p : Nat) (o : Operand) : Plan :=
  s.operandPlan i o [] [] (.wld fmt p o.src) fun c => c.setPlane p { c.plane p with issueTag := some fmt }

/-- WLD_L8_TILE (R217). -/
def execWldL8Tile (h : Hdr) (p : Fin 2) (t : Fin 512) (s : State) : Host.Outcome State Fault Refusal :=
  s.issueOn .m h fun s => s.wldPlan (.wldL8Tile h p t) 0 p (s.tileOperand t 0 192)
/-- WLD_L8_HANDLE (R217, R218). -/
def execWldL8Handle (h : Hdr) (p : Fin 2) (a : Fin 32) (s : State) : Host.Outcome State Fault Refusal :=
  s.issueOn .m h fun s => s.wldPlan (.wldL8Handle h p a) 0 p (s.handleOperand a 0 192)
/-- WLD_L6_TILE (R217). -/
def execWldL6Tile (h : Hdr) (p : Fin 2) (t : Fin 512) (s : State) : Host.Outcome State Fault Refusal :=
  s.issueOn .m h fun s => s.wldPlan (.wldL6Tile h p t) 1 p (s.tileOperand t 1 192)
/-- WLD_L6_HANDLE (R217, R218). -/
def execWldL6Handle (h : Hdr) (p : Fin 2) (a : Fin 32) (s : State) : Host.Outcome State Fault Refusal :=
  s.issueOn .m h fun s => s.wldPlan (.wldL6Handle h p a) 1 p (s.handleOperand a 1 192)
/-- WLD_BF16_TILE (R217). -/
def execWldBf16Tile (h : Hdr) (p : Fin 2) (t : Fin 512) (s : State) : Host.Outcome State Fault Refusal :=
  s.issueOn .m h fun s => s.wldPlan (.wldBf16Tile h p t) 2 p (s.tileOperand t 2 192)
/-- WLD_BF16_HANDLE (R217, R218). -/
def execWldBf16Handle (h : Hdr) (p : Fin 2) (a : Fin 32) (s : State) : Host.Outcome State Fault Refusal :=
  s.issueOn .m h fun s => s.wldPlan (.wldBf16Handle h p a) 2 p (s.handleOperand a 2 192)
/-- WLD_I8_TILE (R217). -/
def execWldI8Tile (h : Hdr) (p : Fin 2) (t : Fin 512) (s : State) : Host.Outcome State Fault Refusal :=
  s.issueOn .m h fun s => s.wldPlan (.wldI8Tile h p t) 3 p (s.tileOperand t 3 192)
/-- WLD_I8_HANDLE (R217, R218). -/
def execWldI8Handle (h : Hdr) (p : Fin 2) (a : Fin 32) (s : State) : Host.Outcome State Fault Refusal :=
  s.issueOn .m h fun s => s.wldPlan (.wldI8Handle h p a) 3 p (s.handleOperand a 3 192)

/-! ## Multiplies (R221, R222) -/

/-- A multiply: the mask pair is taken at issue (R61), and the plane's issue tag must be the format (R222). -/
def State.mmaPlan (s : State) (i : Instr) (fmt c p k z : Nat) (o : Operand) : Plan :=
  s.operandPlan i o (s.maskWait k) (forbid ((s.here.plane p).issueTag ≠ some fmt) 18)
    (.mma fmt c p (sget {} s.here.masks k) (z == 1) o.src) id

/-- MMA_L8_TILE (R221). -/
def execMmaL8Tile (h : Hdr) (c : Fin 4) (p : Fin 2) (k : Fin 8) (z : Fin 2) (t : Fin 512) (s : State) :
    Host.Outcome State Fault Refusal :=
  s.issueOn .m h fun s => s.mmaPlan (.mmaL8Tile h c p k z t) 0 c p k z (s.tileOperand t 0 128)
/-- MMA_L8_HANDLE (R218, R221). -/
def execMmaL8Handle (h : Hdr) (c : Fin 4) (p : Fin 2) (k : Fin 8) (z : Fin 2) (a : Fin 32) (s : State) :
    Host.Outcome State Fault Refusal :=
  s.issueOn .m h fun s => s.mmaPlan (.mmaL8Handle h c p k z a) 0 c p k z (s.handleOperand a 0 128)
/-- MMA_L6_TILE (R221). -/
def execMmaL6Tile (h : Hdr) (c : Fin 4) (p : Fin 2) (k : Fin 8) (z : Fin 2) (t : Fin 512) (s : State) :
    Host.Outcome State Fault Refusal :=
  s.issueOn .m h fun s => s.mmaPlan (.mmaL6Tile h c p k z t) 1 c p k z (s.tileOperand t 1 128)
/-- MMA_L6_HANDLE (R218, R221). -/
def execMmaL6Handle (h : Hdr) (c : Fin 4) (p : Fin 2) (k : Fin 8) (z : Fin 2) (a : Fin 32) (s : State) :
    Host.Outcome State Fault Refusal :=
  s.issueOn .m h fun s => s.mmaPlan (.mmaL6Handle h c p k z a) 1 c p k z (s.handleOperand a 1 128)
/-- MMA_BF16_TILE (R221). -/
def execMmaBf16Tile (h : Hdr) (c : Fin 4) (p : Fin 2) (k : Fin 8) (z : Fin 2) (t : Fin 512) (s : State) :
    Host.Outcome State Fault Refusal :=
  s.issueOn .m h fun s => s.mmaPlan (.mmaBf16Tile h c p k z t) 2 c p k z (s.tileOperand t 2 128)
/-- MMA_BF16_HANDLE (R218, R221). -/
def execMmaBf16Handle (h : Hdr) (c : Fin 4) (p : Fin 2) (k : Fin 8) (z : Fin 2) (a : Fin 32) (s : State) :
    Host.Outcome State Fault Refusal :=
  s.issueOn .m h fun s => s.mmaPlan (.mmaBf16Handle h c p k z a) 2 c p k z (s.handleOperand a 2 128)
/-- MMA_I8_TILE (R221). -/
def execMmaI8Tile (h : Hdr) (c : Fin 4) (p : Fin 2) (k : Fin 8) (z : Fin 2) (t : Fin 512) (s : State) :
    Host.Outcome State Fault Refusal :=
  s.issueOn .m h fun s => s.mmaPlan (.mmaI8Tile h c p k z t) 3 c p k z (s.tileOperand t 3 128)
/-- MMA_I8_HANDLE (R218, R221). -/
def execMmaI8Handle (h : Hdr) (c : Fin 4) (p : Fin 2) (k : Fin 8) (z : Fin 2) (a : Fin 32) (s : State) :
    Host.Outcome State Fault Refusal :=
  s.issueOn .m h fun s => s.mmaPlan (.mmaI8Handle h c p k z a) 3 c p k z (s.handleOperand a 3 128)

/-! ## Drains (R226 to R230) -/

/-- OFMT of a drain descriptor. -/
def dOfmt (d : Word) : Nat := field d 0 3
/-- SRC of a drain descriptor: the accumulator is read as I32. -/
def dSrc (d : Word) : Bool := bitOf d.toNat 3
/-- ACT of a drain descriptor. -/
def dAct (d : Word) : Nat := field d 4 2
/-- SCB of a drain descriptor. -/
def dScb (d : Word) : Bool := bitOf d.toNat 6
/-- MPB of a drain descriptor. -/
def dMpb (d : Word) : Bool := bitOf d.toNat 7
/-- SBT of a drain descriptor. -/
def dSbt (d : Word) : Nat := field d 8 9
/-- CLR of a drain descriptor. -/
def dClr (d : Word) : Bool := bitOf d.toNat 17

/-- Row bytes of a drain's output (R227). -/
def drainRowBytes (ofmt : Nat) : Nat := [768, 384, 192, 144, 768, 192].getD ofmt 0
/-- Scale bytes of an output row (R227). -/
def drainScales (ofmt : Nat) : Nat := if ofmt = 2 ∨ ofmt = 3 ∨ ofmt = 5 then 3 else 0
/-- Bytes of the element area of an output. -/
def drainElems (ofmt : Nat) : Nat := 128 * drainRowBytes ofmt
/-- Lines of an output (R227). -/
def drainLines (ofmt : Nat) : Nat := (drainElems ofmt + 128 * drainScales ofmt) / 128
/-- Tiles of an output (R227); a reserved OFMT has no group. -/
def drainTiles (ofmt : Nat) : Nat := (drainLines ofmt + 31) / 32

/-- The offences of a drain descriptor whose group starts at tile `t` (R230): BIT the field of the word, `pos` the place of a
descriptor bit. -/
def drainOffences (count t : Nat) (d : Word) (bit : Nat) (pos : Nat → Nat) : List Offence :=
  valAt (5 < dOfmt d) bit (pos 0) 1 ++
  valAt (dAct d = 3) bit (pos 4) 1 ++
  valAt (field d 18 46 ≠ 0) bit (pos 18) 2 ++
  (if dOfmt d = 4 then
    if dAct d ≠ 0 then valAt True bit (pos 4) 11
    else if dScb d then valAt True bit (pos 6) 11
    else valAt (dMpb d = true) bit (pos 7) 11
  else []) ++
  if dScb d then
    valAt (count ≤ dSbt d) bit (pos 8) 6 ++ valAt (t ≤ dSbt d ∧ dSbt d < t + drainTiles (dOfmt d)) bit (pos 8) 12
  else valAt (dSbt d ≠ 0) bit (pos 8) 2

/-- A drain would write a source line of an APPEND (R4, R277). -/
def State.drainOffence (s : State) (t : Nat) (d : Word) (bit : Nat) : List Offence :=
  s.sourceOffence s.cur.core (4096 * t) (128 * drainLines (dOfmt d)) bit

/-- MDRAIN (R226 to R230). -/
def execMdrain (h : Hdr) (c : Fin 4) (k : Fin 8) (t : Fin 512) (a : Fin 32) (s : State) :
    Host.Outcome State Fault Refusal :=
  s.issueOn .m h fun s =>
    let tok := s.tok
    let d := s.rx a
    let count := s.here.tileCount
    let f := if dScb d then s.groupFault (dSbt d) 12 4096 else (none, id)
    let mask := sget {} s.here.masks k
    { accs := [rdx a 1]
      bits := wordFaults (.mdrain h c k t a) ++ s.here.tileOffence t 1 6
      waits := s.queueWaits ++ s.maskWait k
      checks := drainOffences count t d 1 id ++ valAt (t.val < count ∧ count < t.val + drainTiles (dOfmt d)) 1 0 6 ++
        s.drainOffence t d 6
      fault := f.1
      found := f.2
      go := fun s => s.setHere (s.here.enqueue { tok := tok, op := .mdrain c t mask d }) }

/-! ## Clearing, waiting and masks (R224, R225) -/

/-- MZERO (R224). -/
def execMzero (h : Hdr) (c : Fin 4) (s : State) : Host.Outcome State Fault Refusal :=
  s.issueOn .m h fun s =>
    let tok := s.tok
    { bits := wordFaults (.mzero h c)
      waits := s.queueWaits
      go := fun s => s.setHere (s.here.enqueue { tok := tok, op := .mzero c }) }

/-- MWAIT (R62, R224): it waits for the entries that entered the queue in an earlier cycle. -/
def execMwait (h : Hdr) (c : Fin 4) (s : State) : Host.Outcome State Fault Refusal :=
  s.issueOn .m h fun s =>
    let cyc := s.here.cycle
    { bits := wordFaults (.mwait h c), go := fun s => s.hold (.accum c cyc) }

/-- MKLD (R225): a plain load of one line in space 1. -/
def execMkld (h : Hdr) (k : Fin 8) (t : Fin 512) (l : Fin 32) (s : State) : Host.Outcome State Fault Refusal :=
  s.issueOn .m h fun s =>
    let tok := s.tok
    let m := s.lineMop (.mkld k) t l
    { bits := wordFaults (.mkld h k t l) ++ s.here.tileOffence t 1 9
      waits := s.maskWait k
      go := fun s => (s.setHere (s.here.promise .m tok [.mask k {}] false)).postMop m }

/-- A mask pair is written, interlocked (R225). -/
def State.writeMask (s : State) (tok k : Nat) (m : MaskPair) : State :=
  s.setHere (s.here.promise .m tok [.mask k m] true)

/-- Bits lo to lo + n − 1, as a number. -/
def runOfBits (lo n : Nat) : Nat := (2 ^ n - 1) * 2 ^ lo

/-- MKRNG (R225). -/
def execMkrng (h : Hdr) (k : Fin 8) (a b : Fin 32) (s : State) : Host.Outcome State Fault Refusal :=
  s.issueOn .m h fun s =>
    let tok := s.tok
    let x := s.rx a
    let y := s.rx b
    let m : MaskPair :=
      ⟨BitVec.ofNat 128 (runOfBits (field x 0 8) (field x 8 8)), BitVec.ofNat 192 (runOfBits (field y 0 8) (field y 8 8))⟩
    { accs := [rdx a 11, rdx b 6]
      bits := wordFaults (.mkrng h k a b)
      waits := s.maskWait k
      checks := val (field x 16 48 ≠ 0) 11 2 ++ val (128 < field x 0 8 + field x 8 8) 11 3 ++
        val (field y 16 48 ≠ 0) 6 2 ++ val (192 < field y 0 8 + field y 8 8) 6 3
      go := fun s => s.writeMask tok k m }

/-- MKALL (R225). -/
def execMkall (h : Hdr) (k : Fin 8) (s : State) : Host.Outcome State Fault Refusal :=
  s.issueOn .m h fun s =>
    let tok := s.tok
    { bits := wordFaults (.mkall h k)
      waits := s.maskWait k
      go := fun s => s.writeMask tok k {} }

/-! ## Tables (R231, R232) -/

/-- A field of `n` bytes that should be zero and is not: POS is its offset (R384). -/
def zeroOffences (b : List Byte) (lo n bit : Nat) : List Offence := blk (nonZero b lo n) bit lo

/-- Fields that should be zero, by their offsets and lengths. -/
def zeroFields (b : List Byte) (lo bit : Nat) (fields : List (Nat × Nat)) : List Offence :=
  fields.flatMap fun p => zeroOffences b (lo + p.1) p.2 bit

/-- MPBLD (R231). -/
def execMpbld (h : Hdr) (a : Fin 32) (s : State) : Host.Outcome State Fault Refusal :=
  s.issueOn .m h fun s =>
    let tok := s.tok
    let va := s.rx a
    let head := s.blockHere va 16 PR
    let rows := num head.bytes 0 2
    let bad := if head.ok then blk (rows = 0 ∨ 128 < rows) 11 0 ++ zeroOffences head.bytes 2 14 11 else []
    let r := if head.ok && bad.isEmpty then s.blockHere va (16 + 24 * rows) PR else head
    { accs := [rdx a 11]
      bits := wordFaults (.mpbld h a)
      waits := s.queueWaits ++ s.storesWait
      checks := val (va.toNat % 128 ≠ 0) 11 5 ++ if va.toNat % 128 = 0 then bad else []
      fault := r.fault
      found := r.found
      go := fun s => s.setHere (s.here.enqueue { tok := tok, op := .mpbld r.bytes }) }

/-- LUTLD (R232). -/
def execLutld (h : Hdr) (a : Fin 32) (s : State) : Host.Outcome State Fault Refusal :=
  s.issueOn .m h fun s =>
    let tok := s.tok
    let va := s.rx a
    let r := s.blockHere va 2048 PR
    { accs := [rdx a 11]
      bits := wordFaults (.lutld h a)
      waits := s.queueWaits ++ s.storesWait
      checks := val (va.toNat % 128 ≠ 0) 11 5
      fault := r.fault
      found := r.found
      go := fun s => s.setHere (s.here.enqueue { tok := tok, op := .lutld r.bytes }) }

/-! ## Treadle control (R234 to R237, R244) -/

/-- NENT of a TCB. -/
def tcbNent (b : List Byte) : Nat := num b 5 1
/-- NEND of a TCB. -/
def tcbNend (b : List Byte) : Nat := num b 7 1
/-- Offset of entry e of a TCB. -/
def entryAt (e : Nat) : Nat := 0x80 + 16 * e
/-- Offset of end drain k of a TCB. -/
def endAt (k : Nat) : Nat := 0x40 + 16 * k
/-- DRAIN of an entry. -/
def entryDrains (b : List Byte) (e : Nat) : Bool := bitOf (num b (entryAt e + 2) 1) 5
/-- The drain descriptor at an offset of a TCB's entry or end drain. -/
def descAt (b : List Byte) (o : Nat) : Word := BitVec.ofNat 64 (num b (o + 8) 8)

/-- The A groups of a TCB: first tile and number of tiles. -/
def tcbGroups (b : List Byte) : List (Nat × Nat) :=
  (List.range (min (tcbNent b) 16)).map fun e => (num b (entryAt e) 2, groupTiles (num b (entryAt e + 4) 1) 128)

/-- The drains of a TCB: offset of DTILE, DTILE and descriptor. -/
def tcbDrains (b : List Byte) : List (Nat × Nat × Word) :=
  ((List.range (min (tcbNend b) 4)).map fun k => (endAt k, num b (endAt k) 2, descAt b (endAt k))) ++
  ((List.range (min (tcbNent b) 16)).filter (entryDrains b)).map fun e =>
    (entryAt e + 6, num b (entryAt e + 6) 2, descAt b (entryAt e))

/-- The offset of the descriptor that belongs to a DTILE: it ends its 16 bytes. -/
def descPos (o : Nat) : Nat := o / 16 * 16 + 8

/-- The offences of one drain of a TCB (R230, R237). -/
def tcbDrainOffences (count : Nat) (b : List Byte) (bit : Nat) (x : Nat × Nat × Word) : List Offence :=
  let t := x.2.1
  let d := x.2.2
  let n := drainTiles (dOfmt d)
  let hit := (tcbGroups b).any (fun g => meets t n g.1 g.2) ||
    (tcbDrains b).any fun y => dScb y.2.2 && meets t n (dSbt y.2.2) 1
  drainOffences count t d bit (fun p => descPos x.1 + p / 8) ++
  valAt (count < t + n) bit x.1 6 ++ valAt (hit = true) bit x.1 12

/-- The offences of an entry's own fields (R236, R237). -/
def tcbEntryOffences (count : Nat) (b : List Byte) (bit e : Nat) : List Offence :=
  let o := entryAt e
  if tcbNent b ≤ e then zeroFields b o bit [(0, 2), (2, 1), (3, 1), (4, 1), (5, 1), (6, 2), (8, 8)]
  else
    let fmt := num b (o + 4) 1
    blk (bitOf (num b (o + 2) 1) 6 ∨ bitOf (num b (o + 2) 1) 7) bit (o + 2) ++
    blk (7 < num b (o + 3) 1) bit (o + 3) ++
    valAt (3 < fmt) bit (o + 4) 1 ++
    zeroOffences b (o + 5) 1 bit ++
    (if entryDrains b e then [] else zeroFields b o bit [(6, 2), (8, 8)]) ++
    valAt (fmt ≤ 3 ∧ count < num b o 2 + groupTiles fmt 128) bit o 6

/-- The offences of an end drain's own fields (R235). -/
def tcbEndOffences (b : List Byte) (bit k : Nat) : List Offence :=
  let o := endAt k
  if tcbNend b ≤ k then zeroFields b o bit [(0, 2), (2, 1), (3, 1), (4, 4), (8, 8)]
  else
    blk (3 < num b (o + 2) 1) bit (o + 2) ++ blk (7 < num b (o + 3) 1) bit (o + 3) ++ zeroOffences b (o + 4) 4 bit

/-- The offences of a TCB's contents (R235 to R237), against the field that holds its address. -/
def tcbOffences (count : Nat) (b : List Byte) (bit : Nat) : List Offence :=
  let e := BitVec.ofNat 64 (num b 8 8)
  blk (num b 0 4 = 0) bit 0 ++
  blk (num b 4 1 = 0 ∨ 16 < num b 4 1) bit 4 ++
  blk (tcbNent b = 0 ∨ 16 < tcbNent b) bit 5 ++
  blk (1 < num b 6 1) bit 6 ++
  blk (4 < tcbNend b) bit 7 ++
  (if e = 0 then [] else handleOffences e bit (some 8)) ++
  zeroOffences b 0x10 48 bit ++
  (List.range 4).flatMap (tcbEndOffences b bit) ++
  (List.range 16).flatMap (tcbEntryOffences count b bit) ++
  (tcbDrains b).flatMap (tcbDrainOffences count b bit)

/-- PLANE of an entry. -/
def entryPlane (b : List Byte) (e : Nat) : Nat := num b (entryAt e + 2) 1 / 4 % 2

/-- An entry names a plane that no weight load of its format was issued for last (R222, R237). -/
def Core.tcbPlanes (c : Core) (b : List Byte) : Bool :=
  (List.range (min (tcbNent b) 16)).any fun e => (c.plane (entryPlane b e)).issueTag != some (num b (entryAt e + 4) 1)

/-- The mask pairs that a TCB names. -/
def tcbMasks (b : List Byte) : List Nat :=
  ((List.range (min (tcbNend b) 4)).map fun k => num b (endAt k + 3) 1) ++
  (List.range (min (tcbNent b) 16)).map fun e => num b (entryAt e + 3) 1

/-- TRGO (R234 to R237). -/
def execTrgo (h : Hdr) (a : Fin 32) (s : State) : Host.Outcome State Fault Refusal :=
  s.issueOn .m h fun s =>
    let tok := s.tok
    let va := s.rx a
    let c := s.here
    let r := s.blockHere va 384 PR
    let fine := va.toNat % 128 = 0 && r.ok
    let masks := (List.range 8).map fun k => sget {} c.masks k
    { accs := [rdx a 11]
      bits := wordFaults (.trgo h a)
      waits := s.queueWaits ++ s.storesWait ++ if (tcbMasks r.bytes).any c.maskBusy then [.other] else []
      checks := val (va.toNat % 128 ≠ 0) 11 5 ++ if fine then
          tcbOffences c.tileCount r.bytes 11 ++ forbid (c.tcbPlanes r.bytes = true) 0 ++
            (tcbDrains r.bytes).flatMap fun x => s.drainOffence x.2.1 x.2.2 0
        else []
      fault := r.fault
      found := r.found
      go := fun s => s.setHere (s.here.enqueue
        { tok := tok, op := .trgo r.bytes masks (field c.tlooka 0 6) (field c.tlookd 0 6) }) }

/-- TRWAIT (R244). -/
def execTrwait (h : Hdr) (s : State) : Host.Outcome State Fault Refusal :=
  s.issueOn .m h fun _ => { bits := wordFaults (.trwait h), go := fun s => s.hold .treadle }

end Sys2Proof.Machine
end

