-- ==== Sys2Proof/Machine/Array.lean ====
section
/-! DEFINITION. The array at work in instruction mode: weight loads, multiplies row by row, drains line by line, tables, and
the stop at an operand line that does not come (R214 to R233, R360, R421 to R423). -/

namespace Sys2Proof.Machine

/-! ## Which entries may move (R215, R223) -/

/-- The array of a core moves: the core is neither frozen, saving nor restoring (R318, R359). -/
def Core.arrayRuns (c : Core) : Bool := c.frozen.isNone && !c.work.stands

/-- No entry of the queue is stopped by OPND, whose handler decides how the array goes on (R223). -/
def Core.unstopped (c : Core) : Bool := c.arr.all fun e => !e.stopped

/-- An entry of the queue may start, its own conditions apart (R215): the entry, and the earlier entries. -/
def Core.startable (c : Core) (i : Nat) : Option (ArrEntry × List ArrEntry) :=
  match c.arr[i]? with
  | some e =>
    if c.arrayRuns && c.unstopped && c.run.isNone && !e.started && e.entered < c.cycle && (c.arr.take i).all (·.started) then
      some (e, c.arr.take i)
    else none
  | none => none

/-- A started entry that may go on: the entry and the earlier entries. -/
def Core.moving (c : Core) (i : Nat) : Option (ArrEntry × List ArrEntry) :=
  match c.arr[i]? with
  | some e => if c.arrayRuns && e.started && !e.stopped then some (e, c.arr.take i) else none
  | none => none

/-- Replace an entry of the queue. -/
def Core.setEntry (c : Core) (e : ArrEntry) : Core := { c with arr := c.arr.map fun x => if x.tok = e.tok then e else x }

/-- An entry retires. -/
def Core.retireEntry (c : Core) (e : ArrEntry) : Core := { c with arr := c.arr.filter fun x => x.tok ≠ e.tok }

/-- The entry is a multiply. -/
def ArrOp.isMma : ArrOp → Bool
  | .mma .. => true
  | _ => false
/-- The entry is a drain. -/
def ArrOp.isDrain : ArrOp → Bool
  | .mdrain .. => true
  | _ => false
/-- The entry installs a table. -/
def ArrOp.isTable : ArrOp → Bool
  | .mpbld _ => true
  | .lutld _ => true
  | _ => false

/-- The entry clears or drains the accumulator, which a later multiply waits for (R215). -/
def ArrOp.bars (o : ArrOp) (n : Nat) : Bool := !o.isMma && o.targets n

/-! ## Operands: rows, codes and scales (R74, R109, R110, R218) -/

/-- The PA of a byte of an operand by its offset, from the translations held (R399). -/
def segPa : List Seg → Nat → Nat
  | [], _ => 0
  | g :: r, o => if o < g.len then g.pa + o else segPa r (o - g.len)

/-- Byte offsets of row r of an operand in a page layout with K-block g: its elements and its scales. -/
def rowOffsets (fmt rows g r : Nat) : List Nat :=
  ((List.range (rowBytes fmt (fmtK fmt))).map fun i => r * rowBytes fmt (fmtK fmt) + i) ++
  (List.range (rowScales fmt (fmtK fmt) g)).map fun i => elemBytes fmt rows + r * rowScales fmt (fmtK fmt) g + i

/-- The lines of a list of offsets: offset of the line and its PA. -/
def offsetLines (segs : List Seg) (l : List Nat) : List (Nat × Nat) :=
  (l.map fun o => o / 128 * 128).eraseDups.map fun o => (o, segPa segs o)

/-- The element codes of a row's bytes. -/
def codesOf (fmt : Nat) (bs : List Byte) : List Nat :=
  match fmt with
  | 1 => unpack6 bs
  | 2 => (List.range (bs.length / 2)).map fun i => num bs (2 * i) 2
  | _ => bs.map (·.toNat)

/-- A page's scales of one row, one for each canonical block (R109). -/
def spreadScales (g : Nat) (bs : List Byte) : List Byte := bs.flatMap fun b => List.replicate (g / 64) b

/-- One row of an operand: codes and block scales. -/
structure MatRow where
  codes : List Nat
  scales : List Int

/-- A row of a canonical operand held in bytes by offset. -/
def canonRow (read : Nat → Nat → List Byte) (fmt rows r : Nat) : MatRow :=
  let b := rowBytes fmt (fmtK fmt)
  let n := rowScales fmt (fmtK fmt) 64
  ⟨codesOf fmt (read (r * b) b), (read (elemBytes fmt rows + r * n) n).map fun x => sbyte x.toNat⟩

/-- Column j of the W operand of a plane. -/
def Plane.column (p : Plane) (fmt j : Nat) : MatRow := canonRow (fun o n => sgets 0 p.bytes o n) fmt 192 j

/-- Free bytes, one draw each: what another module's memory holds is open here (log 2). -/
def State.freeBytes (s : State) (n : Nat) : List Byte := (List.range n).map fun i => Config.freeByte (s.draws + i)

/-- Byte o of an operand by handle, from the lines that the fetcher has read (R220). -/
def ArrEntry.byteAt (e : ArrEntry) (o : Nat) : Byte := (sget [] e.lines (o / 128)).getD (o % 128) 0

/-- Row r of an entry's operand (R109, R110, R220). -/
def Core.operandRow (k : Core) (e : ArrEntry) (src : OperandSrc) (fmt rows r : Nat) : MatRow :=
  match src with
  | .tile t => canonRow (fun o n => k.padRead (4096 * t + o) n) fmt rows r
  | .handle _ =>
    let b := rowBytes fmt (fmtK fmt)
    let bs := (rowOffsets fmt rows e.geom r).map e.byteAt
    ⟨codesOf fmt (bs.take b), (spreadScales e.geom (bs.drop b)).map fun x => sbyte x.toNat⟩

/-- The element area and the canonical strip of an operand by handle. -/
def ArrEntry.canonBytes (e : ArrEntry) (fmt rows : Nat) : List Byte :=
  let n := elemBytes fmt rows
  (List.range n).map e.byteAt ++
    spreadScales e.geom ((List.range (rows * rowScales fmt (fmtK fmt) e.geom)).map fun i => e.byteAt (n + i))

/-- A tile line that the array reads although an error has struck it since the word issued: the error is found and recorded
(R403), and the bytes it then reads are free values (log 70). -/
def State.readTileLine (s : State) (c line : Nat) : State :=
  if (s.core c).padBad line then
    let s1 := s.findLine c line (memInfo 8 1 false 0 4096 (plainFault UCE (BitVec.ofNat 64 (128 * line)) s.hub.module))
    (s1.setCore c ((s1.core c).padWrite (128 * line) (s1.freeBytes 128))).spend 128
  else s

/-- The array reads bytes of an operand in tiles. -/
def State.readTileBytes (s : State) (c t : Nat) (offs : List Nat) : State :=
  ((offs.map (· / 128)).eraseDups).foldl (fun s n => s.readTileLine c (32 * t + n)) s

/-! ## The operand fetcher (R132, R133, R220, R421) -/

/-- What a step of reading the source bytes of a line comes to. -/
inductive LineRead where
  /-- a source line of the core's tiles is not present -/
  | wait
  /-- the home of the line at this address is fenced -/
  | down (addr : Word)
  /-- a request to another module, at this address -/
  | remote (addr : Word)
  /-- one piece of the source has been read -/
  | piece (u : Nat) (bytes : List Byte) (poison : Bool) (s : State)
  /-- every piece has been read -/
  | got (bytes : List Byte) (poison mixed : Bool)

/-- A line of global memory of this module is read: an ordinary read at a point of its own, with the mark that it finds
(R133, R403). -/
def State.readSource (s : State) (c u : Nat) (pod : Bool) (a : Nat) (segs : List Seg) : LineRead :=
  let line := lineOf (segPa segs (128 * u - a))
  let va := 128 * u
  if s.homeDown (homeOf line) then .down (BitVec.ofNat 64 va)
  else if s.sealed line then .wait
  else
    let s1 := s.mergeLine line
    let s2 := s1.markAll [(va, line)] (memInfo 4 (if pod then 4 else 0) false PR 128)
    .piece u ((List.range 128).map fun i => s1.byte (line + i)) (s1.firstBadLine [(va, line)]).isSome
      (if pod then s2 else s2.touchAll c [⟨line, 128, false⟩] (s2.pageClass (s.core c).asid (s.core c).root va))

/-- A command or an entry reads nothing before the earlier stores of its strand in spaces 0, 1 and 2 and its earlier acquires
have been performed (R132, R220). -/
def Core.mayReadFor (k : Core) (t : StrandId) (tok : Nat) : Bool :=
  (k.older t tok).all fun m => !m.acquires && !(decide (m.space ≤ 2) && match m.kind with
    | .store _ => true
    | _ => false)

/-- The tile handle of an entry's operand. -/
def ArrEntry.handle? (e : ArrEntry) : Option Word :=
  match e.op with
  | .mma _ _ _ _ _ (.handle h) => some h
  | .wld _ _ (.handle h) => some h
  | _ => none

/-- The bytes of the operand by handle that an entry still needs: of the rows from its beat on, or all. -/
def ArrEntry.needs (e : ArrEntry) : List Nat :=
  match e.op with
  | .mma fmt _ _ _ _ (.handle _) => (List.range (128 - e.beat)).flatMap fun i => rowOffsets fmt 128 e.geom (e.beat + i)
  | .wld fmt _ (.handle _) => List.range (layoutBytes fmt 192 e.geom)
  | _ => []

/-- The lines of the next row of a multiply, or of the whole operand of a weight load, that have not been read: offsets and
PAs. -/
def ArrEntry.nextLines (e : ArrEntry) : List (Nat × Nat) :=
  (match e.op with
  | .mma fmt _ _ _ _ (.handle _) => offsetLines e.segs (rowOffsets fmt 128 e.geom e.beat)
  | .wld fmt _ (.handle _) => offsetLines e.segs (List.range (layoutBytes fmt 192 e.geom))
  | _ => []).filter fun p => (slook e.lines (p.1 / 128)).isNone

/-- The lines that the fetcher has still to read. -/
def ArrEntry.wanted (e : ArrEntry) : List Nat :=
  ((e.needs.map (· / 128)).eraseDups).filter fun n => (slook e.lines n).isNone

/-- A line of an entry's operand has arrived. -/
def State.tookLine (s : State) (c : Nat) (e : ArrEntry) (n : Nat) (bytes : List Byte) : State :=
  s.setCore c ((s.core c).setEntry { e with lines := sput e.lines n bytes, since := none })

/-- The fetcher reads a line of an operand at its own point. A poisoned line and one behind a fenced die never arrive; whether
another module answers, and with what, is open here (R220, R361, R421, log 2). -/
def State.fetchLine (s : State) (c : Nat) (e : ArrEntry) (h : Word) (n : Nat) : State :=
  if s.handleModule h ≠ s.hub.module then
    if s.hub.sends (s.handleModule h) ∧ s.free % 2 = 0 then ((s.drew.tookLine c e n (s.drew.freeBytes 128))).spend 128
    else (s.setCore c ((s.core c).setEntry { e with since := some (e.since.getD s.now) })).drew
  else
    match s.readSource c (handleBase h / 128 + n) (handlePod h) (handleBase h) e.segs with
    | .piece _ bs false s1 => s1.tookLine c e n bs
    | .piece _ _ true s1 => s1
    | _ => s

/-- The fetcher reads one of the lines that an entry still needs, in any order. -/
def State.fetch (s : State) (c : Nat) (e : ArrEntry) : State :=
  match e.handle?, e.wanted with
  | some h, n :: r =>
    if (s.core c).mayReadFor .m e.tok then s.drew.fetchLine c e h ((n :: r).getD (s.free % (r.length + 1)) n) else s
  | _, _ => s

/-- The entry behind those that the array is executing: its operand is read one entry ahead (R220). -/
def State.fetchAhead (s : State) (c i : Nat) : State :=
  let k := s.core c
  match k.arr[i]? with
  | some e => if k.arrayRuns && !e.started && (k.arr.take i).all (·.started) then s.fetch c e else s
  | none => s

/-! ## Weight loads (R60, R217) -/

/-- WEIGHT_LOAD_START (R215, R217); before it may start, its operand is read one entry ahead (R220). -/
def execWeightLoadStart (c : CoreIx) (i : Nat) (s : State) : Host.Outcome State Fault Refusal :=
  let k := s.core c
  match k.startable i with
  | some (e, _) =>
    match e.op with
    | .wld fmt p _ =>
      let w := k.plane p
      if w.state = 0 ∨ w.state = 2 then
        .next (s.setCore c ((k.setPlane p { w with state := 1, tag := fmt, bytes := [] }).setEntry { e with started := true }))
      else .next (s.fetchAhead c i)
    | _ => .next s
  | none => .next (s.fetchAhead c i)

/-- VALID of `%mprog` clears as the entry that it describes retires (R223). -/
def Core.clearProg (c : Core) (e : ArrEntry) : Core :=
  if e.noted then { c with mprog := BitVec.ofNat 64 (field c.mprog 0 8) } else c

/-- WEIGHT_LOAD_END (R217, R220): the next line of the operand is read, or the last byte has landed. -/
def execWeightLoadEnd (c : CoreIx) (i : Nat) (s : State) : Host.Outcome State Fault Refusal :=
  match (s.core c).moving i with
  | some (e, _) =>
    match e.op with
    | .wld fmt p src =>
      if !e.wanted.isEmpty then .next (s.fetch c e)
      else
        let s1 := match src with
          | .tile t => s.readTileBytes c t (List.range (groupBytes fmt 192))
          | .handle _ => s
        let k := s1.core c
        let bs := match src with
          | .tile t => k.padRead (4096 * t) (groupBytes fmt 192)
          | .handle _ => e.canonBytes fmt 192
        let k1 := (k.release e.op.tiles).setPlane p { k.plane p with state := 2, bytes := sputs [] 0 bs }
        .next (s1.setCore c ((k1.clearProg e).retireEntry e))
    | _ => .next s
  | none => .next s

/-! ## Multiplies (R82 to R85, R215, R221, R360) -/

/-- MULTIPLY_START (R215); before it may start, its operand is read one entry ahead (R220). -/
def execMultiplyStart (c : CoreIx) (i : Nat) (s : State) : Host.Outcome State Fault Refusal :=
  let k := s.core c
  match k.startable i with
  | some (e, before) =>
    match e.op with
    | .mma _ a p _ _ _ =>
      let w := k.plane p
      if (w.state = 2 ∨ w.state = 3) ∧ !before.any fun x => x.op.bars a then
        .next (s.setCore c ((k.setPlane p { w with state := 3 }).setEntry { e with started := true }))
      else .next (s.fetchAhead c i)
    | _ => .next s
  | none => .next (s.fetchAhead c i)

/-- Bit i of a row mask. -/
def MaskPair.rowBit (m : MaskPair) (i : Nat) : Bool := m.row.getLsbD i
/-- Bit j of a column mask. -/
def MaskPair.colBit (m : MaskPair) (j : Nat) : Bool := m.col.getLsbD j
/-- An active element (R61). -/
def MaskPair.active (m : MaskPair) (i j : Nat) : Bool := m.rowBit i && m.colBit j

/-- The new value of one active element (R82, R84, R85). -/
def mmaElem (fmt : Nat) (acc : W32) (a w : MatRow) : W32 :=
  match fmt with
  | 2 => bfElem acc (bfDot a.codes w.codes)
  | 3 => acc + BitVec.ofInt 32 (i8Dot a.codes w.codes)
  | _ => lnsElem acc (lnsDot fmt 0 a.scales w.scales a.codes w.codes)

/-- Row i of an accumulator. -/
def Core.accRow (c : Core) (n i : Nat) : List W32 := (List.range 192).map fun j => c.accElem n i j

/-- Replace row i of an accumulator. -/
def Core.setAccRow (c : Core) (n i : Nat) (r : List W32) : Core := { c with acc := sput c.acc (128 * n + i) r }

/-- Beat i of a multiply on a row of an accumulator (R221): the new row. -/
def mmaRow (p : Plane) (fmt : Nat) (mask : MaskPair) (z : Bool) (i : Nat) (a : MatRow) (row : List W32) : List W32 :=
  (List.range 192).map fun j =>
    let old := row.getD j 0
    if mask.active i j then mmaElem fmt old a (p.column fmt j) else if z then 0 else old

/-- A row checksum fails (R360): the beat is replayed, and a third mismatch on one row fences the core, before any word or trap
of the cycle (R377). -/
def State.checksumMiss (s : State) (c fails row : Nat) (replay : State) : State :=
  if 2 ≤ fails then if (s.core c).acted then s else s.fenceCore c ACHK (BitVec.ofNat 64 row) else replay.corrected (dieOf c) 0 (c % 64)

/-- MULTIPLY_ROW_COMPLETE (R215, R220, R221, R360): a line of the operand is read, or the next row completes: rows in order,
a later multiply's row behind the same row of every earlier one. During a treadle run a mismatch strikes the run's next beat. -/
def execMultiplyRowComplete (c : CoreIx) (i : Nat) (mismatch : Bool) (s : State) : Host.Outcome State Fault Refusal :=
  let k := s.core c
  match k.run with
  | some r =>
    if mismatch ∧ k.arrayRuns ∧ r.g < 128 * r.stitches then
      .next (s.checksumMiss c r.fails (r.g % 128) (s.setCore c { k with run := some { r with fails := r.fails + 1 } }))
    else .next s
  | none =>
    match k.moving i with
    | some (e, before) =>
      match e.op with
      | .mma fmt a p mask z src =>
        if 128 ≤ e.beat then .next s
        else if !k.unstopped || before.any (fun x => x.op.isMma && x.beat ≤ e.beat) || !e.nextLines.isEmpty then
          .next (s.fetch c e)
        else if !e.wanted.isEmpty && s.free % 2 == 1 then .next (s.drew.fetch c e)
        else if mismatch then
          .next (s.checksumMiss c e.fails e.beat (s.setCore c (k.setEntry { e with fails := e.fails + 1 })))
        else
          let s1 := match src with
            | .tile t => s.readTileBytes c t (rowOffsets fmt 128 64 e.beat)
            | .handle _ => s
          let k1 := s1.core c
          let k2 := k1.setAccRow a e.beat
            (mmaRow (k1.plane p) fmt mask z e.beat (k1.operandRow e src fmt 128 e.beat) (k1.accRow a e.beat))
          .next (s1.setCore c (k2.setEntry { e with beat := e.beat + 1, fails := 0 }))
      | _ => .next s
    | none => .next s

/-- MULTIPLY_RETIRE (R60, R216, R223, R261): in queue order; a follow-on multiply makes the command's counter add. -/
def execMultiplyRetire (c : CoreIx) (i : Nat) (s : State) : Host.Outcome State Fault Refusal :=
  let k := s.core c
  match k.moving i with
  | some (e, before) =>
    match e.op with
    | .mma _ _ p _ _ _ =>
      if e.beat < 128 || before.any (·.op.isMma) then .next s
      else
        let k1 := (((k.release e.op.tiles).clearProg e).retireEntry e).leavePlane p
        let s1 := s.setCore c k1
        .next (match e.follow with
          | some h => s1.sendAdd (.welt c) h 1
          | none => s1)
    | _ => .next s
  | none => .next s

/-- MZERO_RETIRE (R215, R224). -/
def execMzeroRetire (c : CoreIx) (i : Nat) (s : State) : Host.Outcome State Fault Refusal :=
  let k := s.core c
  match k.startable i with
  | some (e, before) =>
    match e.op with
    | .mzero a =>
      if before.any fun x => x.op.targets a then .next s
      else .next (s.setCore c ({ k with acc := k.acc.filter fun p => p.1 / 128 ≠ a }.retireEntry e))
    | _ => .next s
  | none => .next s

/-! ## Drains (R227 to R229) -/

/-- The scale-and-bias words of a tile: 192 scales and 192 biases (R227). -/
def Core.readSb (c : Core) (t : Nat) : List W32 :=
  let bs := c.padRead (4096 * t) 1536
  (List.range 384).map fun i => BitVec.ofNat 32 (num bs (4 * i) 4)

/-- The lines that a drain reads of its scale-and-bias tile are present (R112, R227). -/
def Core.sbReady (c : Core) (d : Word) : Bool := !dScb d || (List.range 12).all fun n => (c.tile (dSbt d)).present n

/-- EXPECT of tile k of an output group (R227, R229). -/
def drainExpect (ofmt k : Nat) : Nat := min 32 (drainLines ofmt - 32 * k)

/-- A drain takes a tile of its output group: EXPECT is set as `talloc` sets it (R112, R229). -/
def Core.expectTile (c : Core) (t k ofmt : Nat) : Core := c.setTile (t + k) { state := 0, expect := drainExpect ofmt k, pres := 0 }

/-- The lines of the scale-and-bias tile that carry an error are found as they are read (R403). -/
def State.findSb (s : State) (c : Nat) (d : Word) : State :=
  if dScb d then
    (List.range 12).foldl (fun s n =>
      let line := 32 * dSbt d + n
      s.findLine c line (memInfo 8 1 false 0 4096 (plainFault UCE (BitVec.ofNat 64 (128 * line)) s.hub.module))) s
  else s

/-- DRAIN_START (R215, R227, R229). -/
def execDrainStart (c : CoreIx) (i : Nat) (s : State) : Host.Outcome State Fault Refusal :=
  let k := s.core c
  match k.startable i with
  | some (e, before) =>
    match e.op with
    | .mdrain a t _ d =>
      let n := drainTiles (dOfmt d)
      if before.any (fun x => x.op.targets a || x.op.isTable) || !(tilesFrom t n).all (fun x => (k.tile x).state == 0) ||
          !k.sbReady d then .next s
      else
        let s1 := s.findSb c d
        let k1 := (List.range n).foldl (fun k j => k.expectTile t j (dOfmt d)) (s1.core c)
        .next (s1.setCore c (k1.setEntry
          { e with
            started := true, sb := if dScb d then k1.readSb (dSbt d) else []
            sbBad := dScb d && (k1.firstBad (32 * dSbt d) 12).isSome }))
    | _ => .next s
  | none => .next s

/-- The slope and the offset of the activation table for a value (R228, R232). -/
def Core.lutFor (c : Core) (v : W32) : W32 × W32 :=
  let x := v.toNat / 2 ^ 24
  (BitVec.ofNat 32 (num c.lut (8 * x) 4), BitVec.ofNat 32 (num c.lut (8 * x + 4) 4))

/-- VisBit of the mask parameter store (R231). -/
def Core.visBit (c : Core) (i j : Nat) : Bool := bitOf (num c.mpBytes (24 * i + j / 8) 1) (j % 8)

/-- The value of one active element on its way out (R228), for every form but the raw ones. -/
def Core.drainValue (c : Core) (d : Word) (sb : List W32) (i j : Nat) (raw : W32) : W32 :=
  let v := if dSrc d then intF raw.toInt else raw
  let v := if dScb d then fmaF v (sb.getD j 0) (sb.getD (192 + j) 0) else v
  let v := if dMpb d && decide (i < c.mpRows) && !c.visBit i j then 0xFF800000 else v
  match dAct d with
  | 1 => if (f32 v).isNan then nanF else if (f32 v).sign then 0 else v
  | 2 => if (f32 v).isNan then nanF else fmaF (c.lutFor v).1 v (c.lutFor v).2
  | _ => v

/-- One row of a drain's output (R228): element bytes and scale bytes. -/
def Core.drainRow (c : Core) (d : Word) (mask : MaskPair) (sb : List W32) (i : Nat) (row : List W32) :
    List Byte × List Byte :=
  let ofmt := dOfmt d
  let rawInt := ofmt = 5 ∧ dSrc d = true ∧ dScb d = false
  let out := (List.range 192).map fun j =>
    let raw := row.getD j 0
    if !mask.active i j then 0
    else if ofmt = 4 ∨ rawInt then raw
    else c.drainValue d sb i j raw
  match ofmt with
  | 0 => (out.flatMap fun v => bytesOf 4 (if (f32 v).isNan then nanF else v).toNat, [])
  | 1 => (out.flatMap fun v => bytesOf 2 (f32 v).toBF16, [])
  | 4 => (out.flatMap fun v => bytesOf 4 v.toNat, [])
  | 5 =>
    (out.map fun v => BitVec.ofInt 8 (if rawInt then satInt 8 v.toInt else (f32 v).toInt 8), List.replicate 3 0)
  | _ =>
    let fmt := if ofmt = 2 then 0 else 1
    let blocks := (List.range 3).map fun b => ((out.drop (64 * b)).take 64).map f32
    let codes := blocks.flatMap fun xs => xs.map fun x => lnsEncode x fmt (lnsScale xs)
    (if fmt = 0 then codes.map (BitVec.ofNat 8) else pack6 codes, blocks.map fun xs => BitVec.ofInt 8 (lnsScale xs))

/-- The first and the last row that give bytes of a line of an output group (R227). -/
def lineRows (ofmt n : Nat) : Nat × Nat :=
  let b := drainRowBytes ofmt
  let e := drainElems ofmt
  if 128 * n < e then (128 * n / b, (128 * n + 127) / b)
  else ((128 * n - e) / 3, min ((128 * n - e + 127) / 3) 127)

/-- The bytes of line n of an output group, from its rows. -/
def drainLine (ofmt n : Nat) (row : Nat → List Byte × List Byte) : List Byte :=
  let r := lineRows ofmt n
  let rs := (List.range (r.2 + 1 - r.1)).map fun k => row (r.1 + k)
  let b := drainRowBytes ofmt
  let e := drainElems ofmt
  let bs := if 128 * n < e then (rs.flatMap Prod.fst).drop (128 * n - r.1 * b)
    else (rs.flatMap Prod.snd).drop (128 * n - e - r.1 * 3)
  (bs ++ List.replicate 128 0).take 128

/-- The active elements of row i become zero (R228). -/
def clearRow (mask : MaskPair) (i : Nat) (row : List W32) : List W32 :=
  (List.range 192).map fun j => if mask.active i j then 0 else row.getD j 0

/-- The lines of a drain that are known whole and have not been written (R229). -/
def ArrEntry.linesDue (e : ArrEntry) (ofmt : Nat) : List Nat :=
  (List.range (drainLines ofmt)).filter fun n => decide ((lineRows ofmt n).2 < e.beat) && !e.wrote.contains n

/-- A drain reads its next row; with CLR the row's active elements then become zero (R228). -/
def Core.drainRead (k : Core) (e : ArrEntry) (a : Nat) (mask : MaskPair) (d : Word) : Core :=
  let i := e.beat
  let row := k.accRow a i
  let k1 := if dClr d && mask.rowBit i then k.setAccRow a i (clearRow mask i row) else k
  k1.setEntry { e with beat := i + 1, image := sput e.image i row }

/-- A drain writes line n of its output group, if its tile takes it (R112, R229); errors found in the scale-and-bias tile mark
what it writes (log 70). -/
def Core.drainWrite (k : Core) (e : ArrEntry) (t : Nat) (mask : MaskPair) (d : Word) (n : Nat) : Core :=
  let bs := drainLine (dOfmt d) n fun r => k.drainRow d mask e.sb r (sget [] e.image r)
  match k.arrive (32 * t + n) [(bs, e.sbBad)] with
  | some k1 => k1.setEntry { e with wrote := e.wrote ++ [n] }
  | none => k

/-- DRAIN_LINE_WRITE (R112, R228, R229): the next row is read, or one of the lines whose bytes are known is written, in any
order (log 2). -/
def execDrainLineWrite (c : CoreIx) (i : Nat) (s : State) : Host.Outcome State Fault Refusal :=
  let k := s.core c
  match k.moving i with
  | some (e, _) =>
    match e.op with
    | .mdrain a t mask d =>
      let due := e.linesDue (dOfmt d)
      let n := s.free % (due.length + if e.beat < 128 then 1 else 0)
      match due[n]? with
      | some l => .next (s.drew.setCore c (k.drainWrite e t mask d l))
      | none => if e.beat < 128 then .next (s.drew.setCore c (k.drainRead e a mask d)) else .next s
    | _ => .next s
  | none => .next s

/-- DRAIN_END (R216, R228): every row has been read and every line written. -/
def execDrainEnd (c : CoreIx) (i : Nat) (s : State) : Host.Outcome State Fault Refusal :=
  let k := s.core c
  match k.moving i with
  | some (e, _) =>
    match e.op with
    | .mdrain _ _ _ d =>
      if e.beat < 128 || !(e.linesDue (dOfmt d)).isEmpty then .next s else .next (s.setCore c (k.retireEntry e))
    | _ => .next s
  | none => .next s

/-- TABLE_INSTALL (R215, R231, R232). -/
def execTableInstall (c : CoreIx) (i : Nat) (s : State) : Host.Outcome State Fault Refusal :=
  let k := s.core c
  match k.startable i with
  | some (e, before) =>
    if before.any (·.op.isDrain) then .next s
    else
      match e.op with
      | .mpbld b => .next (s.setCore c ({ k with mpRows := num b 0 2, mpBytes := b.drop 16 }.retireEntry e))
      | .lutld b => .next (s.setCore c ({ k with lut := b }.retireEntry e))
      | _ => .next s
  | none => .next s

/-! ## Withdrawals of a core's requests (R446, R447) -/

/-- The 100 µs of R447 have passed since a first sending. -/
def State.late (s : State) (sent : Nat) : Bool := sent + 100000 ≤ s.now

/-- A target is unreachable: no route of at most two hops remains (R446). -/
def State.unreachable (s : State) (m : Nat) : Bool := s.hub.noRoute m

/-- The record of a withdrawn request of a core, unless that is fenced (R371, R447). -/
def State.ldown (s : State) (c m : Nat) (trap : Bool) (addr info : Word) : State :=
  (if s.silent (dieOf c) 0 (c % 64) then s else s.coreRecord c LDOWN 3 (s.unreachable m) trap addr info).drew

/-! ## The stop at an operand line (R421 to R423) -/

/-- The line that the fetcher cannot deliver, for a cause: its offset, none if the cause does not hold. A line of another
module may fail for what holds there, which is open here: the line is a free choice among the row's (log 2). -/
def State.failedLine (s : State) (e : ArrEntry) (h : Word) (cause : Nat) : Option Nat :=
  let ls := e.nextLines
  if s.handleModule h = s.hub.module then
    (ls.find? fun p => match cause with
      | 0 => s.poison.contains p.2 || s.damaged.contains p.2
      | 2 => s.dieDown (homeOf p.2)
      | _ => false).map Prod.fst
  else if cause = 1 ∧ !(e.since.any fun t => t + 100000 ≤ s.now) then none
  else ls[s.free % ls.length]?.map Prod.fst

/-- `%tinfo` of OPND (R422). -/
def opndInfo (e : ArrEntry) (cause module : Nat) : Word :=
  let f := match e.op with
    | .mma _ a p _ _ _ => 1024 * a + 4096 * p
    | .wld _ p _ => 4096 * p + 8192
    | _ => 0
  BitVec.ofNat 64 (e.beat + 256 * cause + f + 2 ^ 20 * module)

/-- The damaged lines of an entry's next rows are found as the fetcher reads them (R403): ACC 4. -/
def State.findNext (s : State) (e : ArrEntry) (h : Word) : State :=
  s.markAll (e.nextLines.map fun p => (handleBase h + p.1, p.2)) (memInfo 4 (if handlePod h then 4 else 0) false PR 128)

/-- An engine trap is held for a strand of a core, to be taken from the next cycle on (R418, R419). -/
def Core.engineTrap (c : Core) (k : StrandId) (synd : Nat) (addr info : Word) : Core :=
  { c with traps := c.traps ++ [⟨k, synd, addr, info, c.cycle + 1⟩] }

/-- OPERAND_LINE_TIMEOUT (R223, R421 to R423): the oldest entry stops before a row that the fetcher cannot deliver. A line of
another module that was withdrawn leaves the core's LDOWN record (R447). -/
def execOperandLineTimeout (c : CoreIx) (i : Nat) (cause : Fin 3) (s : State) : Host.Outcome State Fault Refusal :=
  match (s.core c).moving i with
  | some (e, before) =>
    match e.handle? with
    | none => .next s
    | some h =>
      if !before.isEmpty || (e.op.isMma && 128 ≤ e.beat) then .next s
      else
        match s.failedLine e h cause with
        | none => .next s
        | some o =>
          let addr := BitVec.ofNat 64 (handleBase h + o)
          let info := opndInfo e cause (s.handleModule h)
          let s1 :=
            if s.handleModule h = s.hub.module then s.findNext e h
            else if cause.val = 1 then s.drew.ldown c (s.handleModule h) true addr info
            else s.drew
          let k := s1.core c
          let k1 := (k.setEntry { e with stopped := true, noted := true, since := none }).engineTrap .m OPND addr info
          .next (s1.setCore c { k1 with mprog := BitVec.ofNat 64 (e.beat + 256) })
  | none => .next s

end Sys2Proof.Machine
end

