-- ==== Sys2Proof/Machine/Welt.lean ====
section
/-! DEFINITION. Welt commands: their words, the checks at issue, and the shapes of the copies (R256 to R262). -/

namespace Sys2Proof.Machine

/-! ## The copy descriptor (R256) -/

/-- KIND. -/
def cpKind (d : Word) : Nat := field d 0 2
/-- TRANS. -/
def cpTrans (d : Word) : Bool := bitOf d.toNat 2
/-- GSPACE names pod space. -/
def cpPod (d : Word) : Bool := field d 3 3 = 4
/-- TSPACE: the tile side is remote. -/
def cpRemote (d : Word) : Bool := bitOf d.toNat 6
/-- ROWS. -/
def cpRows (d : Word) : Nat := field d 8 8
/-- KLEN. -/
def cpKlen (d : Word) : Nat := field d 16 9
/-- LEN. -/
def cpLen (d : Word) : Nat := field d 25 21
/-- Rows of the canonical operand of a KIND (R110). -/
def kindRows (kind : Nat) : Nat := if kind = 1 then 128 else 192

/-- What a row of R258 allows of a descriptor. -/
structure CopyForm where
  kinds : List Nat
  trans : Bool
  pod : Bool
  tspace : List Nat
  maxLen : Nat

/-- The row of R258 of an L opcode. -/
def copyForm (op : Nat) : CopyForm :=
  match op with
  | 0x20 => ⟨[0, 1, 2], true, true, [0, 1], 1310720⟩
  | 0x21 => ⟨[0, 1, 2], false, true, [0], 1310720⟩
  | 0x22 => ⟨[0], false, false, [1], 1310720⟩
  | 0x23 => ⟨[0], false, true, [0], 1310720⟩
  | 0x24 => ⟨[0], false, true, [0], 3968⟩
  | _ => ⟨[1], true, true, [0], 1310720⟩

/-- The offences of a copy descriptor (R256, R258 to R260, R262), against the xc field. -/
def copyOffences (op : Nat) (d : Word) : List Offence :=
  let f := copyForm op
  valAt (cpKind d = 3) 6 0 1 ++
  valAt (cpKind d ≠ 3 ∧ !f.kinds.contains (cpKind d)) 6 0 3 ++
  valAt (cpTrans d ∧ (f.trans = false ∨ cpKind d = 0)) 6 2 3 ++
  valAt (field d 3 3 ≠ 0 ∧ field d 3 3 ≠ 4) 6 3 1 ++
  valAt (cpPod d ∧ f.pod = false) 6 3 3 ++
  valAt (!f.tspace.contains (field d 6 1)) 6 6 3 ++
  valAt (field d 7 1 ≠ 0) 6 7 2 ++
  (if cpKind d = 0 then
    valAt (cpRows d ≠ 0) 6 8 2 ++ valAt (cpKlen d ≠ 0) 6 16 2 ++ valAt (f.maxLen < cpLen d) 6 25 3
  else
    valAt (cpRows d = 0 ∨ kindRows (cpKind d) < cpRows d) 6 8 3 ++
    valAt (cpKlen d = 0 ∨ 256 < cpKlen d) 6 16 3 ++ valAt (cpLen d ≠ 0) 6 25 2) ++
  valAt (field d 46 18 ≠ 0) 6 46 2

/-! ## The global side of a command (R106, R257, R259, R396 to R399) -/

/-- The matrix format that a page's FMT gives, if it is one. -/
def matrixFmt (e : Word) : Option Nat :=
  match leafFmt e with
  | 1 => some 1
  | 2 => some 0
  | 3 => some 2
  | 5 => some 3
  | _ => none

/-- What the checks of a range of global memory find at issue: offences, a fault, or translations and the pages' format. -/
structure GlobalSide where
  checks : List Offence := []
  fault : Option TrapInfo := none
  segs : List Seg := []
  fmt : Nat := 0
  geom : Nat := 64
  found : State → State := id
  /-- free draws used up -/
  draws : Nat := 0

/-- What a command needs of a range: permissions and ACC, whether it is a matrix operand, its length under a format and
K-block, and the offences of these. -/
structure GlobalNeed where
  need : Nat
  acc : Nat
  matrix : Bool
  len : Nat → Nat → Nat
  ok : Nat → Nat → List Offence

/-- A fault of a range as a trap (R396). -/
def globalTrap (pod : Bool) (g : GlobalNeed) (len : Nat) (f : MemFault) : TrapInfo :=
  ⟨f.synd, f.addr, memInfo g.acc (if pod then 4 else 0) false g.need len f, some f.addr, none⟩

/-- The check of a range in memory of this module. Where the first page has no translation, its format and so the length of
a matrix operand are not known: LEN is 0. -/
def State.localSide (s : State) (pod : Bool) (a : Word) (g : GlobalNeed) : GlobalSide :=
  match s.pageAt pod 0 a.toNat with
  | .error f =>
    { fault := some (globalTrap pod g (if g.matrix then 0 else g.len 0 64) f), found := fun t => t.settlePages pod a.toNat 1 }
  | .ok (_, e) =>
    let fmt := (matrixFmt e).getD 0
    let k := if g.matrix then leafGeom e else 64
    let n := g.len fmt k
    let differ := (s.rangeLeaves pod 0 a.toNat n).any fun x => leafFmt x != leafFmt e || (fmt != 2 && leafGeom x != k)
    { checks := if g.matrix then val ((matrixFmt e).isNone ∨ differ = true) 16 8 ++ g.ok fmt k else []
      fault := (s.rangeFault pod g.need a.toNat n).map (globalTrap pod g n)
      segs := s.rangeSegs pod g.need a.toNat n
      found := fun t => t.settlePages pod a.toNat n
      fmt := fmt
      geom := k }

/-- The check of a range at another module: its tables decide, which is open here (R98, R396, R402; log 2). -/
def State.remoteSide (s : State) (a : Word) (g : GlobalNeed) (draw : Nat) : GlobalSide :=
  let n := Config.freeNat (s.draws + draw + 1)
  let m := field a 52 12
  let fmt := n / 4 % 4
  let k := 64 * 2 ^ (n / 16 % 3)
  let trap := globalTrap true g (g.len fmt k)
  if !s.hub.sends m then { fault := some (trap ⟨XLATE, a, 0, false, 0, m⟩) }
  else
    match farFault (Config.freeNat (s.draws + draw)) g.need a.toNat (g.len fmt k) m with
    | some f => { fault := some (trap f), draws := 2 }
    | none =>
      if !g.matrix then { draws := 2 }
      else if n % 2 = 0 then { checks := val True 16 8, draws := 2 }
      else { checks := g.ok fmt k, fmt := fmt, geom := k, draws := 2 }

/-- The check of a range of the command's space. -/
def State.globalSide (s : State) (pod : Bool) (a : Word) (g : GlobalNeed) (draw : Nat) : GlobalSide :=
  if pod = true ∧ field a 52 12 ≠ s.hub.module then s.remoteSide a g draw else s.localSide pod a g

/-- Bytes of a panel (R109, R259). -/
def panelBytes (fmt rows klen geom : Nat) : Nat := rows * rowBytes fmt klen + rows * rowScales fmt klen geom

/-- What the panel of a KIND 1 or 2 copy needs (R259), `want` the format of a follow-on word. -/
def panelNeed (d : Word) (need acc : Nat) (want : Option Nat) : GlobalNeed :=
  { need := need
    acc := acc
    matrix := true
    len := fun fmt g => panelBytes fmt (cpRows d) (cpKlen d) g
    ok := fun fmt g =>
      valAt (fmtK fmt < cpKlen d) 6 16 3 ++
      val ((cpTrans d = true ∧ fmt ≠ 2) ∨ (fmt ≠ 2 ∧ cpKlen d % g ≠ 0) ∨ want.any (· != fmt)) 16 8 }

/-- What a range of bytes needs. -/
def bytesNeed (need acc len : Nat) : GlobalNeed := { need := need, acc := acc, matrix := false, len := fun _ _ => len, ok := fun _ _ => [] }

/-- What the copy's own range needs. -/
def copyNeed (d : Word) (need acc : Nat) (want : Option Nat) : GlobalNeed :=
  if cpKind d = 0 then bytesNeed need acc (cpLen d) else panelNeed d need acc want

/-! ## The tile side (R258, R262) -/

/-- The offences of a tile-side address in the core's own scratchpad: `bytes` from it on must lie in its tiles. -/
def Core.padOffences (c : Core) (a : Word) (align bytes bit : Nat) : List Offence :=
  val (field a 21 43 ≠ 0) bit 2 ++ val (a.toNat % align ≠ 0) bit 5 ++
  val (field a 21 43 = 0 ∧ c.padSize < a.toNat + bytes) bit 6

/-- The offences of a tile-side address at any core. -/
def sprOffences (a : Word) (align bit : Nat) : List Offence := addressOffences 2 a bit ++ val (a.toNat % align ≠ 0) bit 5

/-- Alignment of the tile side. -/
def tileAlign (d : Word) : Nat := if cpKind d = 0 then 128 else 4096

/-- Bytes that a copy takes on the tile side. -/
def tileBytes (d : Word) (fmt : Nat) : Nat :=
  if cpKind d = 0 then cpLen d else 4096 * groupTiles fmt (kindRows (cpKind d))

/-! ## Issue (R257) -/

/-- A Welt command's plan from what its checks find. -/
def State.weltPlan (s : State) (i : Instr) (op : Nat) (a b c k : Fin 32) (more : List Acc) (checks : List Offence)
    (src dst : GlobalSide) (extra : Word) : Plan :=
  let d := s.rx c
  let w : WeltCmd :=
    { tok := s.tok, op := op, a := s.rx a, b := s.rx b, desc := d, extra := extra, k := s.counterReg k,
      fmt := src.fmt, geom := src.geom, segs := src.segs, dsegs := dst.segs }
  { accs := [rdx a 16, rdx b 11, rdx c 6] ++ more ++ [rdx k 1]
    bits := wordFaults i
    waits := if 32 ≤ s.here.welt.length then [.other] else []
    checks := copyOffences op d ++ s.optHandle k 1 ++ checks ++ src.checks ++ dst.checks
    fault := src.fault <|> dst.fault
    found := fun s => (dst.found (src.found s)).spend (src.draws + dst.draws)
    go := fun s => s.setHere { s.here with welt := s.here.welt ++ [w] } }

/-- WCP.IN (R258, R259). With no matrix page to give the format, the tile side is checked with L8's tile count (R262; DESIGN
CHOICE, log 79). -/
def execWcpIn (h : Hdr) (a b c k : Fin 32) (s : State) : Host.Outcome State Fault Refusal :=
  s.issueOn .l h fun s =>
    let d := s.rx c
    let g := s.globalSide (cpPod d) (s.rx a) (copyNeed d PR 4 none) 0
    let tile := if cpRemote d then sprOffences (s.rx b) (tileAlign d) 11
      else s.here.padOffences (s.rx b) (tileAlign d) (tileBytes d g.fmt) 11
    let busy := s.storeOffence (if cpRemote d then 2 else 1) (s.rx b) (tileBytes d g.fmt) 11
    s.weltPlan (.wcpIn h a b c k) 0x20 a b c k [] (tile ++ busy) g {} 0

/-- WCP.OUT (R258, R259): the destination's pages give the format. -/
def execWcpOut (h : Hdr) (a b c k : Fin 32) (s : State) : Host.Outcome State Fault Refusal :=
  s.issueOn .l h fun s =>
    let d := s.rx c
    let g := s.globalSide (cpPod d) (s.rx a) (copyNeed d PW 5 none) 0
    let tile := s.here.padOffences (s.rx b) (tileAlign d) (tileBytes d g.fmt) 11
    s.weltPlan (.wcpOut h a b c k) 0x21 a b c k [] tile { g with segs := [] } { segs := g.segs } 0

/-- WCP.RT (R258). -/
def execWcpRt (h : Hdr) (a b c k : Fin 32) (s : State) : Host.Outcome State Fault Refusal :=
  s.issueOn .l h fun s =>
    let d := s.rx c
    let tile := sprOffences (s.rx a) 128 16 ++ s.here.padOffences (s.rx b) 128 (cpLen d) 11 ++
      s.storeOffence 2 (s.rx a) (cpLen d) 16
    s.weltPlan (.wcpRt h a b c k) 0x22 a b c k [] tile {} {} 0

/-- WCP.GG (R258). -/
def execWcpGg (h : Hdr) (a b c k : Fin 32) (s : State) : Host.Outcome State Fault Refusal :=
  s.issueOn .l h fun s =>
    let d := s.rx c
    let n := cpLen d
    let x := s.rx a
    let y := s.rx b
    let src := s.globalSide (cpPod d) x (bytesNeed PR 4 n) 0
    let dst := s.globalSide (cpPod d) y (bytesNeed PW 5 n) src.draws
    s.weltPlan (.wcpGg h a b c k) 0x23 a b c k []
      (val (meets x.toNat n y.toNat n = true) 11 12) src dst 0

/-- WCP.COND (R260): the version is read with the descriptor. -/
def execWcpCond (h : Hdr) (a b c k : Fin 32) (s : State) : Host.Outcome State Fault Refusal :=
  s.issueOn .l h fun s =>
    let d := s.rx c
    let n := cpLen d
    let x := s.rx a
    let g := s.globalSide (cpPod d) x (bytesNeed PATOM 5 (128 + n)) 0
    let tile := val (x.toNat % 128 ≠ 0) 16 5 ++ val (4096 < x.toNat % 4096 + 128 + n) 16 3 ++
      s.here.padOffences (s.rx b) 128 n 11
    s.weltPlan (.wcpCond h a b c k) 0x24 a b c k [rdx (c.val + 1) 6] tile { g with segs := [] } { segs := g.segs }
      (s.rx (c.val + 1))

/-- Format of a follow-on word (R261): OP 0x08 to 0x0B. -/
def followFmt (w : Word) : Nat := field w 21 6 - 8
/-- Tile of a follow-on word. -/
def followTile (w : Word) : Nat := field w 4 9

/-- The offences of the follow-on word of `wcp.mm` (R261), against the xb field. -/
def Core.followOffences (c : Core) (w : Word) : List Offence :=
  let op := field w 21 6
  val (field w 32 32 ≠ 0 ∨ field w 27 4 ≠ 0 ∨ field w 13 1 ≠ 0 ∨ field w 0 4 ≠ 0) 11 2 ++
  val (field w 31 1 = 0 ∨ op < 8 ∨ 11 < op) 11 3 ++
  val (8 ≤ op ∧ op ≤ 11 ∧ c.tileCount < followTile w + groupTiles (op - 8) 128) 11 6

/-- WCP.MM (R261). -/
def execWcpMm (h : Hdr) (a b c k : Fin 32) (s : State) : Host.Outcome State Fault Refusal :=
  s.issueOn .l h fun s =>
    let d := s.rx c
    let w := s.rx b
    let g := s.globalSide (cpPod d) (s.rx a) (panelNeed d PR 4 (some (followFmt w))) 0
    s.weltPlan (.wcpMm h a b c k) 0x25 a b c k []
      (s.here.followOffences w ++
        s.sourceOffence s.cur.core (4096 * followTile w) (4096 * groupTiles (followFmt w) 128) 11) g {} w

/-! ## The shape of a command (R109, R110, R258, R259) -/

/-- Rows of the canonical operand. -/
def WeltCmd.rows (w : WeltCmd) : Nat := kindRows (cpKind w.desc)

/-- The command writes tiles. -/
def WeltCmd.toTiles (w : WeltCmd) : Bool := w.op == 0x20 || w.op == 0x22 || w.op == 0x25

/-- The command reads the core's own tiles. -/
def WeltCmd.fromTiles (w : WeltCmd) : Bool := w.op == 0x21 || w.op == 0x22 || w.op == 0x24

/-- The command moves a matrix operand. -/
def WeltCmd.matrix (w : WeltCmd) : Bool := cpKind w.desc != 0

/-- Bytes of the destination. -/
def WeltCmd.size (w : WeltCmd) : Nat :=
  if !w.matrix then cpLen w.desc
  else if w.toTiles then groupBytes w.fmt w.rows
  else panelBytes w.fmt (cpRows w.desc) (cpKlen w.desc) w.geom

/-- The destination address in global memory. -/
def WeltCmd.target (w : WeltCmd) : Word := if w.op = 0x23 then w.b else w.a

/-- The destination lines of the command; `wcp.cond` counts its source lines. -/
def WeltCmd.units (w : WeltCmd) : Nat :=
  if w.toTiles || w.op == 0x24 then (w.size + 127) / 128
  else if w.size = 0 then 0
  else (w.target.toNat + w.size - 1) / 128 - w.target.toNat / 128 + 1

/-- The destination bytes of line j, as offsets: the first and the end. -/
def WeltCmd.extent (w : WeltCmd) (j : Nat) : Nat × Nat :=
  if w.toTiles || w.op == 0x24 then (128 * j, 128 * j + 128)
  else
    let a := w.target.toNat
    (128 * (a / 128 + j) - a, min (128 * (a / 128 + j + 1) - a) w.size)

/-- The source bytes of byte o of a canonical operand: none for padding. -/
def panelByte (fmt rows R kl g : Nat) (trans : Bool) (o : Nat) : List Nat :=
  let b := rowBytes fmt (fmtK fmt)
  let rp := rowBytes fmt kl
  let e := elemBytes fmt rows
  let n := rowScales fmt (fmtK fmt) 64
  if o < e then
    let i := o / b
    let x := o % b
    if i < R ∧ x < rp then [if trans then 2 * (x / 2 * R + i) + x % 2 else i * rp + x] else []
  else
    let i := (o - e) / n
    let x := (o - e) % n
    if n ≠ 0 ∧ i < R ∧ 64 * x < kl then [R * rp + i * rowScales fmt kl g + 64 * x / g] else []

/-- The canonical bytes that byte o of a panel comes from: for a scale, one of each canonical block (R109). -/
def canonByte (fmt rows R kl g o : Nat) : List Nat :=
  let b := rowBytes fmt (fmtK fmt)
  let rp := rowBytes fmt kl
  if o < R * rp then [o / rp * b + o % rp]
  else
    let n := rowScales fmt kl g
    let q := o - R * rp
    (List.range (g / 64)).map fun x => elemBytes fmt rows + q / n * rowScales fmt (fmtK fmt) 64 + q % n * (g / 64) + x

/-- The source bytes of destination byte o: none for padding, several for a scale on its way out. -/
def WeltCmd.sources (w : WeltCmd) (o : Nat) : List Nat :=
  if !w.matrix then (if o < w.size then [o] else [])
  else if w.toTiles then panelByte w.fmt w.rows (cpRows w.desc) (cpKlen w.desc) w.geom (cpTrans w.desc) o
  else canonByte w.fmt w.rows (cpRows w.desc) (cpKlen w.desc) w.geom o

/-- The source bytes of each byte of destination line j. -/
def WeltCmd.lineSources (w : WeltCmd) (j : Nat) : List (List Nat) :=
  let x := w.extent j
  (List.range (x.2 - x.1)).map fun i => w.sources (x.1 + i)

/-- Line j belongs to the last tile of a matrix operand, whose lines go as one arrival (R259). -/
def WeltCmd.inLast (w : WeltCmd) (j : Nat) : Bool := w.matrix && w.toTiles && j / 32 + 1 == groupTiles w.fmt w.rows

/-- Module, core and first line of the destination tiles. -/
def WeltCmd.tileTarget (w : WeltCmd) (own c : Nat) : Nat × Nat × Nat :=
  let far := fun (a : Word) => (sprModule a, sprCore a, sprOffset a / 128)
  match w.op with
  | 0x20 => if cpRemote w.desc then far w.b else (own, c, w.b.toNat / 128)
  | 0x22 => far w.a
  | _ => (own, c, 32 * followTile w.extra)

/-- The address of destination line j, in the space of the command (R426). -/
def WeltCmd.lineAddr (w : WeltCmd) (j : Nat) : Word :=
  match w.op with
  | 0x20 => w.b + BitVec.ofNat 64 (128 * j)
  | 0x22 => w.a + BitVec.ofNat 64 (128 * j)
  | 0x24 => w.a
  | 0x25 => BitVec.ofNat 64 (4096 * followTile w.extra + 128 * j)
  | _ => BitVec.ofNat 64 ((w.target.toNat / 128 + j) * 128)

end Sys2Proof.Machine
end

