-- ==== Sys2Proof/Machine/Lines.lean ====
section
/-! DEFINITION. The Welt engine at work: lines read and written, arrivals and their resends, failures, the conditional commit,
the follow-on word, and withdrawals by a fabric port (R45, R112, R257 to R261, R403, R411, R412, R426, R427, R447). -/

namespace Sys2Proof.Machine

/-! ## The command in its queue -/

/-- Replace a command of a core. -/
def State.setWelt (s : State) (c : Nat) (w : WeltCmd) : State :=
  s.setCore c { s.core c with welt := (s.core c).welt.map fun x => if x.tok = w.tok then w else x }

/-- A command leaves the queue of its core. -/
def State.dropWelt (s : State) (c tok : Nat) : State :=
  s.setCore c { s.core c with welt := (s.core c).welt.filter fun x => x.tok ≠ tok }

/-- The command that sent an arrival, while it is in its queue. -/
def State.sender (s : State) (a : Arrival) : Option WeltCmd :=
  (s.core a.core).welt.find? fun w => a.cmd == some w.tok

/-- Lines that a command has written: the last tile of a matrix operand takes all its 32 lines in one arrival (R259). -/
def WeltCmd.written (w : WeltCmd) : Nat :=
  w.done.length + if w.done.any w.inLast then 32 * groupTiles w.fmt w.rows - w.units else 0

/-- INFO of a failed command (R427). -/
def weltInfo (w : WeltCmd) (cause reason : Nat) : Word :=
  BitVec.ofNat 64 (cause + 128 + 256 * w.op + 65536 * min w.written 65535 + 2 ^ 32 * reason)

/-- A command fails (R426): it ends with its record, and the strand's Welt slot takes the report. Its lines that have not
landed are not sent again. -/
def State.weltFail (s : State) (c : Nat) (w : WeltCmd) (cause : Nat) (addr : Word) (reason : Nat) : State :=
  let info := weltInfo w cause reason
  let synd := if cause = 4 then FOLLOW else WELTF
  let s1 := { s.dropWelt c w.tok with arrivals := s.arrivals.filter fun a => !(a.core = c && a.cmd == some w.tok) }
  (s1.setCore c ((s1.core c).defer .l 0 ⟨synd, addr, info⟩)).coreRecord c synd 3 true false addr
    (if cause = 4 then BitVec.ofNat 64 (field w.extra 0 32) else info)

/-! ## Withdrawals (R446, R447) -/

/-- A command has a request at another module that is not answered: it fails once the port has withdrawn it (R426, R447). -/
def State.weltUnanswered (s : State) (c : Nat) (w : WeltCmd) (m : Nat) (addr : Word) : State :=
  match w.since with
  | none => s.setWelt c { w with since := some s.now }
  | some t => if s.late t then (s.ldown c m false addr 0).weltFail c w 3 addr 0 else s

/-! ## Reading the bytes of a line (R132, R257, R403) -/

/-- The bytes of a line from a source's bytes by offset: padding is zero, and a scale takes its first block's byte. -/
def lineBytes (l : List (List Nat)) (get : Nat → Byte) : List Byte :=
  l.map fun os => match os with
    | [] => 0
    | o :: _ => get o

/-- Blocks that share a scale differ in it (R109). -/
def mixedScales (l : List (List Nat)) (get : Nat → Byte) : Bool :=
  l.any fun os => match os with
    | [] => false
    | o :: r => r.any fun p => get p != get o

/-- Bytes of a source piece: a granule of a tile, which is seen whole (R132), or a line of global memory (R133). -/
def WeltCmd.grain (w : WeltCmd) : Nat := if w.fromTiles then 16 else 128

/-- The first source address of a command. -/
def WeltCmd.source (w : WeltCmd) : Nat := if w.fromTiles then w.b.toNat else w.a.toNat

/-- The source pieces of destination line j, by number. -/
def WeltCmd.units1 (w : WeltCmd) (j : Nat) : List Nat :=
  ((w.lineSources j).flatten.map fun o => (w.source + o) / w.grain).eraseDups

/-- Key of a piece read for a line. -/
def pieceKey (j u : Nat) : Nat := 2 ^ 64 * j + u

/-- The byte at a source offset, from the pieces read for line j. -/
def WeltCmd.pieceByte (w : WeltCmd) (j o : Nat) : Byte :=
  let a := w.source + o
  ((sget ([], false) w.pieces (pieceKey j (a / w.grain))).1).getD (a % w.grain) 0

/-- A granule of the core's own tiles is read: it waits for presence, and an error found is marked (R132, R257, R403). -/
def State.readGrain (s : State) (c u : Nat) : LineRead :=
  let k := s.core c
  let n := u / 8
  if !(k.tile (n / 32)).present (n % 32) then .wait
  else
    .piece u (sgets 0 k.pad (16 * u) 16) (k.padBad n)
      (s.findLine c n (memInfo 4 1 false 0 128 (plainFault UCE (BitVec.ofNat 64 (128 * n)) s.hub.module)))

/-- The module of a global address of a command. -/
def State.globalModule (s : State) (w : WeltCmd) (a : Word) : Nat := if cpPod w.desc then field a 52 12 else s.hub.module

/-- A step of reading the bytes of destination line j: a piece that has not been read, in any order, and at last the bytes. -/
def State.readUnit (s : State) (c : Nat) (w : WeltCmd) (j : Nat) : LineRead :=
  let l := w.lineSources j
  if !w.fromTiles ∧ s.globalModule w w.a ≠ s.hub.module then .remote (w.a + BitVec.ofNat 64 ((l.flatten).headD 0))
  else
    match (w.units1 j).filter fun u => (slook w.pieces (pieceKey j u)).isNone with
    | [] =>
      .got (lineBytes l (w.pieceByte j)) ((w.units1 j).any fun u => (sget ([], false) w.pieces (pieceKey j u)).2)
        (w.fromTiles && mixedScales l (w.pieceByte j))
    | u :: r =>
      let x := (u :: r).getD (s.free % (r.length + 1)) u
      if w.fromTiles then s.readGrain c x else s.readSource c x (cpPod w.desc) w.a.toNat w.segs

/-- The order of R132 for a command of strand L. -/
def Core.weltMayRead (k : Core) (w : WeltCmd) : Bool := k.mayReadFor .l w.tok

/-! ## Writing a line (R112, R133, R404) -/

/-- The leaf's KV of a byte of a range. -/
def segKv : List Seg → Nat → Bool
  | [], _ => false
  | g :: r, o => if o < g.len then g.kv else segKv r (o - g.len)

/-- Bytes of one line of global memory are written at one point: a whole line clears its mark, and the carried mark is set
(R133, R403, R404). -/
def State.writeLine (s : State) (by' : Nat) (segs : List Seg) (o : Nat) (bytes : List Byte) (poison : Bool) : State :=
  let line := lineOf (segPa segs o)
  let s1 := s.writeAt by' [⟨segPa segs o, bytes.length, segKv segs o⟩] bytes
  let s2 := if bytes.length = 128 then s1.clearMark line else s1
  if poison then s2.setMark line else s2

/-- A line goes on its way to a tile. -/
def State.sendLines (s : State) (c : Nat) (w : WeltCmd) (line : Nat) (bytes : List Byte) (poison : List Bool) : State :=
  let t := w.tileTarget s.hub.module c
  { s with arrivals := s.arrivals ++ [⟨c, some w.tok, t.1, t.2.1, line, bytes, poison, none, false, s.now⟩] }

/-- The last tile of a matrix operand goes as one arrival once its used lines have been read (R259). -/
def State.sendLast (s : State) (c : Nat) (w : WeltCmd) : State :=
  let t := groupTiles w.fmt w.rows - 1
  if w.held.length < w.units - 32 * t then s.setWelt c w
  else
    let ls := (List.range 32).map fun n => (slook w.held (32 * t + n)).getD (List.replicate 128 0, false)
    (s.setWelt c { w with held := [], sent := w.sent ++ w.held.map Prod.fst }).sendLines c w
      ((w.tileTarget s.hub.module c).2.2 + 32 * t) (ls.flatMap Prod.fst) (ls.map Prod.snd)

/-- The bytes of line j have been read. Poisoned bytes do not cross the module boundary (R361). -/
def State.tookUnit (s : State) (c : Nat) (w : WeltCmd) (j : Nat) (bytes : List Byte) (poison : Bool) : State :=
  let w := { w with since := none, pieces := w.pieces.filter fun p => p.1 / 2 ^ 64 ≠ j }
  let t := w.tileTarget s.hub.module c
  if !w.toTiles then s.setWelt c { w with held := sput w.held j (bytes, poison) }
  else if poison = true ∧ t.1 ≠ s.hub.module then s.weltFail c w 3 (w.lineAddr j) 0
  else if w.inLast j then s.sendLast c { w with held := sput w.held j (bytes, poison) }
  else (s.setWelt c { w with sent := w.sent ++ [j] }).sendLines c w (t.2.2 + j) bytes [poison]

/-- A step of reading line j. What another module answers is open here: bytes, a line whose poison keeps it there, or nothing (R361,
log 2). -/
def State.loadUnit (s : State) (c : Nat) (w : WeltCmd) (j : Nat) : State :=
  match s.readUnit c w j with
  | .wait => s
  | .down a => s.weltFail c w 3 a 0
  | .piece u bs bad s1 => (s1.setWelt c { w with pieces := sput w.pieces (pieceKey j u) (bs, bad) }).drew
  | .got bs bad mixed =>
    if mixed then s.weltFail c w 1 (w.lineAddr j) 0 else s.tookUnit c w j bs bad
  | .remote a =>
    let m := field w.a 52 12
    let l := w.lineSources j
    if !s.hub.sends m then s.weltUnanswered c w m a
    else
      let s1 := s.drew
      match s.free % 3 with
      | 0 => (s1.tookUnit c w j (lineBytes l fun o => Config.freeByte (s1.draws + o)) false).spend (l.flatten.foldl max 0 + 1)
      | 1 => s1.weltFail c w 3 a 0
      | _ => s1.weltUnanswered c w m a

/-- Line j has been written to global memory. -/
def WeltCmd.wrote (w : WeltCmd) (j : Nat) : WeltCmd :=
  { w with held := sdel w.held j, done := w.done ++ [j], since := none }

/-- A Welt write allocates or touches its lines: in space 0 as the issuing core's access with the page's class, in pod space at their
home (R98, R101, R114). -/
def State.touchWelt (s : State) (c : Nat) (w : WeltCmd) (gs : List Seg) (a : Word) : State :=
  if cpPod w.desc then s.touchHome 0 gs
  else s.touchAll c gs (s.pageClass (s.core c).asid (s.core c).root a.toNat)

/-- Line j, which has been read, is written to global memory. A matrix operand is written only once all of it has been read,
so that unequal scales stop it before any write (R259, R426). -/
def State.storeUnit (s : State) (c : Nat) (w : WeltCmd) (j : Nat) (bytes : List Byte) (poison : Bool) : State :=
  let o := (w.extent j).1
  let a := w.lineAddr j
  let m := s.globalModule w w.target
  if w.matrix ∧ w.held.length + w.done.length < w.units then s
  else if m = s.hub.module then
    if s.dieDown (homeOf (segPa w.dsegs o)) then s.weltFail c w 3 a 0
    else if s.sealed (lineOf (segPa w.dsegs o)) then s
    else ((s.writeLine c w.dsegs o bytes poison).touchWelt c w [⟨segPa w.dsegs o, bytes.length, false⟩] a).setWelt c (w.wrote j)
  else if poison then s.weltFail c w 3 a 0
  else if s.hub.sends m ∧ s.free % 2 = 0 then (s.setWelt c (w.wrote j)).drew
  else (s.weltUnanswered c w m a).drew

/-- WELT_LINE (R257 to R261): line j of a command is read piece by piece, and then written or sent on its way. -/
def execWeltLine (c : CoreIx) (i : Nat) (j : Nat) (s : State) : Host.Outcome State Fault Refusal :=
  match (s.core c).welt[i]? with
  | none => .next s
  | some w =>
    if w.units ≤ j || w.done.contains j || w.sent.contains j then .next s
    else
      match slook w.held j with
      | some p => .next (if w.toTiles || w.op == 0x24 then s else s.storeUnit c w j p.1 p.2)
      | none => .next (if (s.core c).weltMayRead w then s.loadUnit c w j else s)

/-! ## Arrivals (R45, R112, R411, R412) -/

/-- The i-th arrival is no longer on its way. -/
def State.dropArrival (s : State) (i : Nat) : State := { s with arrivals := s.arrivals.eraseIdx i }

/-- The lines of a command that an arrival carries. -/
def WeltCmd.unitsOf (w : WeltCmd) (base : Nat) (a : Arrival) : List Nat :=
  ((List.range (a.bytes.length / 128)).map fun n => a.line - base + n).filter fun j => j < w.units

/-- What the follow-on word of a command comes to as it would be issued now (R222, R261): CAUSE 4 and a reason, or its mask
pair, none while that pair is being loaded. -/
def Core.followCheck (k : Core) (w : WeltCmd) : Except Nat (Option MaskPair) :=
  let fmt := followFmt w.extra
  let t := followTile w.extra
  let mk := field w.extra 15 3
  if (k.plane (field w.extra 18 1)).issueTag ≠ some fmt then .error 7
  else if (k.firstBad (32 * t) (32 * groupTiles fmt 128)).isSome then .error 0
  else .ok (if k.maskBusy mk then none else some (sget {} k.masks mk))

/-- The follow-on word of a command enters the array queue, if that has room and its group is FULL, with the mask pair that was
taken; it keeps the command's token (R222, R261). -/
def State.enterFollow (s : State) (c : Nat) (w : WeltCmd) (m : MaskPair) : State :=
  let k := s.core c
  let fmt := followFmt w.extra
  let ts := tilesFrom (followTile w.extra) (groupTiles fmt 128)
  if 8 ≤ k.arr.length || !k.allFull ts then s
  else
    let s1 := s.dropWelt c w.tok
    s1.setCore c (((s1.core c).consume ts).enqueue
      { tok := w.tok, follow := some w.k,
        op := .mma fmt (field w.extra 19 2) (field w.extra 18 1) m (field w.extra 14 1 == 1) (.tile (followTile w.extra)) })

/-- The group of a `wcp.mm` is whole: its word is checked, its mask pair is taken and it enters the array queue, at that moment; damage
that the check finds in the group is marked (R261, R403). -/
def State.followNow (s : State) (c : Nat) (w : WeltCmd) : State :=
  if w.op ≠ 0x25 ∨ w.done.length < w.units ∨ w.follow.isSome then s
  else
    let t := followTile w.extra
    let n := groupTiles (followFmt w.extra) 128
    match (s.core c).followCheck w with
    | .error r =>
      (if r = 0 then s.findGroup c (32 * t) (32 * n) (4096 * n) else s).weltFail c w 4 (BitVec.ofNat 64 (4096 * t)) r
    | .ok none => s
    | .ok (some m) => (s.setWelt c { w with follow := some m }).enterFollow c { w with follow := some m } m

/-- An arrival has landed: its command counts the lines. -/
def State.landed (s : State) (i : Nat) (a : Arrival) : State :=
  match s.sender a with
  | some w =>
    let w1 := { w with done := w.done ++ w.unitsOf (w.tileTarget s.hub.module a.core).2.2 a }
    ((s.dropArrival i).setWelt a.core w1).followNow a.core w1
  | none => s.dropArrival i

/-- An arrival is refused at the target's tile count or a core that is not ready (R412): the command fails. -/
def State.refusedFar (s : State) (i : Nat) (a : Arrival) : State :=
  match s.sender a with
  | some w => s.weltFail a.core w 2 (w.lineAddr (a.line - (w.tileTarget s.hub.module a.core).2.2)) 0
  | none => s.dropArrival i

/-- An arrival is refused at a FULL or DRAINING tile (R45). -/
def State.refusedNow (s : State) (i : Nat) (a : Arrival) : State :=
  { s with arrivals := s.arrivals.set i { a with refused := some (a.refused.getD s.now) } }

/-- Lines with their marks. -/
def Arrival.lines (a : Arrival) : List (List Byte × Bool) :=
  (List.range (a.bytes.length / 128)).map fun n => ((a.bytes.drop (128 * n)).take 128, a.poison.getD n false)

/-- An arrival whose target module is absent, or whose own module has no number yet: its command fails with CAUSE 3 (R412, R426). -/
def State.absentFar (s : State) (i : Nat) (a : Arrival) : State :=
  match s.sender a with
  | some w => s.weltFail a.core w 3 (w.lineAddr (a.line - (w.tileTarget s.hub.module a.core).2.2)) 0
  | none => s.dropArrival i

/-- An arrival that goes by its module number finds no such module (R412). -/
def State.arrivesNowhere (s : State) (a : Arrival) : Bool :=
  s.hub.absent a.module || (!s.hub.valid && (s.sender a).any fun w => cpRemote w.desc)

/-- An arrival reaches its target (R45, R112, R412). What another module answers is open here (log 2). -/
def State.arriveAt (s : State) (i : Nat) (resend : Bool) : State :=
  match s.arrivals[i]? with
  | none => s
  | some a =>
    if a.refused.isSome ≠ resend then s
    else if s.arrivesNowhere a then s.absentFar i a
    else if a.module ≠ s.hub.module then
      if !s.hub.sends a.module then s
      else
        match s.free % 3 with
        | 0 => (s.landed i a).drew
        | 1 => (s.refusedNow i a).drew
        | _ => (s.refusedFar i a).drew
    else if s.dieDown (dieOf a.target) then s
    else if !s.isReady (coreUnit a.target) || (s.core a.target).tileCount ≤ a.line / 32 then s.refusedFar i a
    else
      match (s.core a.target).arrive a.line a.lines with
      | some k => (s.setCore a.target k).landed i a
      | none => s.refusedNow i a

/-- ARRIVAL (R111, R112). -/
def execArrival (i : Nat) (s : State) : Host.Outcome State Fault Refusal := .next (s.arriveAt i false)

/-- ARRIVAL_RETRY (R45). -/
def execArrivalRetry (i : Nat) (s : State) : Host.Outcome State Fault Refusal := .next (s.arriveAt i true)

/-- ARRIVAL_WAIT_RECORD (R411): once for an arrival refused for 1 ms. -/
def execArrivalWaitRecord (i : Nat) (s : State) : Host.Outcome State Fault Refusal :=
  match s.arrivals[i]? with
  | some a =>
    match a.refused, s.sender a with
    | some t, some w =>
      if a.logged ∨ s.now < t + 1000000 then .next s
      else
        .next ({ s with arrivals := s.arrivals.set i { a with logged := true } }.coreRecord a.core ARRWAIT 1 false false
          (sprAddr a.module a.target (128 * a.line)) (if w.k = noCounter then 0 else w.k))
    | _, _ => .next s
  | none => .next s

/-! ## Ends (R129, R257, R260, R261) -/

/-- WELT_COMMAND_COMPLETE (R257): every line is written, and the counter takes 1. A copy of no bytes is ordered like one of a byte
(R106, R132). -/
def execWeltCommandComplete (c : CoreIx) (i : Nat) (s : State) : Host.Outcome State Fault Refusal :=
  match (s.core c).welt[i]? with
  | some w =>
    if w.op = 0x24 ∨ w.op = 0x25 ∨ w.done.length < w.units ∨ (s.core c).weltMayRead w = false then .next s
    else .next ((s.dropWelt c w.tok).sendAdd (.welt c) w.k 1)
  | none => .next s

/-- The compare, the writes and the new version at one point (R260): the value of the counter add, and the state after. -/
def State.commit (s : State) (w : WeltCmd) : Nat × State :=
  let s1 := s.mergeLine (lineOf (segPa w.dsegs 0))
  if ofBytes ((List.range 8).map fun i => s1.byte (segPa w.dsegs i)) = w.extra.toNat then
    let n := cpLen w.desc
    let s2 := (List.range w.units).foldl (fun s j =>
      match slook w.held j with
      | some p => s.writeLine 0 (homed w.dsegs) (128 + 128 * j) (p.1.take (n - 128 * j)) p.2
      | none => s) s1
    (1, (s2.writeLine 0 (homed w.dsegs) 0 (bytesOf 8 (w.extra + 1).toNat) false).touchHome 0 (homed w.dsegs))
  else (2 ^ 32, s1)

/-- CONDITIONAL_COPY_COMMIT (R133, R260). -/
def execConditionalCopyCommit (c : CoreIx) (i : Nat) (s : State) : Host.Outcome State Fault Refusal :=
  match (s.core c).welt[i]? with
  | some w =>
    let m := s.globalModule w w.a
    if w.op ≠ 0x24 ∨ w.held.length < w.units ∨ (s.core c).weltMayRead w = false then .next s
    else if m = s.hub.module then
      if s.dieDown (homeOf (segPa w.dsegs 0)) then .next (s.weltFail c w 3 w.a 0)
      else if s.sealed (lineOf (segPa w.dsegs 0)) then .next s
      else
        let r := s.commit w
        .next ((r.2.dropWelt c w.tok).sendAdd (.welt c) w.k r.1)
    else if w.held.any fun p => p.2.2 then .next (s.weltFail c w 3 w.a 0)
    else if !s.hub.sends m then .next (s.weltUnanswered c w m w.a)
    else
      match s.free % 3 with
      | 0 => .next ((s.dropWelt c w.tok).sendAdd (.welt c) w.k 1).drew
      | 1 => .next ((s.dropWelt c w.tok).sendAdd (.welt c) w.k (2 ^ 32)).drew
      | _ => .next (s.weltUnanswered c w m w.a).drew
  | none => .next s

/-- FOLLOW_ON_ENTRY (R222, R261): a follow-on word that waits in the engine, for its mask pair, room or its group, enters the
array queue. -/
def execFollowOnEntry (c : CoreIx) (i : Nat) (s : State) : Host.Outcome State Fault Refusal :=
  match (s.core c).welt[i]? with
  | some w =>
    .next (match w.follow with
      | none => s.followNow c w
      | some m => s.enterFollow c w m)
  | none => .next s

/-! ## Requests that a fabric port withdraws (R66, R447) -/

/-- An access to another module, or to a fenced die or counter of this one, is withdrawn; one to an absent module fails instead (R402,
R412), but for a load of a counter. -/
def State.withdrawAccess (s : State) (c : Nat) (m : MemOp) : State :=
  let f := plainFault LDOWN m.addr m.module
  let info := fun defer => memInfo m.accNeed.1 m.space defer 0 m.len f
  let gone := (m.module ≠ s.hub.module ∧ (m.space = 3 ∨ !s.hub.absent m.module)) ∨
    (m.space = 2 ∧ m.module = s.hub.module ∧ s.dieDown (dieOf (sprCore m.addr))) ∨ (m.space = 3 ∧ s.counterDown m.addr)
  if ¬ gone ∨ m.space < 2 ∨ !s.late m.sent ∨ !s.mayPerform c m then s
  else if m.posted then
    (s.act1 c m (if m.orphan then s.core c else (s.core c).defer m.strand 1 ⟨LDOWN, m.addr, info true⟩)).ldown c m.module false
      m.addr (info true)
  else if (s.core c).retires m then
    (s.ldown c m.module true m.addr (info false)).faultAt c m LDOWN m.addr (info false) none
  else s

/-- A strand's `cwait` or `bar` ends with the trap LDOWN, and with the record of a withdrawn request (R66, R447). -/
def State.trapDown (s : State) (c : Nat) (k : StrandId) (h : Word) (pc : Nat) (ls : List LoopLevel) : State :=
  let s1 := s.ldown c (hModule h) true h (counterInfo h)
  let t := (s1.core c).strand k
  (s1.setCore c ((s1.core c).setStrand k { t with pc := pc, loops := ls, block := .none })).trapWith c k LDOWN h (counterInfo h) none
    pc false (sget 0 (s1.core c).imem pc)

/-- A counter add to another module, or to a fenced unit of this one, is withdrawn: an engine's, with a record of its unit (R447). -/
def State.withdrawAdd (s : State) (i : Nat) (a : Add) : State :=
  let m := hModule a.handle
  if (m = s.hub.module ∧ s.counterDown a.handle = false) ∨ !s.late a.sent then s
  else
    let s1 := { s with adds := s.adds.eraseIdx i }
    match a.src with
    | none =>
      let p := a.sender.place
      if s.silent p.1 p.2.1 p.2.2 then s1
      else s1.record p.1 p.1 p.2.1 p.2.2 LDOWN 3 (s.unreachable m) false a.handle a.handle
    | some (c, k, t) =>
      let info := memInfo 1 3 true 0 8 (plainFault LDOWN a.handle m)
      let s2 := s1.ldown c m false a.handle info
      match a.bar, ((s.core c).strand k).block with
      | some _, .barrier h _ tok pc ls => if tok = t then s1.trapDown c k h pc ls else s2
      | some _, _ => s2
      | none, _ => s2.setCore c ((s2.core c).defer k 1 ⟨LDOWN, a.handle, info⟩)

/-- A registered remote wait ends when the counter's module is fenced or unreachable (R66); whether another module is fenced
is open here (log 2). -/
def State.withdrawWait (s : State) (c : Nat) (k : StrandId) : State :=
  match ((s.core c).strand k).block with
  | .remote h _ _ pc ls =>
    if s.unreachable (hModule h) || s.free / 2 % 2 == 1 then
      (s.trapDown c k h pc ls).drew
    else s.drew
  | _ => s

/-- A line on its way to another module that the pod has, or to a fenced die, is withdrawn, also one that was refused before: its
command fails (R412, R426). -/
def State.withdrawLine (s : State) (c i : Nat) (a : Arrival) : State :=
  let gone := if a.module = s.hub.module then s.dieDown (dieOf a.target) else !s.hub.absent a.module
  if a.core ≠ c ∨ gone = false ∨ !s.late a.sent then s
  else
    let addr := sprAddr a.module a.target (128 * a.line)
    let s1 := s.ldown c a.module false addr 0
    match s.sender a with
    | some w => s1.weltFail c w 3 addr 0
    | none => s1.dropArrival i

/-- FABRIC_REQUEST_WITHDRAWAL (R447). -/
def execFabricRequestWithdrawal (c : CoreIx) (r : FabricRequest) (s : State) : Host.Outcome State Fault Refusal :=
  match r with
  | .access i =>
    match (s.core c).mops[i]? with
    | some m => .next (s.withdrawAccess c m)
    | none => .next s
  | .wait k => .next (s.withdrawWait c k)
  | .add i =>
    match s.adds[i]? with
    | some a => .next (s.withdrawAdd i a)
    | none => .next s
  | .line i =>
    match s.arrivals[i]? with
    | some a => .next (s.withdrawLine c i a)
    | none => .next s

end Sys2Proof.Machine
end

