-- ==== Sys2Proof/Machine/Coll.lean ====
section
/-! DEFINITION. Collectives: the word, the comparison of the members and the ordered reduction or exchange (R140, R263, R264,
R339, R340, R434). -/

namespace Sys2Proof.Machine

/-! ## The collective descriptor (R263) -/

/-- OP of a collective descriptor: 0 all-reduce, 1 all-gather, 2 reduce-scatter, 3 broadcast. -/
def clOp (d : Word) : Nat := field d 0 3
/-- RED. -/
def clRed (d : Word) : RedOp :=
  match field d 3 2 with
  | 0 => .add
  | 1 => .max
  | _ => .min
/-- TYPE is F32. -/
def clF32 (d : Word) : Bool := bitOf d.toNat 5
/-- ROOT. -/
def clRoot (d : Word) : Nat := field d 10 12
/-- LEN. -/
def clLen (d : Word) : Nat := field d 22 26
/-- The operation reduces. -/
def clReduces (d : Word) : Bool := clOp d == 0 || clOp d == 2
/-- Slices of the buffer among n members (R264). -/
def clSlices (d : Word) (n : Nat) : Nat := if clOp d = 1 ∨ clOp d = 2 then n else 1

/-- The offences of a collective descriptor among n members (R263, R264, R390), against the xc field. On an undefined group n is taken
as its entry's COUNT (DESIGN CHOICE, log 88). -/
def collOffences (d : Word) (n : Nat) : List Offence :=
  valAt (3 < clOp d) 6 0 1 ++
  valAt (field d 3 2 = 3) 6 3 1 ++ valAt (1 < field d 5 2) 6 5 1 ++
  (if clReduces d then [] else valAt (field d 3 2 ≠ 0) 6 3 2 ++ valAt (field d 5 2 ≠ 0) 6 5 2) ++
  valAt (field d 7 3 ≠ 0) 6 7 2 ++
  (if clOp d = 3 then valAt (n ≤ clRoot d) 6 10 3 else valAt (clRoot d ≠ 0) 6 10 2) ++
  valAt (clLen d = 0 ∨ clLen d % 128 ≠ 0) 6 22 3 ++
  valAt (field d 48 16 ≠ 0) 6 48 2

/-! ## The group table (R339) -/

/-- COUNT of a group. -/
def Hub.groupCount (h : Hub) (g : Nat) : Nat := field (sget 0 h.gdef g) 0 13
/-- The group is defined: VALID, and COUNT within its range. -/
def Hub.groupDefined (h : Hub) (g : Nat) : Bool :=
  bitOf (sget 0 h.gdef g).toNat 13 && 1 ≤ h.groupCount g && h.groupCount g ≤ 4096

/-- The members' list of a group, read as a control block in the graph engine's address space (R134, R339). -/
def State.groupBlock (s : State) (g : Nat) : BlockRead :=
  s.readBlock 6 s.hub.graph.asid s.hub.graph.root (field (sget 0 s.hub.glist g) 0 57) (2 * s.hub.groupCount g) PR

/-- Module numbers of a list, in rank order. -/
def memberList (b : List Byte) : List Nat := (List.range (b.length / 2)).map fun i => num b (2 * i) 2

/-- The rank of this module. -/
def Coll.rank (c : Coll) (own : Nat) : Nat := c.members.idxOf own

/-- The collective engines of this module, one for each plane. -/
def collUnits : List UnitId := [.coll 0, .coll 1]

/-- A collective is under way; strand L's next word waits while it is beyond the 16 in flight (R340). -/
def State.beginColl (s : State) (w : Coll) : State :=
  ({ s with colls := s.colls ++ [w] }).hold (.collective w.tok)

/-- COLL (R263, R264): a broken group's collective completes at once with 2^32 (R434). A fault of its buffer has ACC 1 and NEED PR and
PW, for which R396 names no code (DESIGN CHOICE, log 88). -/
def execColl (h : Hdr) (a b c k : Fin 32) (s : State) : Host.Outcome State Fault Refusal :=
  s.issueOn .l h fun s =>
    let tok := s.tok
    let va := s.rx a
    let g := field (s.rx b) 0 8
    let d := s.rx c
    let n := s.hub.groupCount g
    let ok := s.hub.groupDefined g
    let r := if ok then s.groupBlock g else ⟨none, id, []⟩
    let ms := memberList r.bytes
    let len := clSlices d n * clLen d
    let f := s.rangeFault false PRW va.toNat len
    let w : Coll :=
      { core := s.cur.core, tok := tok, group := g, desc := d, k := s.counterReg k,
        segs := s.rangeSegs false PRW va.toNat len, members := ms, compared := false, since := s.now }
    { accs := [rdx a 16, rdx b 11, rdx c 6, rdx k 1]
      bits := wordFaults (.coll h a b c k)
      checks := s.optHandle k 1 ++ collOffences d n ++
        val (field (s.rx b) 8 56 ≠ 0) 11 2 ++ forbid (¬ ok ∨ (r.ok ∧ !ms.contains s.hub.module)) 11 ++
        val (va.toNat % 128 ≠ 0) 16 5 ++ val (f.any fun x => x.synd = PERM) 16 3
      notReady := collUnits.find? fun u => !s.isReady u
      fault := r.fault <|> f.map fun x => ⟨x.synd, x.addr, memInfo 1 0 false PRW len x, some x.addr, none⟩
      found := r.found
      go := fun s =>
        if s.hub.broken.contains g then s.sendAdd .collective w.k (2 ^ 32) else s.beginColl w }

/-! ## Comparison (R434) -/

/-- The i-th collective, one of the 16 in flight and the oldest of its group: a group's collectives complete in issue order
(R263, R340). -/
def State.oldestColl (s : State) (i : Nat) : Option Coll :=
  match s.colls[i]? with
  | some c => if 16 ≤ i ∨ ((s.colls.take i).any fun x => x.group == c.group) then none else some c
  | none => none

/-- Every other member can be reached. -/
def State.allReached (s : State) (c : Coll) : Bool := c.members.all fun m => m == s.hub.module || s.hub.sends m

/-- A group is broken: its collectives in flight end with 2^32. -/
def State.breakGroup (s : State) (g : Nat) : State :=
  let t : State :=
    { s with
      colls := s.colls.filter fun (x : Coll) => x.group ≠ g
      hub := { s.hub with broken := s.hub.broken.filter (· ≠ g) ++ [g] } }
  (s.colls.filter fun (x : Coll) => x.group = g).foldl (fun t x => t.sendAdd .collective x.k (2 ^ 32)) t

/-- A message of a collective that is not answered for 100 µs is withdrawn, with a record of the collective engines (R447). -/
def State.collDown (s : State) (c : Coll) : State :=
  s.record 16 16 19 0 LDOWN 3 (c.members.any s.hub.noRoute) false 0 0

/-- The accesses to the buffer that strand L's issue releases have been performed: those in spaces 0 and 4 (R140). -/
def State.collReleased (s : State) (c : Coll) : Bool :=
  ((s.core c.core).older .l c.tok).all fun m => m.space != 0 && m.space != 4

/-- COLLECTIVE_COMPARE (R140, R434): the members agree, or the collective is mismatched: they differ, or a member is fenced, absent or
not reached in time. -/
def execCollectiveCompare (i : Nat) (m : Bool) (s : State) : Host.Outcome State Fault Refusal :=
  match s.oldestColl i with
  | some c =>
    if c.compared ∨ s.collReleased c = false then .next s
    else if m then
      .next (if s.allReached c then { s with colls := s.colls.set i { c with compared := true, since := s.now } } else s)
    else if c.members.length ≤ 1 then .next s
    else
      let broken := fun (t : State) => .next ((t.breakGroup c.group).record 16 16 19 0 COLLF 3 true false 0 (BitVec.ofNat 64 c.group))
      if s.allReached c || c.members.any s.hub.absent then broken s
      else if s.late c.since then broken (s.collDown c) else .next s
  | none => .next s

/-! ## Results (R264) -/

/-- Offset and length of what rank q contributes to the result on rank r. -/
def Coll.part (c : Coll) (q r : Nat) : Nat × Nat :=
  let n := clLen c.desc
  match clOp c.desc with
  | 1 => (q * n, n)
  | 2 => (r * n, n)
  | _ => (0, n)

/-- Bytes of rank q's contribution that this member's result needs: none where it is not asked. -/
def Coll.asks (c : Coll) (q r : Nat) : Nat :=
  if q = r then 0 else if clOp c.desc = 3 ∧ q ≠ clRoot c.desc then 0 else clLen c.desc

/-- Bytes of the buffer at its homes (R136). -/
def State.collBytes (s : State) (c : Coll) (o n : Nat) : List Byte := (List.range n).map fun i => s.homeByte (segPa c.segs (o + i))

/-- The lines of a part of the buffer. -/
def Coll.lines (c : Coll) (o n : Nat) : List Nat := (List.range (n / 128)).map fun i => segPa c.segs (o + 128 * i)

/-- The contribution of rank q: this module's buffer, or what the member sent. -/
def State.contribution (s : State) (c : Coll) (r : Nat) (others : List (Nat × List Byte)) (q : Nat) : List Byte :=
  if q = r then s.collBytes c (c.part q r).1 (c.part q r).2 else sget [] others q

/-- 32-bit elements of bytes. -/
def elemsOf (b : List Byte) : List W32 := (List.range (b.length / 4)).map fun i => BitVec.ofNat 32 (num b (4 * i) 4)

/-- The reduction in ascending rank order (R264). -/
def reduceRanks (op : RedOp) (f32 : Bool) : List (List W32) → List W32
  | [] => []
  | x :: r => r.foldl (fun acc y => acc.zipWith (absorbOp op f32) y) x

/-- The slices that the collective writes on rank r: offset and bytes. -/
def State.collResult (s : State) (c : Coll) (r : Nat) (others : List (Nat × List Byte)) : List (Nat × List Byte) :=
  let ranks := List.range c.members.length
  match clOp c.desc with
  | 1 => (ranks.filter (· ≠ r)).map fun q => (q * clLen c.desc, s.contribution c r others q)
  | 3 => if r = clRoot c.desc then [] else [(0, s.contribution c r others (clRoot c.desc))]
  | _ =>
    [((c.part r r).1, (reduceRanks (clRed c.desc) (clF32 c.desc)
      (ranks.map fun q => elemsOf (s.contribution c r others q))).flatMap fun v => bytesOf 4 v.toNat)]

/-- Offset and length of what rank r reads of its own buffer. -/
def Coll.reads (c : Coll) (r : Nat) : Nat × Nat :=
  match clOp c.desc with
  | 1 => (r * clLen c.desc, clLen c.desc)
  | 3 => (0, if r = clRoot c.desc then clLen c.desc else 0)
  | _ => (0, clSlices c.desc c.members.length * clLen c.desc)

/-- Element e of a slice is written at its home: a whole slice's lines lose their marks, but for a line whose own bytes are the
result (R137, R361, R404). -/
def State.collWrite (s : State) (c : Coll) (own : List Nat) (o : Nat) (bytes : List Byte) : State :=
  (List.range (bytes.length / 128)).foldl (fun s i =>
    let line := segPa c.segs (o + 128 * i)
    let t := s.homeWrite line ((bytes.drop (128 * i)).take 128)
    if own.contains line then t else t.clearMark line) s

/-- After a failure, some elements hold the result and others their old value (R434), by free choice (log 2). -/
def State.collMixed (s : State) (c : Coll) (o : Nat) (bytes : List Byte) : State :=
  ((List.range (bytes.length / 4)).foldl (fun t i =>
    if Config.freeNat (s.draws + i) % 2 = 0 then t
    else t.homeWrite (segPa c.segs (o + 4 * i)) ((bytes.drop (4 * i)).take 4)) s).spend (bytes.length / 4)

/-- The members sent what the result needs. -/
def Coll.supplied (c : Coll) (r : Nat) (others : List (Nat × List Byte)) : Bool :=
  (List.range c.members.length).all fun q => (sget [] others q).length == c.asks q r

/-- A line that this member would send is poisoned, so that it does not cross the module boundary (R361). -/
def State.collPoisoned (s : State) (c : Coll) (own : List Nat) : Bool :=
  c.members.length ≠ 1 && own.any fun l => s.poison.contains l

/-- COLLECTIVE_COMPLETE (R140, R264, R434, R447): the group's oldest collective ends, after reduce state has merged (R117) and the
damaged lines that it reads have been marked (R361, R403). -/
def execCollectiveComplete (i : Nat) (failed : Bool) (others : List (Nat × List Byte)) (s : State) :
    Host.Outcome State Fault Refusal :=
  match s.oldestColl i with
  | some c =>
    let r := c.rank s.hub.module
    let own := c.lines (c.reads r).1 (c.reads r).2
    let s1 := own.foldl (fun s l => s.markDamaged l 0)
      (s.mergeLines (c.lines 0 (clSlices c.desc c.members.length * clLen c.desc)))
    let s2 := { s1 with colls := s1.colls.eraseIdx i }
    if !c.compared then .next s
    else if failed then
      if c.members.length ≤ 1 ∨ !s.late c.since then .next s else
      .next (((if c.supplied r others then
        (s1.collResult c r others).foldl (fun s p => s.collMixed c p.1 p.2) s2 else s2).collDown c).sendAdd .collective c.k (2 ^ 32))
    else if s1.collPoisoned c own || !c.supplied r others then .next s
    else .next (((s1.collResult c r others).foldl (fun s p => s.collWrite c own p.1 p.2) s2).sendAdd .collective c.k 1)
  | none => .next s

end Sys2Proof.Machine
end

