-- ==== Sys2Proof/Machine/Ctx.lean ====
section
/-! DEFINITION. Context commands at the issuing side: the record and the block, the checks, the sequence take and the delivery
(R265 to R270, R273, R327, R372, R384). -/

namespace Sys2Proof.Machine

/-! ## The context record (R265) -/

/-- The KV set of a record. -/
def recSet (b : List Byte) : List Nat := (List.range (min (num b 5 1) 12)).map fun i => num b (0x20 + i) 1

/-- The lineage of a record. -/
def recLin (b : List Byte) : Lineage := lineageAt b 0x10 (num b 4 1)

/-- A die number that a set may name (R8, R265). -/
def tdieOk (expanders : List Nat) (n : Nat) : Bool := (8 ≤ n && n ≤ 15) || (18 ≤ n && n ≤ 21 && expanders.contains n)

/-- The offences of a record's contents for an L opcode (R265, R270). SEQ = 2^48 − 1 and a FORK at DEPTH 16 have no REASON of their
own in the spec: REASON 3 here (DESIGN CHOICE, log 80). -/
def recordOffences (expanders : List Nat) (op : Nat) (b : List Byte) : List Offence :=
  let set := recSet b
  blk (num b 3 1 ≠ 0) 16 3 ++ blk (16 < num b 4 1) 16 4 ++ valAt (op = 0x2A ∧ num b 4 1 = 16) 16 4 3 ++
  blk (num b 5 1 = 0 ∨ 12 < num b 5 1) 16 5 ++ blk (nonZero b 6 2) 16 6 ++
  valAt (num b 8 6 = 2 ^ 48 - 1) 16 8 3 ++ blk (nonZero b 14 2) 16 14 ++
  levelOffences b 0x10 (min (num b 4 1) 16) 16 ++
  ((List.range set.length).flatMap fun i =>
    let n := set.getD i 0
    blk (!tdieOk expanders n ∨ (set.take i).contains n) 16 (0x20 + i)) ++
  ((List.range 12).flatMap fun i => blk (set.length ≤ i ∧ nonZero b (0x20 + i) 1) 16 (0x20 + i)) ++
  blk (nonZero b 0x2C 84) 16 0x2C

/-! ## The command block (R267) -/

/-- The fields of a command block by offset and length, and the L opcodes that use them. -/
def blockFields : List (Nat × Nat × List Nat) :=
  [(0, 2, [0x28, 0x29, 0x2C]), (2, 2, [0x28, 0x29, 0x2C]), (4, 2, [0x28, 0x29]), (6, 1, [0x28, 0x29]), (7, 1, [0x29]),
   (8, 4, [0x28, 0x29, 0x2C]), (0x0C, 4, [0x29, 0x2A, 0x2C]), (0x10, 8, [0x29, 0x2A]), (0x18, 16, [0x2B, 0x2D]),
   (0x28, 1, [0x2B, 0x2D]), (0x29, 3, []), (0x2C, 4, [0x2A]), (0x30, 16, [])]

/-- The offences of a block's contents for an L opcode (R267, R384). -/
def ctxBlockOffences (op : Nat) (b : List Byte) : List Offence :=
  (blockFields.flatMap fun f => blk (!f.2.2.contains op ∧ nonZero b f.1 f.2.1) 11 f.1) ++
  match op with
  | 0x28 =>
    blk (cbHdim b < 16 ∨ 256 < cbHdim b ∨ cbHdim b % 16 ≠ 0) 11 4 ++ blk (cbHeads b = 0 ∨ 8 < cbHeads b) 11 6 ++
    blk (cbCount b = 0 ∨ 4096 < cbCount b) 11 8
  | 0x29 =>
    blk (cbHdim b < 16 ∨ 256 < cbHdim b ∨ cbHdim b % 16 ≠ 0) 11 4 ++ blk (cbHeads b = 0 ∨ 8 < cbHeads b) 11 6 ++
    blk (1 < num b 7 1) 11 7 ++ blk (cbCount b = 0 ∨ 64 < cbCount b) 11 8
  | 0x2A =>
    blk (nonZero b 0x0D 3) 11 0x0D ++ valAt (num b 0x10 8 % 128 ≠ 0) 11 0x10 5 ++ blk (nonZero b 0x2F 1) 11 0x2F
  | 0x2C => blk (1 < num b 0x0C 4) 11 0x0C
  | 0x2B => blk (num b 0x28 1 = 0 ∨ 16 < num b 0x28 1) 11 0x28
  | _ => blk (15 < num b 0x28 1) 11 0x28 ++ levelOffences b 0x18 (min (num b 0x28 1) 16) 11

/-- The lineage that a CANCEL or a RELABEL names. -/
def cbLin (b : List Byte) : Lineage := lineageAt b 0x18 (num b 0x28 1)

/-- Tiles of a QUERY result (R269). -/
def resultTiles (b : List Byte) : Nat := (cbCount b * (4 * cbHdim b + 8) + 4095) / 4096

/-- The offences of an APPEND's or a QUERY's place in the scratchpad (R268, R270); a block that is at fault gives no length. -/
def Core.ctxPadOffences (c : Core) (op : Nat) (xc : Word) (b : Option (List Byte)) : List Offence :=
  match op, b with
  | 0x28, none => c.padOffences xc 128 0 6
  | 0x28, some b => c.padOffences xc 128 (ctxSource op xc b).2 6
  | 0x29, none => c.padOffences xc 4096 0 6
  | 0x29, some b =>
    c.padOffences xc 4096 (4096 * resultTiles b) 6 ++
    valAt (c.padSize < (ctxSource op xc b).1 + (ctxSource op xc b).2) 11 0x10 6
  | _, _ => []

/-! ## Checks and the take (R266, R270) -/

/-- What the checks of a context command find. -/
structure CtxSide where
  checks : List Offence
  notReady : Option UnitId
  fault : Option TrapInfo
  found : State → State
  record : List Byte
  block : List Byte
  child : List Seg

/-- The context command unit of a T-die. -/
def ccuUnit (n : Nat) : UnitId := .ccu (Fin.ofNat 22 n)

/-- The functions that a command needs ready: the units of its whole set (R369, R449), and its Cinch for a QUERY. -/
def ctxUnits (op c : Nat) (set : List Nat) : List UnitId :=
  if op = 0x2B then []
  else set.map ccuUnit ++ if op = 0x29 then [.cinch (Fin.ofNat 8 (dieOf c))] else []

/-- A record is the child of a FORK that is not complete, or has its context number: no command may be issued on it yet (R268). -/
def State.childBusy (s : State) (asid root : Nat) (recVa : Word) (b : List Byte) : Bool :=
  let pa := segPa (s.segs asid root recVa.toNat 128) 0
  s.cmds.any fun k => k.op == 0x2A && !k.noAdd && (segPa k.child 0 == pa || num k.block 0x2C 3 == num b 0 3)

/-- The checks of a context command of core `c` in an address space. A command on the child of a FORK under way, and a QUERY whose result
tiles hold the source lines of an APPEND, break a must that names no outcome: an illegal operand use (R4, R268, R277; log 72). -/
def State.ctxSide (s : State) (c asid root op : Nat) (recVa blkVa xc : Word) : CtxSide :=
  let ra := recVa.toNat % 128 = 0
  let ba := blkVa.toNat % 64 = 0
  let r := s.readBlock 6 asid root recVa.toNat 128 PATOM
  let b := s.readBlock 6 asid root blkVa.toNat 64 PR
  let ro := if ra ∧ r.ok then recordOffences s.hub.expanders op r.bytes else []
  let bo := if ba ∧ b.ok then ctxBlockOffences op b.bytes else []
  let good := decide ba && b.ok && bo.isEmpty
  let ch := num b.bytes 0x10 8
  let f := if op = 0x2A ∧ good = true then s.checkRange asid root PATOM ch 128 else none
  { checks := (s.core c).ctxPadOffences op xc (if good then some b.bytes else none) ++
      (if op = 0x29 ∧ good = true then s.sourceOffence c xc.toNat (4096 * resultTiles b.bytes) 6 else []) ++
      forbid (ra ∧ s.childBusy asid root recVa r.bytes = true) 16 ++
      val (¬ ba) 11 5 ++ bo ++
      valAt (op = 0x2A ∧ good = true ∧ meets ch 128 recVa.toNat 128 = true) 11 0x10 12 ++
      val (¬ ra) 16 5 ++ ro
    notReady := (ctxUnits op c (recSet r.bytes)).find? fun u => !s.isReady u
    fault := r.fault <|> b.fault <|> f.map fun x => ⟨x.synd, x.addr, memInfo 6 0 false PATOM 128 x, some x.addr, none⟩
    found := fun t => b.found (r.found t)
    record := r.bytes
    block := b.bytes
    child := if op = 0x2A ∧ good = true then s.segs asid root ch 128 else [] }

/-- The T-dies that a command is delivered to: its set, or for a CANCEL every one whose unit is ready (R268, R270). -/
def State.ctxDies (s : State) (op : Nat) (set : List Nat) : List Nat :=
  if op = 0x2B then
    ((List.range 22).filter fun n => tdieOk s.hub.expanders n && s.isReady (ccuUnit n))
  else set

/-- The sequence take of a record, one atomic at its home, and the command on its way (R138, R266, R268): RELABEL also writes its
lineage and depth. -/
def State.ctxTake (s : State) (c asid root tok op : Nat) (recVa blkVa xc k : Word) (x : CtxSide) : State :=
  let seq := num x.record 8 6
  let set := recSet x.record
  let gs := s.segs asid root recVa.toNat 128
  let part := fun (o n : Nat) => [(⟨segPa gs o, n, true⟩ : Seg)]
  let s1 := (s.settleVa asid root recVa.toNat 128).writeAt c (part 8 6) (bytesOf 6 (seq + 1))
  let s2 := if op = 0x2D then
      (s1.writeAt c (part 4 1) ((x.block.drop 0x28).take 1)).writeAt c (part 0x10 16) ((x.block.drop 0x18).take 16)
    else s1
  let dies := s.ctxDies op set
  let kdies := if op = 0x2B then List.range 8 else []
  let m : CtxCmd :=
    { id := s.nextCmd, core := c, tok := tok, op := op, ctx := num x.record 0 3, seq := seq, set := set, lin := recLin x.record,
      recVa := recVa, blockVa := blkVa, block := x.block, xc := xc, k := k, child := x.child, pending := dies, kpending := kdies }
  { s2.touchHome (s.pageClass asid root recVa.toNat) gs with
    cmds := s2.cmds ++ [m]
    nextCmd := s2.nextCmd + 1
    ctxMsgs := s2.ctxMsgs ++ (kdies ++ dies).map fun n => ⟨m.id, n, false⟩ }

/-- The sequence take follows what an atomic follows: every earlier access of its strand that may fault, that is an acquire or a held
store, or that is ordinary, and the accesses that a bundle puts before it (R119 to R126, R135, R266). -/
def State.takeWaits (s : State) : List Wait :=
  let c := s.here
  s.storesWait ++ if c.mops.any fun m => m.strand == .l && (m.acquires || c.heldStore m || !m.safe || !(m.fabric || m.posted))
    then [.other] else []

/-- The plan of a context command; `c` is none where the form has no xc. -/
def State.ctxPlan (s : State) (i : Instr) (op : Nat) (a b : Fin 32) (c : Option (Fin 32)) (k : Fin 32) : Plan :=
  let tok := s.tok
  let core := s.cur.core
  let h := s.here
  let xc := match c with
    | some r => s.rx r
    | none => 0
  let ra := s.rx a
  let rb := s.rx b
  let kh := s.counterReg k
  let x := s.ctxSide core h.asid h.root op ra rb xc
  { accs := [rdx a 16, rdx b 11] ++ (c.toList.map fun (r : Fin 32) => rdx r.val 6) ++ [rdx k 1]
    bits := wordFaults i
    waits := s.takeWaits
    checks := s.optHandle k 1 ++ x.checks
    notReady := x.notReady
    fault := x.fault
    found := x.found
    go := fun s => s.ctxTake core h.asid h.root tok op ra rb xc kh x }

/-- KVAPP (R266 to R270, R277). -/
def execKvapp (h : Hdr) (a b c k : Fin 32) (s : State) : Host.Outcome State Fault Refusal :=
  s.issueOn .l h fun s => s.ctxPlan (.kvapp h a b c k) 0x28 a b (some c) k

/-- KVQRY (R266 to R270, R278). -/
def execKvqry (h : Hdr) (a b c k : Fin 32) (s : State) : Host.Outcome State Fault Refusal :=
  s.issueOn .l h fun s => s.ctxPlan (.kvqry h a b c k) 0x29 a b (some c) k

/-- KVFORK (R266 to R270, R286). -/
def execKvfork (h : Hdr) (a b k : Fin 32) (s : State) : Host.Outcome State Fault Refusal :=
  s.issueOn .l h fun s => s.ctxPlan (.kvfork h a b k) 0x2A a b none k

/-- KVCAN (R266 to R270, R288). -/
def execKvcan (h : Hdr) (a b k : Fin 32) (s : State) : Host.Outcome State Fault Refusal :=
  s.issueOn .l h fun s => s.ctxPlan (.kvcan h a b k) 0x2B a b none k

/-- KVMIG (R266 to R270, R292). -/
def execKvmig (h : Hdr) (a b k : Fin 32) (s : State) : Host.Outcome State Fault Refusal :=
  s.issueOn .l h fun s => s.ctxPlan (.kvmig h a b k) 0x2C a b none k

/-- KVREL (R266 to R270, R291). -/
def execKvrel (h : Hdr) (a b k : Fin 32) (s : State) : Host.Outcome State Fault Refusal :=
  s.issueOn .l h fun s => s.ctxPlan (.kvrel h a b k) 0x2D a b none k

/-! ## A command's parts (R273) -/

/-- Replace a context command. -/
def State.setCmd (s : State) (k : CtxCmd) : State := { s with cmds := s.cmds.map fun x => if x.id = k.id then k else x }

/-- The part of a T-die is complete with 1, 2^32 or 2^48; a part that is complete already stays as it is. -/
def CtxCmd.part (k : CtxCmd) (n v : Nat) : CtxCmd :=
  if k.pending.contains n then
    { k with
      pending := k.pending.filter (· ≠ n)
      failed := k.failed || v == 2 ^ 32
      dropped := k.dropped || v == 2 ^ 48 }
  else k

/-- The part of T-die n of a command is complete. -/
def State.partDone (s : State) (id n v : Nat) : State :=
  match s.cmdOf id with
  | some k => s.setCmd (k.part n v)
  | none => s

/-- A failure of a command's part is recorded on the T-die (R435). -/
def State.ctxFail (s : State) (n ctx seq cause cls : Nat) (intr : Bool) (addr : Word) : State :=
  s.record n n 11 0 CTXF cls intr false addr (BitVec.ofNat 64 (ctx + 2 ^ 24 * cause + 2 ^ 32 * (seq % 2 ^ 32)))

/-! ## Source lines (R257, R277, R327) -/

/-- The source lines of an APPEND or QUERY are read once all are present, errors found are marked, and the command keeps the
bytes and the lines that carried poison; none while a line is missing. -/
def State.loadSource (s : State) (k : CtxCmd) : Option (CtxCmd × State) :=
  if (k.op ≠ 0x28 ∧ k.op ≠ 0x29) ∨ k.bare = true ∨ k.src.isSome then some (k, s)
  else
    let c := s.core k.core
    let r := ctxSource k.op k.xc k.block
    let lines := (List.range ((r.1 + max r.2 1 - 1) / 128 - r.1 / 128 + 1)).map fun i => r.1 / 128 + i
    if lines.all fun n => (c.tile (n / 32)).present (n % 32) then
      let s1 := lines.foldl (fun s n => s.findLine k.core n
        (memInfo 4 1 false 0 128 (plainFault UCE (BitVec.ofNat 64 (128 * n)) s.hub.module))) s
      some ({ k with
        src := some ((List.range r.2).map fun o => sget 0 c.pad (r.1 + o))
        srcBad := lines.filter c.padBad }, s1)
    else none

/-! ## The end of a command (R268, R273) -/

/-- The add of a command that has ended, if it is made (R273, R327, R387). -/
def CtxCmd.add (k : CtxCmd) : Option Nat :=
  if k.noAdd then none
  else if k.dropped then some (2 ^ 48)
  else if k.failed || k.lost then some (2 ^ 32)
  else some 1

/-- The child record of a FORK (R268). -/
def CtxCmd.childRecord (k : CtxCmd) : List Byte :=
  let levels := (bytesOf 8 k.lin.lo.toNat ++ bytesOf 8 k.lin.hi.toNat).set k.lin.depth ((k.block.getD 0x0C 0))
  let set := k.set.map fun n => BitVec.ofNat 8 n
  bytesOf 4 (num k.block 0x2C 3) ++ bytesOf 1 (k.lin.depth + 1) ++ bytesOf 3 k.set.length ++ bytesOf 8 0 ++ levels ++ set ++
    List.replicate (96 - k.set.length) 0

/-- Every T-die of a QUERY's set has given its partial. -/
def CtxCmd.full (k : CtxCmd) : Bool := k.set.all fun n => (slook k.partials n).isSome

/-- A QUERY has a result to merge and write. -/
def CtxCmd.results (k : CtxCmd) : Bool := k.op == 0x29 && !k.bare && !k.dropped && k.full

/-- CONTEXT_COMMAND_COMPLETION (R268, R273). -/
def execContextCommandCompletion (i : Nat) (s : State) : Host.Outcome State Fault Refusal :=
  match s.cmds[i]? with
  | none => .next s
  | some k =>
    if !k.pending.isEmpty || !k.kpending.isEmpty || (k.results && !k.merged) ||
        (k.op == 0x29 && s.arrivals.any fun a => a.core == k.core && a.cmd == some k.tok) then .next s
    else
      let s1 := { s with cmds := s.cmds.eraseIdx i, ctxMsgs := s.ctxMsgs.filter fun (m : CtxMsg) => m.cmd ≠ k.id }
      let s2 := if k.op = 0x2A ∧ !k.failed ∧ !k.dropped ∧ !k.lost then s1.writeLine k.core k.child 0 k.childRecord false else s1
      .next (match k.add with
        | some v => s2.sendAdd (.context k.core (k.set.foldl min 21)) k.k v
        | none => s2)

/-! ## The Cinch (R269, R281) -/

/-- A partial of a query row: m, l and the elements of o. -/
abbrev Partial := List W32

/-- MergeF of two partials (R281): R280 in F32, with `Exp2F`. -/
def mergeF (a b : Partial) : Partial :=
  let am := a.getD 0 0
  let bm := b.getD 0 0
  if am = 0xFF800000 then b
  else if bm = 0xFF800000 then a
  else
    let m := maxF am bm
    let ea := exp2F (subF am m)
    let eb := exp2F (subF bm m)
    m :: ((a.drop 1).zip (b.drop 1)).map fun p => addF (mulF p.1 ea) (mulF p.2 eb)

/-- The correctly rounded quotient, or +0 where the divisor is +0 (R281). -/
def divF (a b : W32) : W32 :=
  if b = 0 then 0
  else
    let sgn := a.msb != b.msb
    (match f32 a, f32 b with
    | .nan, _ => Num.nan
    | _, .nan => .nan
    | .inf _, .inf _ => .nan
    | .inf _, _ => .inf sgn
    | _, .inf _ => .fin sgn 0 0
    | .fin _ m e, .fin _ n f =>
      if n = 0 then (if m = 0 then .nan else .inf sgn)
      else
        let q := quotient m n
        .fin sgn q.m.toNat (q.e + e - f)).toF32

/-- The merged partial of row r in ascending die number. -/
def CtxCmd.mergeRow (k : CtxCmd) (r : Nat) : Partial :=
  let dies := (List.range 22).filter fun n => k.set.contains n
  let parts := dies.map fun n => (sget [] k.partials n).getD r []
  match parts with
  | [] => []
  | x :: l => l.foldl mergeF x

/-- The result bytes of a QUERY: o, m and l by rows, padded to whole tiles (R269). -/
def CtxCmd.result (k : CtxCmd) : List Byte :=
  let rows := (List.range (cbCount k.block)).map k.mergeRow
  let final := num k.block 7 1 % 2 = 1
  let o := rows.flatMap fun x => if final then (x.drop 2).map fun v => divF v (x.getD 1 0) else x.drop 2
  let ws := o ++ (rows.map fun x => x.getD 0 0) ++ rows.map fun x => x.getD 1 0
  let bs := ws.flatMap fun v => bytesOf 4 v.toNat
  bs ++ List.replicate (4096 * resultTiles k.block - bs.length) 0

/-- The result goes on its way: line by line, the last tile as one arrival (R269). -/
def State.sendResult (s : State) (k : CtxCmd) : State :=
  let bs := k.result
  let t := resultTiles k.block - 1
  let base := k.xc.toNat / 128
  let one := fun (line n : Nat) =>
    Arrival.mk k.core (some k.tok) s.hub.module k.core (base + line) ((bs.drop (128 * line)).take (128 * n))
      (List.replicate n false) none false s.now
  { s with arrivals := s.arrivals ++ ((List.range (32 * t)).map fun j => one j 1) ++ [one (32 * t) 32] }

/-- CINCH_MERGE (R269, R281): a Cinch that is not ready any more fails the command (R372). -/
def execCinchMerge (i : Nat) (s : State) : Host.Outcome State Fault Refusal :=
  match s.cmds[i]? with
  | none => .next s
  | some k =>
    let u : UnitId := .cinch (Fin.ofNat 8 (dieOf k.core))
    if !k.pending.isEmpty || !k.results || k.merged then .next s
    else if s.isReady u then .next ((s.setCmd { k with merged := true }).sendResult k)
    else
      .next ((s.setCmd { k with merged := true, failed := true }).record (dieOf k.core) (dieOf k.core) 5 0 NOTRDY 2 false false
        k.blockVa (if k.k = noCounter then 0 else k.k))

end Sys2Proof.Machine
end

