-- ==== Sys2Proof/Machine/Pages.lean ====
section
/-! DEFINITION. A T-die's context queues and pages: acceptance, sequence order, page pools, sharing and copying
(R271 to R277, R286, R287, R289, R416, R435). -/

namespace Sys2Proof.Machine

/-! ## Queues (R271 to R273) -/

/-- Entries that wait for a context's entry join its queue (R271). -/
def TDie.release (t : TDie) (ctx : Nat) : TDie :=
  { t with entries := t.entries.map fun e => if e.ctx = ctx then { e with held := false } else e }

/-- A context's entry is created (R271). -/
def TDie.create (t : TDie) (c : CtxEntry) : TDie := ({ t with ctxs := sput t.ctxs c.ctx c }).release c.ctx

/-- The table has room (R271). -/
def TDie.roomy (t : TDie) : Bool := t.ctxs.length < 65536

/-- NX passes completed entries, which leave the queue (R272). -/
def TDie.advanceNx (t : TDie) (ctx : Nat) : Nat → TDie
  | 0 => t
  | fuel + 1 =>
    match slook t.ctxs ctx with
    | none => t
    | some c =>
      let at' := fun (e : TEntry) => e.ctx == ctx && e.seq == c.nx && e.complete
      if t.entries.any at' then
        ({ t with ctxs := sput t.ctxs ctx { c with nx := c.nx + 1 }, entries := t.entries.filter fun e => !at' e }).advanceNx
          ctx fuel
      else t

/-- Replace the i-th entry. -/
def TDie.setEntry (t : TDie) (i : Nat) (e : TEntry) : TDie := { t with entries := t.entries.set i e }

/-- An entry may start or complete: no lower value is missing, and each lower entry has completed or is a QUERY that has
started (R273). -/
def TDie.mayStart (t : TDie) (e : TEntry) : Bool :=
  match slook t.ctxs e.ctx with
  | none => false
  | some c =>
    !e.held && !e.complete && c.nx ≤ e.seq && (List.range (e.seq - c.nx)).all fun d => t.entries.any fun x =>
      x.ctx == e.ctx && x.seq == c.nx + d && !x.held && (x.complete || (x.op == 0x29 && x.started))

/-- Every lower entry has completed (R273). -/
def TDie.reached (t : TDie) (e : TEntry) : Bool := t.mayStart e && (slook t.ctxs e.ctx).any fun c => c.nx == e.seq

/-- The i-th entry of T-die n is complete: its command's part ends with a value, and NX moves on. -/
def State.entryDone (s : State) (n i v : Nat) : State :=
  match (s.tdie n).entries[i]? with
  | none => s
  | some e =>
    let t := (s.tdie n).setEntry i { e with complete := true, running := false }
    (s.setTdie n (t.advanceNx e.ctx t.entries.length)).partDone e.cmd n v

/-! ## Arrival (R271, R272, R289) -/

/-- A message has been taken. -/
def State.dropMsg (s : State) (i : Nat) : State := { s with ctxMsgs := s.ctxMsgs.eraseIdx i }

/-- An entry of a command as T-die n queues it: a NOTE where the command is for other dies only (R266, R292, R327). -/
def CtxCmd.entry (k : CtxCmd) (n now : Nat) (note : Bool) : TEntry :=
  let far := k.op = 0x2C ∧ k.set.getD (cbCount k.block % max k.set.length 1) 0 ≠ n
  { cmd := k.id, ctx := k.ctx, seq := k.seq, op := if note ∨ k.bare = true ∨ far then 0 else k.op, lin := k.lin, since := now }

/-- An entry is accepted, held or refused (R271, R272). -/
def State.accept (s : State) (i : Nat) (n : Nat) (k : CtxCmd) (e : TEntry) : State :=
  let t := s.tdie n
  let refuse := { s with ctxMsgs := s.ctxMsgs.set i ⟨k.id, n, true⟩ }
  let room := t.entries.length < 16384
  let take := fun (t : TDie) (e : TEntry) => (s.dropMsg i).setTdie n { t with entries := t.entries ++ [e] }
  match slook t.ctxs e.ctx with
  | some c => if c.nx ≤ e.seq ∧ e.seq < c.nx + 64 ∧ (room ∨ e.seq = c.nx) then take t e else refuse
  | none =>
    if e.seq = 0 ∧ t.roomy = true then take (t.create { ctx := e.ctx, lin := k.lin, set := k.set, nx := 0, groups := [] }) e
    else if room then take t { e with held := true }
    else refuse

/-- A message reaches T-die n (R270, R271, R272, R289, R372): a unit that is not ready fails the part, and an entry that a
retained CANCEL matches is dropped, its sequence value still passing where the context lives on. -/
def State.enterEntry (s : State) (i n : Nat) (k : CtxCmd) : State :=
  let t := s.tdie n
  if !s.isReady (ccuUnit n) then
    ((s.dropMsg i).partDone k.id n (2 ^ 32)).record (dieOf k.core) n 11 0 NOTRDY 2 false false k.blockVa
      (if k.k = noCounter then 0 else k.k)
  else if coveredBy t.prefixes k.lin then
    let s1 := s.partDone k.id n (2 ^ 48)
    if (slook t.ctxs k.ctx).any fun c => c.nx ≤ k.seq then s1.accept i n k (k.entry n s.now true) else s1.dropMsg i
  else s.accept i n k (k.entry n s.now false)

/-- The i-th message arrives, or comes again after a refusal. -/
def State.ctxArrive (s : State) (i : Nat) (resend : Bool) : State :=
  match s.ctxMsgs[i]? with
  | none => s
  | some m =>
    match s.cmdOf m.cmd with
    | none => s.dropMsg i
    | some k =>
      if m.refused ≠ resend || m.die < 8 || k.op == 0x2B || (18 ≤ m.die && (s.hub.egress || !s.linkOpen m.die 0)) || (!resend && !s.inOrder i m k.core) then s
      else
        match s.loadSource k with
        | none => s
        | some (k1, s1) => (s1.setCmd k1).enterEntry i m.die k1

/-- CONTEXT_ENTRY_ARRIVAL (R271, R272, R289). -/
def execContextEntryArrival (i : Nat) (s : State) : Host.Outcome State Fault Refusal := .next (s.ctxArrive i false)

/-- CONTEXT_ENTRY_RESEND (R272). -/
def execContextEntryResend (i : Nat) (s : State) : Host.Outcome State Fault Refusal := .next (s.ctxArrive i true)

/-! ## Pages (R274 to R276, R287) -/

/-- A page is taken from the HBM4E pool, or from the LPDDR-6 pool when that is empty: medium, offset and the pools after.
Which page of a pool is open (log 2). -/
def TDie.alloc (t : TDie) (choice : Nat) : Option (Nat × Nat × TDie) :=
  let h := t.freeH.getD (choice % max t.freeH.length 1) 0
  let l := t.freeL.getD (choice % max t.freeL.length 1) 0
  if !t.freeH.isEmpty then some (0, h, { t with freeH := t.freeH.erase h })
  else if !t.freeL.isEmpty then some (1, l, { t with freeL := t.freeL.erase l })
  else none

/-- A page returns to its pool. -/
def TDie.freePage (t : TDie) (d : PageDesc) : TDie :=
  match d.page with
  | none => t
  | some o => if d.med = 0 then { t with freeH := t.freeH ++ [o] } else { t with freeL := t.freeL ++ [o] }

/-- A block table entry no longer names a descriptor: its share count falls, and at zero the page is free (R276). -/
def TDie.unshare (t : TDie) (id : Nat) : TDie :=
  match slook t.descs id with
  | none => t
  | some d =>
    if d.share ≤ 1 then ({ t with descs := sdel t.descs id }).freePage d
    else { t with descs := sput t.descs id { d with share := d.share - 1 } }

/-- A new descriptor, with a page or, where the pools are empty, poisoned (R276): its identity and the T-die after. -/
def State.newDesc (s : State) (n : Nat) : Nat × State :=
  let t := s.tdie n
  let make := fun (t : TDie) (d : PageDesc) =>
    (t.nextDesc, s.drew.setTdie n { t with descs := sput t.descs t.nextDesc d, nextDesc := t.nextDesc + 1 })
  match t.alloc s.free with
  | some (med, o, t1) => make t1 ⟨some o, med, 0, false, 1⟩
  | none => make t ⟨none, 0, 0, true, 1⟩

/-- All 131,072 bytes of a page are copied with their marks (R287, R292, R416). -/
def State.copyPage (s : State) (own : Option Nat) (src dst : Nat) : State :=
  let s1 := s.mergeLinesBy own (paLines src 131072)
  let s2 := (paLines src 131072).foldl (fun s l => s.markDamaged l 0) s1
  let s3 := s2.homeWriteBy own dst (s2.homeBytes src 131072)
  (List.range 1024).foldl (fun s i =>
    if s.poison.contains (src + 128 * i) then s.setMark (dst + 128 * i) else s.clearMark (dst + 128 * i)) s3

/-- The PA of a descriptor's page. -/
def PageDesc.pa (d : PageDesc) (n : Nat) : Nat := pagePa n d.med (d.page.getD 0)

/-- A descriptor and a block table entry are written (R275, R283). -/
def State.noteTable (s : State) (n : Nat) (own : Option Nat) (ctx layer group p id : Nat) : State :=
  (s.noteWrite n own (lineOf (Config.blockTablePa n ctx layer group p))).noteWrite n own (lineOf (Config.descriptorPa n id))

/-- A copy of a page under a new descriptor for a context (R286, R287): its identity, and whether no page could be had. -/
def State.copyDesc (s : State) (n : Nat) (own : Option Nat) (d : PageDesc) : Nat × Bool × State :=
  let r := s.newDesc n
  match slook (r.2.tdie n).descs r.1 with
  | some x =>
    if x.poisoned then (r.1, true, r.2) else (r.1, false, r.2.copyPage own (d.pa n) (x.pa n))
  | none => (r.1, true, r.2)

/-! ## APPEND (R274, R277, R287, R416) -/

/-- An APPEND in progress: the group as it stands, pages that this command could not allocate, and the causes met. -/
structure AppendJob where
  g : KvGroup
  fresh : List Nat
  causes : List Nat
  /-- a row was not sent (R361) -/
  unsent : Bool := false

/-- The page of a row is there and may be written (R276, R277, R287): its descriptor. -/
def State.appendPage (s : State) (n ctx p j : Nat) (a : AppendJob) : AppendJob × State :=
  let put := fun (id : Nat) (none' : Bool) (s : State) =>
    ({ a with
      g := { a.g with table := sput a.g.table p id }
      fresh := if none' then id :: a.fresh else a.fresh
      causes := if none' then 4 :: a.causes else a.causes }, s.noteTable n (some ctx) ctx a.g.layer a.g.group p id)
  let new := fun (_ : Unit) =>
    let r := s.newDesc n
    put r.1 ((slook (r.2.tdie n).descs r.1).all (·.poisoned)) r.2
  if j = 0 then new ()
  else
    match slook a.g.table p with
    | none => new ()
    | some id =>
      match slook (s.tdie n).descs id with
      | none => new ()
      | some d =>
        if 1 < d.share ∧ !d.poisoned then
          let r := s.copyDesc n (some ctx) d
          put r.1 r.2.1 (r.2.2.setTdie n ((r.2.2.tdie n).unshare id))
        else (a, s)

/-- A row's bytes are written at their home: whole lines lose their marks, and lines of poisoned source bytes take one
(R403, R404). -/
def State.writeRow (s : State) (ctx pa : Nat) (k : CtxCmd) (o len : Nat) : State :=
  let bytes := ((k.src.getD []).drop o).take len
  (paLines pa len).foldl (fun s line =>
    let lo := max line pa
    let hi := min (line + 128) (pa + len)
    let s1 := if hi - lo = 128 then s.clearMark line else s
    if (List.range (hi - lo)).any fun x => k.srcBad.contains ((k.xc.toNat + o + (lo - pa) + x) / 128) then s1.setMark line
    else s1) (s.homeWriteBy (some ctx) pa bytes)

/-- A row takes bytes from a poisoned source line. -/
def CtxCmd.rowBad (k : CtxCmd) (o len : Nat) : Bool :=
  k.srcBad.any fun l => 128 * l < k.xc.toNat + o + len && k.xc.toNat + o < 128 * l + 128

/-- A row goes to T-die n and is written there; poisoned bytes do not cross the port of an expander, and the command fails (R361). -/
def State.sendRow (s : State) (n pa : Nat) (k : CtxCmd) (o len : Nat) (a : AppendJob) : AppendJob × State :=
  if 18 ≤ n ∧ k.rowBad o len = true then ({ a with unsent := true }, s) else (a, s.writeRow k.ctx pa k o len)

/-- Row i of an APPEND at T-die n (R277). -/
def State.appendRow (s : State) (n : Nat) (set : List Nat) (k : CtxCmd) (a : AppendJob) (i : Nat) : AppendJob × State :=
  let rb := 2 * a.g.heads * a.g.hdim
  let size := pageTokens a.g.heads a.g.hdim
  let t := a.g.n + i
  let p := t / size
  let j := t % size
  if set.getD (p % max set.length 1) 0 ≠ n then (a, s)
  else
    let r := s.appendPage n k.ctx p j a
    match (slook r.1.g.table p).bind fun id => (slook (r.2.tdie n).descs id).map fun d => (id, d) with
    | none => r
    | some (id, d) =>
      if d.poisoned then
        ({ r.1 with causes := if r.1.fresh.contains id then r.1.causes else 8 :: r.1.causes }, r.2)
      else
        let pa := d.pa n
        let x := r.2.sendRow n (pa + j * rb) k (i * rb) rb r.1
        x.2.sendRow n (pa + size * rb + j * rb) k ((cbCount k.block + i) * rb) rb x.1

/-- A group of a context is replaced. -/
def CtxEntry.setGroup (c : CtxEntry) (g : KvGroup) : CtxEntry :=
  { c with groups := c.groups.filter (fun x => !(x.layer == g.layer && x.group == g.group)) ++ [g] }

/-- An entry that fails before it changes anything executes as a NOTE: it completes when it reaches NX (R272, R273, R435). -/
def State.failAsNote (s : State) (n i : Nat) (e : TEntry) (k : CtxCmd) (cause cls : Nat) : State :=
  if (s.tdie n).reached e then (s.ctxFail n e.ctx e.seq cause cls false k.blockVa).entryDone n i (2 ^ 32) else s

/-- An APPEND executes at T-die n as one event (R277): each cause of failure leaves one record. -/
def State.appendRun (s : State) (n i : Nat) (e : TEntry) (k : CtxCmd) : State :=
  let b := k.block
  match slook (s.tdie n).ctxs e.ctx with
  | none => s
  | some c =>
    let g := (c.find (cbLayer b) (cbGroup b)).getD ⟨cbLayer b, cbGroup b, cbHeads b, cbHdim b, 0, []⟩
    if g.heads ≠ cbHeads b ∨ g.hdim ≠ cbHdim b then
      s.failAsNote n i e k 3 2
    else
      let r := (List.range (cbCount b)).foldl (fun x j => x.2.appendRow n c.set k x.1 j) (⟨g, [], [], false⟩, s)
      let g1 := { r.1.g with n := g.n + cbCount b }
      let s1 := r.2.setTdie n { r.2.tdie n with ctxs := sput (r.2.tdie n).ctxs e.ctx (c.setGroup g1) }
      let s2 := if r.1.causes.contains 4 then s1.ctxFail n e.ctx e.seq 4 2 true k.blockVa else s1
      let s3 := if r.1.causes.contains 8 then s2.ctxFail n e.ctx e.seq 8 2 false k.blockVa else s2
      s3.entryDone n i (if r.1.causes.isEmpty ∧ r.1.unsent = false then 1 else 2 ^ 32)

/-- A T-die exchanges messages with the package: an expander only while its port carries traffic (R368, R448, R449). -/
def State.linked (s : State) (n : Nat) : Bool := decide (n < 18) || (!s.hub.egress && s.linkOpen n 0)

/-- The i-th entry of T-die n with its command; of an expander, while what becomes of it can be answered. -/
def State.entryOf (s : State) (n i : Nat) : Option (TEntry × CtxCmd) :=
  if s.linked n = false then none else
  match (s.tdie n).entries[i]? with
  | none => none
  | some e => (s.cmdOf e.cmd).map fun k => (e, k)

/-- The new rows of an APPEND all lie on other T-dies (R272). -/
def TDie.foreign (t : TDie) (n : Nat) (e : TEntry) (k : CtxCmd) : Bool :=
  match slook t.ctxs e.ctx with
  | none => false
  | some c =>
    let g := c.find (cbLayer k.block) (cbGroup k.block)
    let size := pageTokens (cbHeads k.block) (cbHdim k.block)
    (List.range (cbCount k.block)).all fun i =>
      c.set.getD (((g.map (·.n)).getD 0 + i) / size % max c.set.length 1) 0 != n

/-- NOTE_COMPLETE (R272): a NOTE, or an APPEND with no rows here, reaches NX. -/
def execNoteComplete (n : Fin 22) (i : Nat) (s : State) : Host.Outcome State Fault Refusal :=
  let t := s.tdie n
  match t.entries[i]? with
  | none => .next s
  | some e =>
    if !t.reached e || !s.linked n then .next s
    else if e.op = 0 then .next (s.entryDone n i 1)
    else
      match s.cmdOf e.cmd with
      | some k => .next (if e.op = 0x28 ∧ t.foreign n e k = true then s.appendRun n i e k else s)
      | none => .next s

/-- APPEND_EXECUTE (R272, R273, R277, R287, R416): one with no rows here is a NOTE, which completes at NX. -/
def execAppendExecute (n : Fin 22) (i : Nat) (s : State) : Host.Outcome State Fault Refusal :=
  let t := s.tdie n
  match s.entryOf n i with
  | some (e, k) =>
    .next (if e.op = 0x28 ∧ t.mayStart e = true ∧ (t.foreign n e k = false ∨ t.reached e = true) then s.appendRun n i e k else s)
  | none => .next s

/-! ## FORK, RELABEL, MIGRATE (R286, R291, R292, R436) -/

/-- The lineage of a FORK's child. -/
def childLineage (l : Lineage) (x : Byte) : Lineage :=
  let b := (bytesOf 8 l.lo.toNat ++ bytesOf 8 l.hi.toNat).set l.depth x
  ⟨l.depth + 1, wordOf (b.take 8), wordOf (b.drop 8)⟩

/-- A block table entry of a child names its parent's descriptor, or a copy where the count would pass 65,535 (R286): the
child's table so far, whether a page was missing, and the state. -/
def State.sharePage (s : State) (n child layer group : Nat) (x : SMap Nat × Bool) (p id : Nat) : (SMap Nat × Bool) × State :=
  let t := s.tdie n
  match slook t.descs id with
  | none => (x, s)
  | some d =>
    if d.share < 65535 then
      ((sput x.1 p id, x.2), (s.setTdie n { t with descs := sput t.descs id { d with share := d.share + 1 } }).noteWrite n none
        (lineOf (Config.blockTablePa n child layer group p)))
    else
      let r := if d.poisoned then
          (t.nextDesc, false, s.setTdie n { t with
            descs := sput t.descs t.nextDesc { d with page := none, share := 1 }, nextDesc := t.nextDesc + 1 })
        else s.copyDesc n none d
      ((sput x.1 p r.1, x.2 || r.2.1), r.2.2.noteTable n none child layer group p r.1)

/-- The groups of a child, which share their parent's pages. -/
def State.shareGroups (s : State) (n child : Nat) : List KvGroup → List KvGroup × Bool × State
  | [] => ([], false, s)
  | g :: r =>
    let x := g.table.foldl (fun (x : (SMap Nat × Bool) × State) (q : Nat × Nat) =>
      x.2.sharePage n child g.layer g.group x.1 q.1 q.2) (([], false), s)
    let y := x.2.shareGroups n child r
    ({ g with table := x.1.1 } :: y.1, x.1.2 || y.2.1, y.2.2)

/-- FORK_EXECUTE (R271, R286, R435, R436). -/
def execForkExecute (n : Fin 22) (i : Nat) (s : State) : Host.Outcome State Fault Refusal :=
  let t := s.tdie n
  match s.entryOf n i with
  | none => .next s
  | some (e, k) =>
    match slook t.ctxs e.ctx with
    | none => .next s
    | some c =>
      let child := num k.block 0x2C 3
      let lin := childLineage c.lin (k.block.getD 0x0C 0)
      if e.op ≠ 0x2A ∨ t.reached e = false then .next s
      else if coveredBy t.prefixes lin then .next (s.entryDone n i (2 ^ 48))
      else if (slook t.ctxs child).isSome then
        .next ((s.ctxFail n e.ctx e.seq 5 2 false k.blockVa).entryDone n i (2 ^ 32))
      else if !t.roomy then
        .next (s.setTdie n (t.setEntry i { e with holdFrom := some (e.holdFrom.getD s.now) }))
      else
        let r := s.shareGroups n child c.groups
        let s1 := r.2.2.setTdie n ((r.2.2.tdie n).create ⟨child, lin, c.set, 0, r.1⟩)
        .next (if r.2.1 then (s1.ctxFail n e.ctx e.seq 4 2 true k.blockVa).entryDone n i (2 ^ 32) else s1.entryDone n i 1)

/-- RELABEL_EXECUTE (R291). -/
def execRelabelExecute (n : Fin 22) (i : Nat) (s : State) : Host.Outcome State Fault Refusal :=
  let t := s.tdie n
  match s.entryOf n i with
  | none => .next s
  | some (e, k) =>
    match slook t.ctxs e.ctx with
    | none => .next s
    | some c =>
      if e.op ≠ 0x2D ∨ t.reached e = false then .next s
      else .next ((s.setTdie n { t with ctxs := sput t.ctxs e.ctx { c with lin := cbLin k.block } }).entryDone n i 1)

/-- A page moves to the other medium (R292): copied, its descriptor written with the next version, the old page free. -/
def State.movePage (s : State) (n id : Nat) (d : PageDesc) (med o : Nat) : State :=
  let s1 := s.copyPage none (d.pa n) (pagePa n med o)
  let t := s1.tdie n
  let d1 := { d with page := some o, med := med, version := (d.version + 1) % 65536 }
  let t1 := if med = 0 then { t with freeH := t.freeH.erase o } else { t with freeL := t.freeL.erase o }
  (s1.setTdie n (({ t1 with descs := sput t1.descs id d1 }).freePage d)).noteWrite n none (lineOf (Config.descriptorPa n id))

/-- MIGRATE_EXECUTE (R292, R416, R435). -/
def execMigrateExecute (n : Fin 22) (i : Nat) (s : State) : Host.Outcome State Fault Refusal :=
  let t := s.tdie n
  match s.entryOf n i with
  | none => .next s
  | some (e, k) =>
    let b := k.block
    let med := num b 0x0C 4
    let pool := if med = 0 then t.freeH else t.freeL
    let found := (slook t.ctxs e.ctx).bind fun c => (c.find (cbLayer b) (cbGroup b)).bind fun g =>
      if cbCount b < pageCount g.n (pageTokens g.heads g.hdim) then
        (slook g.table (cbCount b)).bind fun id => (slook t.descs id).map fun d => (id, d)
      else none
    if e.op ≠ 0x2C ∨ t.mayStart e = false then .next s
    else
      match found with
      | none => .next (s.entryDone n i 1)
      | some (id, d) =>
        if d.poisoned ∨ d.med = med then .next (s.entryDone n i 1)
        else if pool.isEmpty then .next (s.failAsNote n i e k 6 1)
        else .next ((s.drew.movePage n id d med (pool.getD (s.free % pool.length) 0)).entryDone n i 1)

end Sys2Proof.Machine
end

