-- ==== Sys2Proof/Machine/Query.lean ====
section
/-! DEFINITION. Queries at a T-die, cancellation there, holds and their records, waves (R92 to R94, R278 to R285, R288 to R294,
R415, R417, R435). -/

namespace Sys2Proof.Machine

/-! ## The reduction tree (R279, R280) -/

/-- The paired maximum-and-sum combine (R280). -/
def AttnRow.join (a b : AttnRow) : AttnRow :=
  if a.m = .inf true then b
  else if b.m = .inf true then a
  else
    let m := a.m.maxN b.m
    let ea := exp2A ((a.m.add m.neg).roundInt)
    let eb := exp2A ((b.m.add m.neg).roundInt)
    { m := m
      l := ((a.l.mul ea).add (b.l.mul eb)).roundInt
      o := (a.o.zip b.o).map fun p => ((p.1.mul ea).add (p.2.mul eb)).roundInt }

/-- One binary level: neighbours combine, the lower first. -/
def joinPairs : List AttnRow → List AttnRow
  | a :: b :: r => a.join b :: joinPairs r
  | l => l

/-- One four-ary level: each four combine from the lowest on. -/
def joinFours : List AttnRow → List AttnRow
  | a :: b :: c :: d :: r => ((a.join b).join c).join d :: joinFours r
  | l => l

/-- The 64 partials of a query row combine by SHAPE (R279, R294). -/
def treeJoin (four : Bool) (l : List AttnRow) : List AttnRow :=
  if four then joinFours (joinFours (joinFours l))
  else joinPairs (joinPairs (joinPairs (joinPairs (joinPairs (joinPairs l)))))

/-- A T-die partial read out to F32: m, l and o (R94). -/
def AttnRow.read (r : AttnRow) : Partial := r.m.readOut :: r.l.readOut :: r.o.map Num.readOut

/-! ## What a query reads (R274, R278, R282) -/

/-- A page that a query reads at a T-die: its number, its descriptor, and the tokens of it below the count. -/
structure QueryPage where
  p : Nat
  id : Nat
  desc : PageDesc
  rows : Nat

/-- The pages of a query at T-die n, in ascending order. -/
def TDie.queryPages (t : TDie) (n : Nat) (e : TEntry) : List QueryPage :=
  match slook t.ctxs e.ctx with
  | none => []
  | some c =>
    match c.find e.layer e.group with
    | none => []
    | some g =>
      let size := pageTokens g.heads g.hdim
      (List.range (pageCount e.n size)).filterMap fun p =>
        if c.set.getD (p % max c.set.length 1) 0 = n then
          (slook g.table p).bind fun id => (slook t.descs id).map fun d => ⟨p, id, d, min size (e.n - p * size)⟩
        else none

/-- The data lines that a query reads of a page: its K rows and its V rows. -/
def QueryPage.lines (q : QueryPage) (n heads hdim : Nat) : List Nat :=
  let rb := 2 * heads * hdim
  let pa := q.desc.pa n
  if q.desc.poisoned then [] else paLines pa (q.rows * rb) ++ paLines (pa + pageTokens heads hdim * rb) (q.rows * rb)

/-- The block table line and the descriptor line of a page. -/
def QueryPage.tableLines (q : QueryPage) (n : Nat) (e : TEntry) : List Nat :=
  [lineOf (Config.blockTablePa n e.ctx e.layer e.group q.p), lineOf (Config.descriptorPa n q.id)]

/-! ## Executions (R277, R278, R282 to R285) -/

/-- QUERY_EXECUTE (R273, R274, R278, R282, R284): a first execution fixes the token count, the fourth holds off writes. -/
def execQueryExecute (n : Fin 22) (i : Nat) (s : State) : Host.Outcome State Fault Refusal :=
  let t := s.tdie n
  match s.entryOf n i with
  | none => .next s
  | some (e, k) =>
    let b := k.block
    let g := (slook t.ctxs e.ctx).bind fun c => c.find (cbLayer b) (cbGroup b)
    if e.op ≠ 0x29 ∨ e.running = true ∨ e.complete = true ∨ (e.started = false ∧ t.mayStart e = false) then .next s
    else if e.started = false ∧ (g.any fun x => x.heads != cbHeads b || x.hdim != cbHdim b) = true then
      .next (s.failAsNote n i e k 3 2)
    else
      let e1 := if e.started then e
        else { e with started := true, layer := cbLayer b, group := cbGroup b, n := (g.map (·.n)).getD 0 }
      let lines := (t.queryPages n e1).flatMap fun q => q.tableLines n e1 ++ q.lines n (cbHeads b) (cbHdim b)
      let e2 := { e1 with
        running := true, wsig := 0, waits := [], logged := false
        rsig := lines.foldl (fun v l => v ||| sigBits l) 0 }
      .next (s.setTdie n { t.setEntry i e2 with holds := if e2.holding then (t.holds + 1) % 2 ^ 32 else t.holds })

/-- Numbers of BF16 values in bytes. -/
def bfRow (b : List Byte) : List Num := (List.range (b.length / 2)).map fun d => bfIn (num b (2 * d) 2)

/-- A NaN partial of D elements. -/
def AttnRow.poisoned (d : Nat) : AttnRow := ⟨.nan, .nan, List.replicate d .nan⟩

/-- One key row of a page for a query row (R274, R278). -/
def State.keyRow (s : State) (n heads hdim h : Nat) (scale : Num) (q : List Num) (x : QueryPage) (r : AttnRow) (j : Nat) :
    AttnRow :=
  let rb := 2 * heads * hdim
  let pa := x.desc.pa n + j * rb + 2 * h * hdim
  r.step scale q (bfRow (s.homeBytes pa (2 * hdim))) (bfRow (s.homeBytes (pa + pageTokens heads hdim * rb) (2 * hdim)))

/-- The partial of logical engine `x` for a query row: its pages in ascending order (R278). -/
def State.enginePartial (s : State) (n heads hdim h nset : Nat) (scale : Num) (q : List Num) (pages : List QueryPage)
    (bad : List Nat) (x : Nat) : AttnRow :=
  let mine := pages.filter fun p => p.p / nset % 64 == x
  if mine.any fun p => bad.contains p.p then AttnRow.poisoned hdim
  else mine.foldl (fun r p => (List.range p.rows).foldl (s.keyRow n heads hdim h scale q p) r) (AttnRow.start hdim)

/-- The partials of T-die n for all rows of a query (R278, R279, R94). -/
def State.queryPartials (s : State) (n : Nat) (k : CtxCmd) (pages : List QueryPage) (bad : List Nat) : List Partial :=
  let b := k.block
  let hdim := cbHdim b
  let src := k.src.getD []
  let scale := f32 (BitVec.ofNat 32 (num b 0x0C 4))
  (List.range (cbCount b)).map fun i =>
    if k.srcBad.isEmpty then
      let q := bfRow ((src.drop (2 * hdim * i)).take (2 * hdim))
      let es := (List.range 64).map
        (s.enginePartial n (cbHeads b) hdim (i % max (cbHeads b) 1) (max k.set.length 1) scale q pages bad)
      ((treeJoin (s.tdie n).shape es).headD (AttnRow.poisoned hdim)).read
    else (AttnRow.poisoned hdim).read

/-- The lines of a query's tables and pages are read: what is found damaged is marked and recorded, and a table line at fault
poisons the page's descriptor (R275, R415). -/
def State.readTables (s : State) (n : Nat) (e : TEntry) (k : CtxCmd) (pages : List QueryPage) : State :=
  pages.foldl (fun s q =>
    let s1 := (q.tableLines n e).foldl (fun s l => s.markDamaged l 0) s
    let t := s1.tdie n
    let s2 := if (q.tableLines n e).any s1.poison.contains then
        s1.setTdie n { t with descs := sput t.descs q.id { sget q.desc t.descs q.id with poisoned := true } }
      else s1
    ((q.lines n (cbHeads k.block) (cbHdim k.block)).foldl (fun s l => s.markDamaged l 0) s2)) s

/-- The first line at fault of a page, or none: a poisoned descriptor counts with its own line. -/
def State.badLine (s : State) (n : Nat) (k : CtxCmd) (q : QueryPage) : Option Nat :=
  if q.desc.poisoned then some (lineOf (Config.descriptorPa n q.id))
  else (q.lines n (cbHeads k.block) (cbHdim k.block)).find? s.poison.contains

/-- The data lines of an execution at T-die n. -/
def State.executionLines (s : State) (n : Nat) (e : TEntry) (k : CtxCmd) : List Nat :=
  ((s.tdie n).queryPages n e).flatMap fun q => q.lines n (cbHeads k.block) (cbHdim k.block)

/-- The partial of a committing execution (R278 to R281, R285, R415): reduce state merges first (R117), and poisoned pages
give NaN, a record of the first one, and the failure add. An execution that holds off writes always commits, so nothing holds
off its own merges (R284). -/
def State.commitQuery (s : State) (n i : Nat) (e : TEntry) (k : CtxCmd) : State :=
  let pages0 := (s.tdie n).queryPages n e
  let s0 := s.mergeLines (s.executionLines n e k)
  let s1 := if e.holding then { s0 with heldWrite := none } else s0
  let s2 := s1.readTables n e k pages0
  let t := s2.tdie n
  let pages := t.queryPages n e
  let bad := pages.filter fun q => (s2.badLine n k q).isSome
  let ps := s2.queryPartials n k pages (bad.map (·.p))
  let s3 := s2.setCmd { k with partials := sput k.partials n ps }
  let x := (bad.headD ⟨0, 0, ⟨none, 0, 0, false, 0⟩, 0⟩)
  let u := x.p / max k.set.length 1 % 64
  let s4 := if bad.isEmpty then s3 else
    s3.record n n 10 (sget u t.phys u) POISON 2 true false (BitVec.ofNat 64 ((s2.badLine n k x).getD 0))
      (BitVec.ofNat 64 (e.ctx + 2 ^ 24 * (e.seq % 2 ^ 40)))
  s4.entryDone n i (if bad.isEmpty ∧ k.srcBad.isEmpty then 1 else 2 ^ 32)

/-- QUERY_EXECUTION_END (R117, R283 to R285): reduce state of its lines merges, which is a write that reaches the T-die, and a common
signature bit repeats the execution, unless writes were held off. -/
def execQueryExecutionEnd (n : Fin 22) (i : Nat) (s : State) : Host.Outcome State Fault Refusal :=
  match s.entryOf n i with
  | none => .next s
  | some (e0, k) =>
    let s1 := if e0.running && !e0.holding then s.mergeLines (s.executionLines n e0 k) else s
    let t := s1.tdie n
    let e := t.entries.getD i e0
    if e.running = false then .next s
    else if e.rsig &&& e.wsig ≠ 0 ∧ e.holding = false then
      .next (s1.setTdie n { t.setEntry i { e with running := false, conflicts := e.conflicts + 1 } with
        reexec := (t.reexec + 1) % 2 ^ 32 })
    else .next (s1.commitQuery n i e k)

/-! ## Cancellation (R273, R288, R289) -/

/-- Sequence-0 entries that waited for room create their contexts, in order of arrival (R271). -/
def State.admitHeld (s : State) (n : Nat) : State :=
  (s.tdie n).entries.foldl (fun s e =>
    let t := s.tdie n
    match s.cmdOf e.cmd with
    | some k =>
      if e.held ∧ e.seq = 0 ∧ t.roomy = true ∧ (slook t.ctxs e.ctx).isNone then
        s.setTdie n (t.create ⟨e.ctx, k.lin, k.set, 0, []⟩)
      else s
    | none => s) s

/-- The contexts of a T-die that a CANCEL matches are removed with their entries and pages (R288). -/
def State.cancelAt (s : State) (n : Nat) (p : Lineage) : State :=
  let t := s.tdie n
  let out := t.ctxs.filter fun q => p.covers q.2.lin
  let gone := fun (e : TEntry) => (out.any fun q => q.1 == e.ctx) || (e.held && p.covers e.lin)
  let s1 := (t.entries.filter fun e => gone e && !e.complete).foldl (fun s e => s.partDone e.cmd n (2 ^ 48)) s
  let ids := out.flatMap fun q => q.2.groups.flatMap fun g => g.table.map Prod.snd
  let t1 := ids.foldl (fun t id => t.unshare id) { t with
    entries := t.entries.filter fun e => !gone e
    ctxs := t.ctxs.filter fun q => !p.covers q.2.lin
    prefixes := (p :: t.prefixes).take 1024 }
  s1.setTdie n t1

/-- A CANCEL passes its own sequence value of a context that is still there (R273). It has been applied on arrival, and its NOTE is queued
whatever the window of R272 and the limit on entries allow (DESIGN CHOICE, log 90). -/
def State.cancelNote (s : State) (n : Nat) (k : CtxCmd) : State :=
  let t := s.tdie n
  if (slook t.ctxs k.ctx).any fun c => c.nx ≤ k.seq then
    s.setTdie n { t with entries := t.entries ++ [k.entry n s.now true] }
  else s

/-- CANCEL_ARRIVAL_TDIE (R270, R288, R289): the i-th context message, if it is a CANCEL for this T-die. -/
def execCancelArrivalTdie (n : Fin 22) (i : Nat) (s : State) : Host.Outcome State Fault Refusal :=
  match s.ctxMsgs[i]? with
  | none => .next s
  | some m =>
    match s.cmdOf m.cmd with
    | none => .next s
    | some k =>
      if m.die ≠ n.val ∨ k.op ≠ 0x2B ∨ n.val < 8 ∨ (18 ≤ n.val ∧ (s.hub.egress = true ∨ s.linkOpen n 0 = false)) ∨ !s.inOrder i m k.core then .next s
      else
        let s1 := s.dropMsg i
        if s.isReady (ccuUnit n) then
          .next (((((s1.cancelAt n (cbLin k.block)).cancelNote n k).admitHeld n)).partDone k.id n 1)
        else .next (s1.partDone k.id n 1)

/-! ## Holds (R271, R284, R417, R435) -/

/-- CONTEXT_HOLD_TIMEOUT (R271, R435): an entry held 1 ms for a context with no entry executes nowhere. -/
def execContextHoldTimeout (n : Fin 22) (i : Nat) (s : State) : Host.Outcome State Fault Refusal :=
  match s.entryOf n i with
  | none => .next s
  | some (e, k) =>
    if !e.held || e.seq == 0 || decide (s.now < e.since + 1000000) then .next s
    else
      let t := s.tdie n
      .next (((s.ctxFail n e.ctx e.seq 2 2 true k.blockVa).setTdie n { t with entries := t.entries.eraseIdx i }).partDone e.cmd n
        (2 ^ 32))

/-- TABLE_FULL_HOLD_TIMEOUT (R271, R435): one record for a hold of more than 1 ms; the hold goes on. -/
def execTableFullHoldTimeout (n : Fin 22) (i : Nat) (s : State) : Host.Outcome State Fault Refusal :=
  match s.entryOf n i with
  | none => .next s
  | some (e, k) =>
    let from' := if e.held && e.seq == 0 then some e.since else e.holdFrom
    match from' with
    | none => .next s
    | some a =>
      if e.logged ∨ s.now ≤ a + 1000000 then .next s
      else .next ((s.setTdie n ((s.tdie n).setEntry i { e with logged := true })).ctxFail n e.ctx e.seq 1 1 true k.blockVa)

/-- WRITE_HOLD_TIMEOUT (R417, R435): one record for each write that a fourth execution holds off for more than 100 µs. -/
def execWriteHoldTimeout (n : Fin 22) (s : State) : Host.Outcome State Fault Refusal :=
  let t := s.tdie n
  let late := fun (w : Nat × Nat × Bool) => !w.2.2 && decide (w.2.1 + 100000 < s.now)
  match t.entries.find? fun e => e.running && e.waits.any late with
  | none => .next s
  | some e =>
    let w := (e.waits.find? late).getD (0, 0, true)
    let e1 := { e with waits := e.waits.map fun x => if x = w then (x.1, x.2.1, true) else x }
    .next ((s.setTdie n { t with entries := t.entries.map fun (x : TEntry) => if x = e then e1 else x }).ctxFail
      n e.ctx e.seq 7 1 false (BitVec.ofNat 64 w.1))

/-! ## Waves, the active-bank limit and the tree (R279, R293, R294) -/

/-- ACTIVATION_WAVE (R293): a wave reads ACTLIM at its start. -/
def execActivationWave (n : Fin 22) (s : State) : Host.Outcome State Fault Refusal :=
  let t := s.tdie n
  .next (if tdieOk s.hub.expanders n then s.setTdie n { t with waveLim := t.actlim } else s)

/-- ACTIVE_BANK_LIMIT_RAISE (R293, R294): firmware raises ACTLIM, 16 to 1,024 in steps of 16. -/
def execActiveBankLimitRaise (n : Fin 22) (actlim : Nat) (s : State) : Host.Outcome State Fault Refusal :=
  let t := s.tdie n
  .next (if tdieOk s.hub.expanders n && decide (t.actlim < actlim) && decide (actlim ≤ 1024) && actlim % 16 == 0 then
      s.setTdie n { t with actlim := actlim }
    else s)

/-- REDUCTION_TREE_SHAPE_CHANGE (R279, R294): SHAPE and the engine map, while no QUERY executes on the T-die. -/
def execReductionTreeShapeChange (n : Fin 22) (shape : Bool) (map : List (Nat × Nat)) (s : State) :
    Host.Outcome State Fault Refusal :=
  let t := s.tdie n
  .next (if tdieOk s.hub.expanders n && t.entries.all (fun e => !e.running) &&
      map.all (fun p => p.1 < 64 && p.2 < 64) then
      s.setTdie n { t with shape := shape, phys := map.foldl (fun m p => sput m p.1 p.2) t.phys }
    else s)

end Sys2Proof.Machine
end

