-- ==== Sys2Proof/Machine/Maint.lean ====
section
/-! DEFINITION. Translation invalidation, write-back of lines, counter resets and calls to the firmware
(R26, R67, R105, R194 to R196, R399). -/

namespace Sys2Proof.Machine

/-! ## Translation invalidation (R105, R194, R399) -/

/-- A range of addresses in an address space, whose translations something holds. -/
structure Held where
  asid : Nat
  lo : Nat
  len : Nat

/-- A held range of space 0, or of space 4 at this module, whose parts are listed. -/
def State.heldRange (s : State) (asid : Nat) (pod : Bool) (a : Nat) (segs : List Seg) : List Held :=
  let len := (segs.map (·.len)).sum
  if segs.isEmpty then []
  else if pod then
    match s.podCheck (BitVec.ofNat 64 a) 0 with
    | .ok va => [⟨s.hub.exportAsid, va, len⟩]
    | .error _ => []
  else [⟨asid, a, len⟩]

/-- The ranges that the engines of a core hold, with the token of the command or access that holds them. -/
def State.holders (s : State) (c : Nat) : List (Nat × Held) :=
  let k := s.core c
  (k.welt.flatMap fun w =>
    let pod := cpPod w.desc
    ((s.heldRange k.asid pod w.a.toNat w.segs) ++ s.heldRange k.asid pod w.target.toNat w.dsegs).map fun h => (w.tok, h)) ++
  (k.arr.flatMap fun e =>
    let at' := fun (h : Word) => (s.heldRange k.asid (handlePod h) (handleBase h) e.segs).map fun r => (e.tok, r)
    match e.op with
    | .wld _ _ (.handle h) => at' h
    | .mma _ _ _ _ _ (.handle h) => at' h
    | _ => []) ++
  (k.mops.filterMap fun m =>
    if m.home.isSome || !m.segs.isEmpty then some (m.tok, ⟨k.asid, m.addr.toNat, m.len⟩) else none) ++
  (s.cmds.flatMap fun m => if m.core = c then
      (s.heldRange k.asid false (num m.block 0x10 8) m.child).map fun r => (m.tok, r)
    else []) ++
  s.colls.flatMap fun m => if m.core = c then m.segs.take 1 |>.map fun _ => (m.tok, ⟨k.asid, 0, 2 ^ 57⟩) else []

/-- The largest page that a translation of a VA may have: its first address and its size, else 64 KiB. -/
def State.pageRange (s : State) (asid root va : Nat) : Nat × Nat :=
  let size := (s.translations asid root va).foldl (fun n w => match w with
    | .leaf l _ => max n (leafSize l)
    | .fault .. => n) 65536
  (va / size * size, size)

/-- The cached entries of an address space that meet `n` bytes from a VA are dropped, and the strand waits for whoever still
holds a translation in a range (R194). -/
def State.dropTlb (s : State) (asid va n lo len : Nat) : State :=
  let pend := (List.range 512).flatMap fun c =>
    ((s.holders c).filter fun p => p.2.asid == asid && meets p.2.lo (max p.2.len 1) lo len).map fun p => (c, p.1)
  { s with tlb := s.tlb.filter fun t => !(t.asid == asid && meets t.page (levelSize t.level) va n) }.hold (.drained pend)

/-- TLBINV (R194). -/
def execTlbinv (h : Hdr) (a : Fin 32) (s : State) : Host.Outcome State Fault Refusal :=
  s.issueOn .q h fun s =>
    let va := s.rx a
    { accs := [rdx a 11]
      bits := wordFaults (.tlbinv h a)
      checks := val (field va 57 7 ≠ 0) 11 2
      go := fun s =>
        let r := s.pageRange s.here.asid s.here.root va.toNat
        s.dropTlb s.here.asid va.toNat 1 r.1 r.2 }

/-- TLBINVA (R194). -/
def execTlbinva (h : Hdr) (s : State) : Host.Outcome State Fault Refusal :=
  s.issueOn .q h fun s =>
    { bits := wordFaults (.tlbinva h)
      go := fun s => s.dropTlb s.here.asid 0 (2 ^ 57) 0 (2 ^ 57) }

/-! ## Write-back of lines (R137, R195) -/

/-- Copies of lines in every L1 and L2 are invalidated (R195). -/
def State.dropCopies (s : State) (lines : List Nat) : State :=
  { s with cached := s.cached.filter fun t => !(decide (t.place < 1024) && lines.contains t.line) }

/-- A write-back of lines follows the stores of its strand, those that a bundle puts before it, and the stores of the core's other
strands that may be performed, so that the query of R195's example reads the new row. -/
def State.cleanWait (s : State) : List Wait :=
  s.storesWait ++ if s.here.mops.any fun m => m.space == 0 && (match m.kind with
      | .store _ => true
      | .amo .. => true
      | _ => false) && s.mayPerform s.cur.core m
  then [.other] else []

/-- A word that writes the dirty lines of a range back, and with `inv` invalidates their copies; its next word waits for the
write-backs. -/
def State.cleanPlan (s : State) (i : Instr) (a b : Fin 32) (inv : Bool) : Plan :=
  let tok := s.tok * 512 + s.cur.core + 1
  let va := s.rx a
  let n := s.rx b
  let asid := s.here.asid
  let root := s.here.root
  let f := s.checkRange asid root PR va.toNat n.toNat
  { accs := [rdx a 11, rdx b 6]
    bits := wordFaults i
    waits := s.cleanWait
    checks := val (2 ^ 30 < n.toNat) 6 3
    fault := f.map fun x => ⟨x.synd, x.addr, memInfo 7 0 false PR n.toNat x, some x.addr, none⟩
    found := fun s => if n.toNat ≤ 2 ^ 30 then s.settleWalks asid root va.toNat n.toNat else s
    go := fun s =>
      let lines := if n = 0 then [] else s.linePas asid root va.toNat n.toNat
      let s1 := s.writeBackAll tok true lines
      (if inv then s1.dropCopies lines else s1).hold (.writeBacks tok) }

/-- CWB (R195). -/
def execCwb (h : Hdr) (a b : Fin 32) (s : State) : Host.Outcome State Fault Refusal :=
  s.issueOn .q h fun s => s.cleanPlan (.cwb h a b) a b false

/-- CINV (R195): the copies that it invalidates are clean, and a later access finds the same bytes at the home. -/
def execCinv (h : Hdr) (a b : Fin 32) (s : State) : Host.Outcome State Fault Refusal :=
  s.issueOn .q h fun s => s.cleanPlan (.cinv h a b) a b true

/-! ## Calls to the firmware (R26, R67, R196) -/

/-- The counter that a strand's next word waits on. -/
def Block.counterOf : Block → Option Word
  | .counter h .. => some h
  | .barrier h .. => some h
  | .remote h .. => some h
  | _ => Option.none

/-- The counters that a core's queues may still add to, or that its strands wait on. -/
def Core.counterUses (c : Core) : List Word :=
  c.withheld.map Prod.fst ++
    allStrands.flatMap fun k => [(c.strand k).block, (c.strand k).asideBlock].filterMap Block.counterOf

/-- The counters that a K-die's records, saved iterations and Awl runs may still add to, or wait on. -/
def KDie.counterUses (k : KDie) : List Word :=
  (k.recs.flatMap fun r => r.endH :: r.saved.flatMap fun x => x.adds.map (·.handle) ++ x.core.counterUses) ++
  (k.awl.runs.map fun r => r.req.k) ++ k.awl.graphq.map (·.k)

/-- The counters that a replay may still add to, or wait on. -/
def Replay.counterUses (r : Replay) : List Word :=
  r.done :: (r.nodes.drop r.next).flatMap fun b =>
    [blockCounter (gnWait b), gnDone b] ++ if gnKind b = 5 then [r.operand b 0] else []

/-- An agent of this module may still add to a counter, or waits on it, as far as what it holds shows (R67). -/
def State.counterInUse (s : State) (h : Word) : Bool :=
  h != noCounter && (s.adds.map (·.handle) ++ s.cmds.map (·.k) ++ s.colls.map (·.k) ++
    s.cores.flatMap (fun p => p.2.counterUses) ++ s.kdies.flatMap (fun p => p.2.counterUses) ++
    s.hub.graph.replays.flatMap Replay.counterUses).contains h

/-- A counter-reset request (R67): 0, 1 for an illegal handle, 2 where the holding module cannot be reached, which beyond this
module's own links is open here (log 2). -/
def State.resetCounter (s : State) (h : Word) (reachable : Bool) : Nat × State :=
  if 5 ≤ hScope h ∨ !handleOk h then (1, s)
  else if hModule h = s.hub.module then
    (0, { s with
      counters := sdel s.counters h.toNat
      badCounters := s.badCounters.filter (· ≠ h.toNat) })
  else if s.hub.sends (hModule h) && reachable then (0, s)
  else (2, s)

/-- The result of a function and the state after it (R196). -/
def State.firmware (s : State) (f : Nat) (x : Word) : Word × State :=
  match f with
  | 0 => (0, s)
  | 1 => (BitVec.ofNat 64 s.hub.boot.limit, s)
  | 2 =>
    let r := s.resetCounter x (s.free % 2 == 0)
    (BitVec.ofNat 64 r.1, r.2.drew)
  | 3 => (s.mapWord x.toNat, s)
  | 4 => (s.islandWord x.toNat, s)
  | _ => (BitVec.allOnes 64, s)

/-- FWCALL (R196): the next word waits for the result. A reset of a counter in use is an illegal operand use (R4, R67; log 72). -/
def execFwcall (h : Hdr) (d a b : Fin 32) (s : State) : Host.Outcome State Fault Refusal :=
  s.issueOn .q h fun s =>
    let tok := s.tok
    let f := s.rx a
    let x := s.rx b
    { accs := [wrx d 16, rdx a 11, rdx b 6]
      bits := wordFaults (.fwcall h d a b)
      checks := val (field f 16 48 ≠ 0) 11 2 ++ forbid (f.toNat = 2 ∧ s.counterInUse x = true) 6
      go := fun s =>
        let r := s.firmware f.toNat x
        (r.2.promiseX tok d r.1).hold (.result tok) }

end Sys2Proof.Machine
end

