-- ==== Sys2Proof/Machine/Shake.lean ====
section
/-! DEFINITION. SHAKE256 (FIPS 202), which R22, R27, R308 and R322 name: the permutation on five planes of five lanes of 64 bits,
with its constants from their generators, and the sponge of rate 136 bytes. -/

namespace Sys2Proof.Machine

/-! ## The permutation -/

/-- The first `n` places of the list come last. -/
def turned (n : Nat) (l : List Word) : List Word := l.drop n ++ l.take n

/-- The register that generates the round constants, one step on: eight bits, x^8 + x^6 + x^5 + x^4 + 1. -/
def rcStep (r : Nat) : Nat := if r < 128 then 2 * r else (2 * r) % 256 ^^^ 0x71

/-- A round's constant from the register's state at its start, and the state after it: its seven steps give bits 0, 1, 3, … 63. -/
def rcFrom (r : Nat) : Nat × Nat :=
  (List.range 7).foldl (fun p j => (p.1 + p.2 % 2 * 2 ^ (2 ^ j - 1), rcStep p.2)) (0, r)

/-- The constants of `n` rounds from a state of the register on. -/
def rcList : Nat → Nat → List Word
  | 0, _ => []
  | n + 1, r => BitVec.ofNat 64 (rcFrom r).1 :: rcList n (rcFrom r).2

/-- The walk over the places other than (0, 0): at step t, the lane at (x, y) is rotated by the t-th triangular number and moves to
(y, 2x + 3y). Each entry is the new place 5y + x, the old place and the rotation. -/
def laneWalk : Nat → Nat → Nat → Nat → List (Nat × Nat × Nat)
  | 0, _, _, _ => []
  | n + 1, t, x, y =>
    let z := (2 * x + 3 * y) % 5
    (5 * z + y, 5 * y + x, (t + 1) * (t + 2) / 2 % 64) :: laneWalk n (t + 1) y z

/-- Each lane takes the parities of two neighbouring columns. -/
def mixColumns (a : List (List Word)) : List (List Word) :=
  let p := a.foldl (List.zipWith (· ^^^ ·)) (List.replicate 5 0)
  let d := List.zipWith (fun u v : Word => u ^^^ v.rotateLeft 1) (turned 4 p) (turned 1 p)
  a.map (List.zipWith (· ^^^ ·) d)

/-- The lanes are rotated and moved. -/
def moveLanes (a : List (List Word)) : List (List Word) :=
  let l := a.flatten
  let w := laneWalk 24 0 1 0
  (List.range 5).map fun y => (List.range 5).map fun x =>
    match w.find? fun e => e.1 == 5 * y + x with
    | some e => (l.getD e.2.1 0).rotateLeft e.2.2
    | none => l.getD 0 0

/-- A plane's lanes are combined with the two after them. -/
def bendPlane (l : List Word) : List Word :=
  List.zipWith (· ^^^ ·) l (List.zipWith (fun u v : Word => ~~~u &&& v) (turned 1 l) (turned 2 l))

/-- One round with its constant, which changes lane (0, 0). -/
def spongeRound (a : List (List Word)) (rc : Word) : List (List Word) :=
  match (moveLanes (mixColumns a)).map bendPlane with
  | (u :: l) :: r => ((u ^^^ rc) :: l) :: r
  | b => b

/-- The 24 rounds. -/
def permute (a : List (List Word)) : List (List Word) := (rcList 24 1).foldl spongeRound a

/-! ## The sponge -/

/-- Five planes from bytes, by lanes in ascending order, with zeros after the last. -/
def planesOf (m : List Byte) : List (List Word) :=
  let lane := fun i => BitVec.ofNat 64 (((m.drop (8 * i)).take 8).foldr (fun b n => b.toNat + 256 * n) 0)
  (List.range 5).map fun y => (List.range 5).map fun x => lane (5 * y + x)

/-- The bytes of the rate. -/
def rateOf (a : List (List Word)) : List Byte :=
  ((a.flatten).take 17).flatMap fun w => (List.range 8).map fun i => BitVec.ofNat 8 (w.toNat >>> (8 * i))

/-- The state after `n` blocks of a padded message. -/
def soak : Nat → List (List Word) → List Byte → List (List Word)
  | 0, a, _ => a
  | n + 1, a, m => soak n (permute (List.zipWith (List.zipWith (· ^^^ ·)) a (planesOf (m.take 136)))) (m.drop 136)

/-- The bytes of `n` blocks of output. -/
def wring : Nat → List (List Word) → List Byte
  | 0, _ => []
  | n + 1, a => rateOf a ++ wring n (permute a)

/-- The padding after a message of `n` bytes: the suffix 1111 and 1, zeros, and a last 1 that ends the block. -/
def padTail (n : Nat) : List Byte :=
  (List.range (136 - n % 136)).map fun i =>
    (if i = 0 then 0x1F else 0) ^^^ if (n + i) % 136 = 135 then 0x80 else 0

/-- SHAKE256 of a message, `n` bytes long. -/
def shake256 (m : List Byte) (n : Nat) : List Byte :=
  (wring ((n + 135) / 136) (soak (m.length / 136 + 1) (planesOf []) (m ++ padTail m.length))).take n

end Sys2Proof.Machine
end

