-- ==== Sys2Proof/Machine/Awl.lean ====
section
/-! DEFINITION. The Awl: slots, draws, runs, admission, the window and every Awl word (R193, R296 to R310, R428, R429). -/

namespace Sys2Proof.Machine

/-! ## Slots -/

/-- A slot of an Awl. -/
def Awl.slot (a : Awl) (n : Nat) : AwlSlot := sget {} a.slots n

/-- Replace a slot. -/
def Awl.setSlot (a : Awl) (n : Nat) (x : AwlSlot) : Awl := { a with slots := sput a.slots n x }

/-- Register w. -/
def AwlSlot.wr (x : AwlSlot) (r : Nat) : W32 := sget 0 x.w r
/-- Register f. -/
def AwlSlot.fr (x : AwlSlot) (r : Nat) : W32 := sget 0 x.f r
/-- Register g. -/
def AwlSlot.gr (x : AwlSlot) (r : Nat) : Word := sget 0 x.g r
/-- Write register w. -/
def AwlSlot.setW (x : AwlSlot) (r : Nat) (v : W32) : AwlSlot := { x with w := sput x.w r v }
/-- Write register f. -/
def AwlSlot.setF (x : AwlSlot) (r : Nat) (v : W32) : AwlSlot := { x with f := sput x.f r v }

/-- CAP (R296). -/
def AwlSlot.cap (x : AwlSlot) : Nat := 512 * x.nblk

/-- A candidate of the first `n` lies in a marked block (R429). -/
def AwlSlot.badBelow (x : AwlSlot) (n : Nat) : Bool := x.badBlocks.any fun b => 512 * b < n

/-! ## Running words (R299, R300, R303, R428, R429) -/

/-- What an Awl word comes to. -/
inductive AwlRes where
  | go (x : AwlSlot)
  | jump (target : Int)
  | stop
  /-- AWLF with a cause and ADDR -/
  | fault (cause : Nat) (addr : Word)
  /-- AWLNUM -/
  | num
  deriving DecidableEq, Repr

/-- Replace the Awl of a K-die. -/
def State.setAwl (s : State) (d : Nat) (a : Awl) : State := s.setKdie d { s.kdie d with awl := a }

/-- A run ends: it leaves the Awl, and its counter takes a value. -/
def State.endRun (s : State) (d : Nat) (r : AwlRun) (v : Nat) : State :=
  let a := (s.kdie d).awl
  (s.setAwl d { a with runs := a.runs.filter fun (x : AwlRun) => x.req.slot ≠ r.req.slot }).postAdd (.awl (Fin.ofNat 8 d)) r.req.k v

/-- INFO of an Awl record (R429). -/
def awlInfo (pc slot gen cause : Nat) : Word := BitVec.ofNat 64 (pc % 8192 + 2 ^ 16 * slot + 2 ^ 24 * gen + 2 ^ 40 * cause)

/-- An Awl fault ends a run (R428, R429). -/
def State.awlFault (s : State) (d : Nat) (r : AwlRun) (cause : Nat) (addr : Word) : State :=
  (s.record d d 6 r.req.slot AWLF 3 true false addr (awlInfo r.pc r.req.slot r.req.gen cause)).endRun d r (2 ^ 32)

/-- A numerical fault ends a run (R428, R429). -/
def State.awlNumFault (s : State) (d : Nat) (r : AwlRun) : State :=
  (s.record d d 6 r.req.slot AWLNUM 3 false false r.req.arg (awlInfo r.pc r.req.slot r.req.gen 0)).endRun d r (2 ^ 32)

/-- A run continues at a word index with its slot; words beyond 8,191 are a range fault at the word that led there (R304). -/
def State.awlContinue (s : State) (d : Nat) (r : AwlRun) (x : AwlSlot) (pc : Nat) : State :=
  let a := (s.kdie d).awl
  let s1 := s.setAwl d ((({ a with runs := a.runs.map fun (y : AwlRun) =>
    if y.req.slot = r.req.slot then { y with pc := pc } else y } : Awl)).setSlot r.req.slot x)
  if pc < 8192 then s1 else s1.awlFault d r 3 r.req.arg

/-- What a word comes to takes effect. -/
def State.awlSettle (s : State) (d : Nat) (r : AwlRun) : AwlRes → State
  | .go x => s.awlContinue d r x (r.pc + 1)
  | .jump t =>
    if 0 ≤ t ∧ t < 8192 then s.awlContinue d r ((s.kdie d).awl.slot r.req.slot) t.toNat
    else s.awlFault d r 3 r.req.arg
  | .stop => s.endRun d r 1
  | .fault c a => s.awlFault d r c a
  | .num => s.awlNumFault d r

/-- The run on a slot of a K-die's Awl. -/
def Awl.runOn (a : Awl) (slot : Nat) : Option AwlRun := a.runs.find? fun r => r.req.slot == slot

/-- The Awl word being run: bits at fault end the run, else its effect on the slot and the memory. -/
def State.awlRun (s : State) (i : Instr) (f : AwlRun → AwlSlot → State × AwlRes) : Host.Outcome State Fault Refusal :=
  let d := s.cur.die
  match (s.kdie d).awl.runOn s.cur.slot with
  | none => .next s
  | some r =>
    if (s.cur.format ++ wordFaults i).isEmpty then
      let q := f r ((s.kdie d).awl.slot r.req.slot)
      .next (q.1.awlSettle d r q.2)
    else .next (s.awlFault d r 0 r.req.arg)

/-- A word of an Awl program that is reserved (R304). -/
def State.awlReserved (s : State) (d slot : Nat) : State :=
  match (s.kdie d).awl.runOn slot with
  | none => s
  | some r => s.awlFault d r 0 r.req.arg

/-- A word that changes its slot only. -/
def State.awlPure (s : State) (i : Instr) (f : AwlSlot → AwlSlot) : Host.Outcome State Fault Refusal :=
  s.awlRun i fun _ x => (s, .go (f x))

/-- A word that changes its slot only, or fails. -/
def State.awlTry (s : State) (i : Instr) (f : AwlRun → AwlSlot → AwlRes) : Host.Outcome State Fault Refusal :=
  s.awlRun i fun r x => (s, f r x)

/-! ## Integer and F32 words (R304) -/

/-- AWL_ADD (R304). -/
def execAwlAdd (d a b : Fin 16) (s : State) : Host.Outcome State Fault Refusal :=
  s.awlPure (.awlAdd d a b) fun x => x.setW d (x.wr a + x.wr b)

/-- AWL_SUB (R304). -/
def execAwlSub (d a b : Fin 16) (s : State) : Host.Outcome State Fault Refusal :=
  s.awlPure (.awlSub d a b) fun x => x.setW d (x.wr a - x.wr b)

/-- AWL_AND (R304). -/
def execAwlAnd (d a b : Fin 16) (s : State) : Host.Outcome State Fault Refusal :=
  s.awlPure (.awlAnd d a b) fun x => x.setW d (x.wr a &&& x.wr b)

/-- AWL_SHR (R304). -/
def execAwlShr (d a b : Fin 16) (s : State) : Host.Outcome State Fault Refusal :=
  s.awlPure (.awlShr d a b) fun x => x.setW d (x.wr a >>> ((x.wr b).toNat % 32))

/-- AWL_SLT (R304). -/
def execAwlSlt (d a b : Fin 16) (s : State) : Host.Outcome State Fault Refusal :=
  s.awlPure (.awlSlt d a b) fun x => x.setW d (if (x.wr a).slt (x.wr b) then 1 else 0)

/-- The 14-bit immediate, sign-extended. -/
def imm14 (i : Nat) : Int := (BitVec.ofNat 14 i).toInt

/-- AWL_ADDI (R304). -/
def execAwlAddi (d a : Fin 16) (i : Fin 16384) (s : State) : Host.Outcome State Fault Refusal :=
  s.awlPure (.awlAddi d a i) fun x => x.setW d (x.wr a + BitVec.ofInt 32 (imm14 i))

/-- AWL_WLI (R304). -/
def execAwlWli (d : Fin 16) (i : Fin 262144) (s : State) : Host.Outcome State Fault Refusal :=
  s.awlPure (.awlWli d i) fun x => x.setW d (BitVec.ofInt 32 (BitVec.ofNat 18 i.val).toInt)

/-- AWL_FADD (R80, R304). -/
def execAwlFadd (d a b : Fin 16) (s : State) : Host.Outcome State Fault Refusal :=
  s.awlPure (.awlFadd d a b) fun x => x.setF d (addF (x.fr a) (x.fr b))

/-- AWL_FMUL (R80, R304). -/
def execAwlFmul (d a b : Fin 16) (s : State) : Host.Outcome State Fault Refusal :=
  s.awlPure (.awlFmul d a b) fun x => x.setF d (mulF (x.fr a) (x.fr b))

/-- AWL_FMAX (R201, R304). -/
def execAwlFmax (d a b : Fin 16) (s : State) : Host.Outcome State Fault Refusal :=
  s.awlPure (.awlFmax d a b) fun x => x.setF d (maxF (x.fr a) (x.fr b))

/-- AWL_FRCP (R89, R304). -/
def execAwlFrcp (d a : Fin 16) (s : State) : Host.Outcome State Fault Refusal :=
  s.awlPure (.awlFrcp d a) fun x => x.setF d (recipF (x.fr a))

/-- AWL_FEXP2 (R87, R304). -/
def execAwlFexp2 (d a : Fin 16) (s : State) : Host.Outcome State Fault Refusal :=
  s.awlPure (.awlFexp2 d a) fun x => x.setF d (exp2F (x.fr a))

/-- AWL_FLOG2 (R88, R304). -/
def execAwlFlog2 (d a : Fin 16) (s : State) : Host.Outcome State Fault Refusal :=
  s.awlPure (.awlFlog2 d a) fun x => x.setF d (log2F (x.fr a))

/-- AWL_FCVT (R80, R304). -/
def execAwlFcvt (d a : Fin 16) (s : State) : Host.Outcome State Fault Refusal :=
  s.awlPure (.awlFcvt d a) fun x => x.setF d (intF (x.wr a).toInt)

/-- AWL_FINT (R81, R304). -/
def execAwlFint (d a : Fin 16) (s : State) : Host.Outcome State Fault Refusal :=
  s.awlPure (.awlFint d a) fun x => x.setW d (BitVec.ofInt 32 (Num.toInt 32 (f32 (x.fr a))))

/-- AWL_FBITS (R304). -/
def execAwlFbits (d a : Fin 16) (s : State) : Host.Outcome State Fault Refusal :=
  s.awlPure (.awlFbits d a) fun x => x.setF d (x.wr a)

/-- AWL_WBITS (R304). -/
def execAwlWbits (d a : Fin 16) (s : State) : Host.Outcome State Fault Refusal :=
  s.awlPure (.awlWbits d a) fun x => x.setW d (x.fr a)

/-! ## Memory words (R119, R304, R305, R308, R428) -/

/-- The address ARG + an unsigned 32-bit offset + an immediate. -/
def awlAddr (r : AwlRun) (off : W32) (imm : Int) : Word := r.req.arg + off.setWidth 64 + BitVec.ofInt 64 imm

/-- The cause of a fault of memory (R429). -/
def awlCause (synd : Nat) : Nat := if synd = PERM then 5 else if synd = UCE ∨ synd = POISON then 6 else 4

/-- An ordinary read of a run: its bytes, or a fault, with the marks that it leaves. -/
def State.awlRead (s : State) (r : AwlRun) (a : Word) (n : Nat) : State × Except (Nat × Word) (List Byte) :=
  let b := s.readBlock 0 r.req.asid r.req.root a.toNat n PR
  match b.fault with
  | some f => (b.found s, .error (awlCause f.synd, f.addr))
  | none => (b.found s, .ok b.bytes)

/-- An ordinary write of a run. -/
def State.awlWrite (s : State) (r : AwlRun) (a : Word) (bytes : List Byte) : State × Option (Nat × Word) :=
  match s.checkRange r.req.asid r.req.root PW a.toNat bytes.length with
  | some f => (s, some (awlCause f.synd, f.addr))
  | none => (s.writeVa (512 + s.cur.die) r.req.asid r.req.root a.toNat bytes, none)

/-- AWL_LW (R304). -/
def execAwlLw (d a : Fin 16) (i : Fin 16384) (s : State) : Host.Outcome State Fault Refusal :=
  s.awlRun (.awlLw d a i) fun r x =>
    let v := awlAddr r (x.wr a) (imm14 i)
    if v.toNat % 4 ≠ 0 then (s, .fault 3 v)
    else
      match s.awlRead r v 4 with
      | (s1, .ok b) => (s1, .go (x.setW d (BitVec.ofNat 32 (ofBytes b))))
      | (s1, .error e) => (s1, .fault e.1 e.2)

/-- AWL_SW (R304). -/
def execAwlSw (d a : Fin 16) (i : Fin 16384) (s : State) : Host.Outcome State Fault Refusal :=
  s.awlRun (.awlSw d a i) fun r x =>
    let v := awlAddr r (x.wr a) (imm14 i)
    if v.toNat % 4 ≠ 0 then (s, .fault 3 v)
    else
      match s.awlWrite r v (bytesOf 4 (x.wr d).toNat) with
      | (s1, none) => (s1, .go x)
      | (s1, some e) => (s1, .fault e.1 e.2)

/-- AWL_CLD (R305, R429): loading into a marked block clears its mark. -/
def execAwlCld (a b : Fin 16) (s : State) : Host.Outcome State Fault Refusal :=
  s.awlRun (.awlCld a b) fun r x =>
    let v := awlAddr r (x.wr a) 0
    let n := (x.wr b).toNat
    if (x.wr a).toNat % 8 ≠ 0 then (s, .fault 3 v)
    else if x.cap < n then (s, .fault 3 r.req.arg)
    else
      match s.awlRead r v (8 * n) with
      | (s1, .ok bs) =>
        let at' := fun (o : Nat) => BitVec.ofNat 32 (num bs o 4)
        (s1, .go { x with
          cands := (List.range n).map fun i => (at' (8 * i), at' (8 * i + 4))
          badBlocks := x.badBlocks.filter fun k => n ≤ 512 * k
          scrubbed := x.scrubbed.filter fun k => n ≤ 512 * k })
      | (s1, .error e) => (s1, .fault e.1 e.2)

/-- The token record (R308). -/
def tokenRecord (tok : W32) (slot die gen : Nat) (draw : Word) : List Byte :=
  bytesOf 4 tok.toNat ++ bytesOf 1 slot ++ bytesOf 1 die ++ bytesOf 2 gen ++ bytesOf 8 draw.toNat

/-- AWL_TOK (R308): one store of one granule. ARG is a multiple of 8 alone: a record that no aligned granule holds ends the run with cause 3
(DESIGN CHOICE, log 92). -/
def execAwlTok (a b : Fin 16) (s : State) : Host.Outcome State Fault Refusal :=
  s.awlRun (.awlTok a b) fun r x =>
    let v := awlAddr r (x.wr b) 0
    if (x.wr b).toNat % 16 ≠ 0 ∨ v.toNat % 16 ≠ 0 then (s, .fault 3 v)
    else
      match s.awlWrite r v (tokenRecord (x.wr a) r.req.slot s.cur.die x.gen x.draw) with
      | (s1, none) => (s1, .go x)
      | (s1, some e) => (s1, .fault e.1 e.2)

/-! ## Branches (R304) -/

/-- A branch. -/
def State.awlBranch (s : State) (i : Instr) (c : AwlSlot → Bool) (off : Int) : Host.Outcome State Fault Refusal :=
  s.awlTry i fun r x => if c x then .jump (r.pc + off) else .go x

/-- AWL_BEQ (R304). -/
def execAwlBeq (a b : Fin 16) (o : Fin 16384) (s : State) : Host.Outcome State Fault Refusal :=
  s.awlBranch (.awlBeq a b o) (fun x => x.wr a == x.wr b) (imm14 o)

/-- AWL_BNE (R304). -/
def execAwlBne (a b : Fin 16) (o : Fin 16384) (s : State) : Host.Outcome State Fault Refusal :=
  s.awlBranch (.awlBne a b o) (fun x => x.wr a != x.wr b) (imm14 o)

/-- AWL_BLT (R304). -/
def execAwlBlt (a b : Fin 16) (o : Fin 16384) (s : State) : Host.Outcome State Fault Refusal :=
  s.awlBranch (.awlBlt a b o) (fun x => (x.wr a).slt (x.wr b)) (imm14 o)

/-- AWL_JMP (R304). -/
def execAwlJmp (o : Fin 67108864) (s : State) : Host.Outcome State Fault Refusal :=
  s.awlBranch (.awlJmp o) (fun _ => true) (BitVec.ofNat 26 o.val).toInt

/-- AWL_STOP (R300, R304). -/
def execAwlStop (s : State) : Host.Outcome State Fault Refusal := s.awlTry .awlStop fun _ _ => .stop

/-! ## Candidates (R306, R307, R309) -/

/-- A candidate goes before another: greater logit, then smaller token id (R306). -/
def candBefore (a b : W32 × W32) : Bool :=
  (f32 b.2).ltNum (f32 a.2) || ((f32 a.2).eqNum (f32 b.2) && a.1.toNat < b.1.toNat)

/-- Insert a candidate before the first that it goes before; equal ones keep their order. -/
def insertCand (c : W32 × W32) : List (W32 × W32) → List (W32 × W32)
  | [] => [c]
  | x :: r => if candBefore c x then c :: x :: r else x :: insertCand c r

/-- The candidates in the order of R306. -/
def sortCands (l : List (W32 × W32)) : List (W32 × W32) := l.foldl (fun acc c => insertCand c acc) []

/-- AWL_CTOPK (R306, R428). -/
def execAwlCtopk (a : Fin 16) (s : State) : Host.Outcome State Fault Refusal :=
  s.awlTry (.awlCtopk a) fun r x =>
    let k := (x.wr a).toNat
    if k = 0 ∨ 4096 < k then .fault 3 r.req.arg
    else if x.badBelow x.cands.length then .fault 6 r.req.arg
    else if x.cands.any fun c => (f32 c.2).isNan then .num
    else .go { x with cands := (sortCands x.cands).take k }

/-- The running sums of a pick: for each candidate its e and its sum (R307). -/
def pickSums (m fa : W32) (S : W32) : List (W32 × W32) → List (W32 × W32)
  | [] => []
  | c :: r =>
    let e := exp2F (((f32 c.2).add (f32 m).neg).mul (f32 fa)).toF32
    let S1 := addF S e
    (e, S1) :: pickSums m fa S1 r

/-- A NaN arises in a pick's terms. -/
def pickNan (m fa : W32) (l : List (W32 × W32)) (sums : List (W32 × W32)) : Bool :=
  (l.any fun c => (((f32 c.2).add (f32 m).neg).mul (f32 fa)).isNan) || sums.any fun p => (f32 p.1).isNan || (f32 p.2).isNan

/-- bits[63:40] × 2^-24, exact (R307, R308). -/
def drawF (g : Word) : W32 := (Dy.num ⟨(field g 40 24 : Nat), -24⟩).toF32

/-- AWL_CPICK (R307, R428). -/
def execAwlCpick (d a b : Fin 16) (s : State) : Host.Outcome State Fault Refusal :=
  s.awlTry (.awlCpick d a b) fun r x =>
    let fa := x.fr a
    if x.badBelow x.cands.length then .fault 6 r.req.arg
    else
      match x.cands with
      | [] => .num
      | c :: l =>
        if (c :: l).any fun q => (f32 q.2).isNan then .num
        else
          let m := l.foldl (fun v q => maxF v q.2) c.2
          let sums := pickSums m fa 0 (c :: l)
          let S := (sums.map Prod.snd).getLastD 0
          let target := mulF (drawF (x.gr b)) S
          if pickNan m fa (c :: l) sums || (f32 target).isNan then .num
          else
            let hit := (List.range sums.length).find? fun i => (f32 target).ltNum (f32 (sums.getD i (0, 0)).2)
            let last := (List.range sums.length).reverse.find? fun i => (sums.getD i (0, 0)).1 != 0
            .go (x.setW d (BitVec.ofNat 32 ((hit.or last).getD 0)))

/-- AWL_CGET (R304). -/
def execAwlCget (d a b : Fin 16) (s : State) : Host.Outcome State Fault Refusal :=
  s.awlTry (.awlCget d a b) fun r x =>
    let n := (x.wr b).toNat
    match x.cands[n]? with
    | none => .fault 3 r.req.arg
    | some c => if x.badBlocks.contains (n / 512) then .fault 6 r.req.arg else .go ((x.setW d c.1).setF a c.2)

/-! ## Draws (R298, R308) -/

/-- A draw: the first 64 bits of SHAKE256 of KEY, die, slot and DRAW (R298). -/
def awlDraw (x : AwlSlot) (die slot : Nat) : Word :=
  wordOf (shake256 (x.key ++ [BitVec.ofNat 8 die, BitVec.ofNat 8 slot] ++ bytesOf 8 x.draw.toNat) 8)

/-- AWL_RDRAW (R298, R308). -/
def execAwlRdraw (d a : Fin 16) (s : State) : Host.Outcome State Fault Refusal :=
  s.awlTry (.awlRdraw d a) fun r x =>
    let v := awlDraw x s.cur.die r.req.slot
    .go ({ x with g := sput x.g a v, draw := x.draw + 1 }.setF d (drawF v))

/-! ## Penalties and draft trees (R309, R310) -/

/-- The base count of a token. -/
def AwlSlot.base (x : AwlSlot) (t : W32) : Nat := ((x.pen.find? fun p => p.1 == t).map Prod.snd).getD 0

/-- `padd` of a value: the new count, none where the table is full (R309). -/
def AwlSlot.penalise (x : AwlSlot) (t : W32) (v : Nat) : Option Nat × AwlSlot :=
  let n := min (x.base t + v) 65535
  if x.pen.any fun p => p.1 == t then
    (some n, { x with pen := x.pen.map fun p => if p.1 = t then (t, n) else p })
  else if x.pen.length < 1024 then (some n, { x with pen := x.pen ++ [(t, n)] })
  else (none, x)

/-- AWL_PADD (R309). -/
def execAwlPadd (d a b : Fin 16) (s : State) : Host.Outcome State Fault Refusal :=
  s.awlPure (.awlPadd d a b) fun x =>
    let q := x.penalise (x.wr a) ((x.wr b).toNat % 65536)
    q.2.setW d (match q.1 with
      | some n => BitVec.ofNat 32 n
      | none => 0xFFFFFFFF)

/-- The nodes from the root to node n, root first (R310). -/
def AwlSlot.path (x : AwlSlot) : Nat → Nat → List Nat
  | 0, _ => []
  | fuel + 1, n =>
    match x.tree[n]? with
    | none => []
    | some (_, none) => [n]
    | some (_, some p) => x.path fuel p ++ [n]

/-- The tokens from the root to node n, root first. -/
def AwlSlot.pathTokens (x : AwlSlot) (n : Nat) : List W32 := (x.path 64 n).map fun i => (x.tree.getD i (0, none)).1

/-- The node that a register names: −1 for none, or an existing node (R309, R310). -/
def AwlSlot.node (x : AwlSlot) (v : W32) : Option (Option Nat) :=
  if v = 0xFFFFFFFF then some none
  else if v.toNat < x.tree.length then some (some v.toNat)
  else none

/-- A penalised logit, rounded once (R309). A factor of zero that takes part is a term with its sign, which shows in a sum that is exactly
zero (DESIGN CHOICE, log 93). -/
def penalLogit (l fa fb : W32) (c : Nat) : W32 :=
  if c = 0 then l
  else (((f32 l).add (f32 fa).neg).add ((f32 fb).mul (Dy.int c).num).neg).toF32

/-- AWL_CPEN (R309). -/
def execAwlCpen (d a b : Fin 16) (s : State) : Host.Outcome State Fault Refusal :=
  s.awlTry (.awlCpen d a b) fun r x =>
    match x.node (x.wr d) with
    | none => .fault 3 r.req.arg
    | some n =>
      if x.badBelow x.cands.length then .fault 6 r.req.arg
      else
        let ts := match n with
          | some i => x.pathTokens i
          | none => []
        .go { x with cands := x.cands.map fun c =>
          (c.1, penalLogit c.2 (x.fr a) (x.fr b) (min 65535 (x.base c.1 + ts.count c.1))) }

/-- AWL_DNODE (R310). -/
def execAwlDnode (d a b : Fin 16) (s : State) : Host.Outcome State Fault Refusal :=
  s.awlTry (.awlDnode d a b) fun r x =>
    match x.node (x.wr b) with
    | none => .fault 3 r.req.arg
    | some p =>
      if 64 ≤ x.tree.length then .fault 3 r.req.arg
      else .go ({ x with tree := x.tree ++ [(x.wr a, p)] }.setW d (BitVec.ofNat 32 x.tree.length))

/-- The deepest node whose whole path is accepted, the lower index among equals (R310). -/
def AwlSlot.best (x : AwlSlot) (accepted : Nat) : Option Nat :=
  ((List.range x.tree.length).filter fun n => (x.path 64 n).all (bitOf accepted)).foldl (fun b n =>
    match b with
    | none => some n
    | some m => if (x.path 64 m).length < (x.path 64 n).length then some n else some m) none

/-- AWL_DBEST (R310). -/
def execAwlDbest (d a b : Fin 16) (s : State) : Host.Outcome State Fault Refusal :=
  s.awlPure (.awlDbest d a b) fun x =>
    x.setW d (match x.best ((x.wr a).toNat + 2 ^ 32 * (x.wr b).toNat) with
      | some n => BitVec.ofNat 32 n
      | none => 0xFFFFFFFF)

/-- The tokens of a committed path are counted; the number that a full table could not record. -/
def AwlSlot.commit (x : AwlSlot) (ts : List W32) : Nat × AwlSlot :=
  ts.foldl (fun q t =>
    let p := q.2.penalise t 1
    (if p.1.isNone then q.1 + 1 else q.1, p.2)) (0, x)

/-- AWL_DCOMMIT (R310). -/
def execAwlDcommit (d a : Fin 16) (s : State) : Host.Outcome State Fault Refusal :=
  s.awlTry (.awlDcommit d a) fun r x =>
    match x.node (x.wr a) with
    | none => .fault 3 r.req.arg
    | some none => .go ({ x with tree := [] }.setW d 0)
    | some (some n) =>
      let q := x.commit (x.pathTokens n)
      .go ({ q.2 with tree := [] }.setW d (BitVec.ofNat 32 q.1))

/-! ## Starting runs (R299 to R301) -/

/-- A place among the Awl's queues: the source (4 × core + strand, or 256 for the graph engine) and the position. -/
def awlPlace (i : Nat) : Nat × Nat := (i % 257, i / 257)

/-- The queue of a source. -/
def State.awlQueue (s : State) (d src : Nat) : List AwlReq :=
  if src = 256 then (s.kdie d).awl.graphq else sget [] (s.core (64 * d + src / 4)).awlq (src % 4)

/-- Replace the queue of a source. -/
def State.setAwlQueue (s : State) (d src : Nat) (q : List AwlReq) : State :=
  if src = 256 then s.setAwl d { (s.kdie d).awl with graphq := q }
  else
    let c := 64 * d + src / 4
    let k := s.core c
    s.setCore c { k with awlq := sput k.awlq (src % 4) q }

/-- The requests of a die's queues. -/
def State.awlQueues (s : State) (d : Nat) : List AwlReq := (List.range 257).flatMap (s.awlQueue d)

/-- Requests are taken in their order, from number n on: the requests and the next number (R299). -/
def takeRuns (n : Nat) : List AwlReq → List AwlReq × Nat
  | [] => ([], n)
  | r :: l =>
    match r.taken with
    | some _ => (r :: (takeRuns n l).1, (takeRuns n l).2)
    | none => ({ r with taken := some n } :: (takeRuns (n + 1) l).1, (takeRuns (n + 1) l).2)

/-- A request leaves its queue; those before it in the queue have been taken (R299). -/
def State.dropRun (s : State) (d src pos : Nat) : State :=
  let q := s.awlQueue d src
  let t := takeRuns (s.kdie d).awl.takes (q.take pos)
  let s1 := s.setAwlQueue d src (t.1 ++ q.drop (pos + 1))
  s1.setAwl d { (s1.kdie d).awl with takes := t.2 }

/-- The strand of a source. -/
def awlSource (d src : Nat) : Option (Nat × StrandId) :=
  if src = 256 then none else some (64 * d + src / 4, allStrands.getD (src % 4) .q)

/-- A request precedes another on its slot: it was taken earlier (R299). -/
def AwlReq.precedes (x r : AwlReq) : Bool :=
  x.slot == r.slot && x.taken.any fun n => match r.taken with
    | some m => decide (n < m)
    | none => true

/-- A request that may start: the Awl is ready and not held, fewer than 8 runs execute, none on its slot and no run on its slot
that was taken earlier waits, and the accesses before the `awlrun` have been performed (R299, R300). -/
def State.startable (s : State) (d i : Nat) : Option AwlReq :=
  let p := awlPlace i
  let a := (s.kdie d).awl
  let q := s.awlQueue d p.1
  match q[p.2]? with
  | none => none
  | some r =>
    let settled := match awlSource d p.1 with
      | some (c, k) => !(s.core c).olderMop k r.tok
      | none => true
    if s.isReady (.awl (Fin.ofNat 8 d)) && !a.hold && a.runs.length < 8 && (a.runOn r.slot).isNone && settled &&
        (q.take p.2).all (fun x => x.slot != r.slot) && !(s.awlQueues d).any (fun x => x.precedes r) then some r
    else none

/-- AWL_RUN_START (R193, R300, R301). -/
def execAwlRunStart (d : Fin 8) (i : Nat) (s : State) : Host.Outcome State Fault Refusal :=
  match s.startable d i with
  | none => .next s
  | some r =>
    let p := awlPlace i
    let s1 := s.dropRun d p.1 p.2
    let a := (s1.kdie d).awl
    let x := a.slot r.slot
    let run : AwlRun := ⟨r, awlSource d p.1, r.entry⟩
    if 0xFFFE ≤ r.entry then .next s
    else if r.gen ≠ x.gen ∨ (r.entry < 8192 ∧ x.occ = false) then .next s1
    else if 8192 ≤ r.entry then .next (s1.awlFault d run 1 r.arg)
    else .next (s1.setAwl d { a with runs := a.runs ++ [run] })

/-- The admission record breaks R301. -/
def admissionBad (b : List Byte) : Bool := num b 32 1 = 0 || 8 < num b 32 1 || nonZero b 33 7 || nonZero b 48 16

/-- ADMIT (R301). -/
def execAwlAdmit (d : Fin 8) (i : Nat) (s : State) : Host.Outcome State Fault Refusal :=
  match s.startable d i with
  | none => .next s
  | some r =>
    let p := awlPlace i
    let s1 := s.dropRun d p.1 p.2
    let x := (s1.kdie d).awl.slot r.slot
    let run : AwlRun := ⟨r, awlSource d p.1, r.entry⟩
    if r.entry ≠ 0xFFFF then .next s
    else if r.gen ≠ x.gen then .next s1
    else if r.arg.toNat % 64 ≠ 0 then .next (s1.awlFault d run 2 r.arg)
    else
      match s1.awlRead run r.arg 64 with
      | (s2, .error e) => .next (s2.awlFault d run e.1 e.2)
      | (s2, .ok b) =>
        let n := num b 32 1
        let a := (s2.kdie d).awl
        if admissionBad b then .next (s2.awlFault d run 2 r.arg)
        else if x.occ = true ∨ a.freeBlk < n then .next (s2.postAdd (.awl (Fin.ofNat 8 d)) r.k (2 ^ 32))
        else
          let x1 : AwlSlot :=
            { occ := true, gen := (x.gen + 1) % 65536, key := b.take 32, draw := BitVec.ofNat 64 (num b 40 8), nblk := n }
          .next ((s2.setAwl d ({ a with freeBlk := a.freeBlk - n }.setSlot r.slot x1)).postAdd (.awl (Fin.ofNat 8 d)) r.k 1)

/-- RETIRE (R301). -/
def execAwlRetire (d : Fin 8) (i : Nat) (s : State) : Host.Outcome State Fault Refusal :=
  match s.startable d i with
  | none => .next s
  | some r =>
    let p := awlPlace i
    let s1 := s.dropRun d p.1 p.2
    let a := (s1.kdie d).awl
    let x := a.slot r.slot
    if r.entry ≠ 0xFFFE then .next s
    else if r.gen ≠ x.gen then .next s1
    else .next ((s1.setAwl d ({ a with freeBlk := a.freeBlk + x.nblk }.setSlot r.slot { gen := x.gen })).postAdd (.awl (Fin.ofNat 8 d)) r.k 1)

/-! ## The Awl window (R302) -/

/-- AWL_PROGRAM_WORD_WRITE (R302, R429): a write while a run may execute is dropped with a record. -/
def execAwlProgramWordWrite (d : Fin 8) (i : Nat) (w : W32) (s : State) : Host.Outcome State Fault Refusal :=
  let a := (s.kdie d).awl
  if 8192 ≤ i ∨ s.hostReach = false then .next s
  else if a.hold ∧ a.runs.isEmpty then .next (s.setAwl d { a with prog := sput a.prog i w })
  else
    .next (s.record d d 6 0xFFFF AWLF 3 true false (BitVec.ofNat 64 (0x40000 + d.val * 0x10000 + 4 * i))
      (BitVec.ofNat 64 (i + 7 * 2 ^ 40)))

/-- AWLCTL_WRITE (R302). -/
def execAwlctlWrite (d : Fin 8) (w : Word) (s : State) : Host.Outcome State Fault Refusal :=
  let a := (s.kdie d).awl
  .next (if s.hostReach then s.setAwl d { a with hold := bitOf w.toNat 0 } else s)

end Sys2Proof.Machine
end

