-- ==== Sys2Proof/Machine/Graph.lean ====
section
/-! DEFINITION. The command graph: latching a replay, its nodes, its end and its faults (R311 to R314, R430 to R432). -/

namespace Sys2Proof.Machine

/-! ## The graph record (R311) -/

/-- A handle field of the record is 0 or a legal handle. -/
def optionalHandle (b : List Byte) (o : Nat) : Bool :=
  let h := BitVec.ofNat 64 (num b o 8)
  h == 0 || (hScope h < 5 && handleOk h)

/-- The operands that a kind uses. -/
def kindOperands : Nat → Nat
  | 1 => 1
  | 2 => 1
  | 3 => 4
  | _ => 2

/-- A node that keeps to R311. -/
def nodeOk (b : GraphNode) : Bool :=
  let k := gnKind b
  1 ≤ k && k ≤ 5 && gnDie b ≤ 7 && (if k = 3 then gnCore b ≤ 63 else gnCore b == 0) && num b 3 1 < 16 &&
  optionalHandle b 8 && optionalHandle b 0x18 &&
  (List.range 4).all fun i => i < kindOperands k || num b (0x20 + 8 * i) 8 == 0

/-- A header that keeps to R311. -/
def graphHeaderOk (b : List Byte) : Bool :=
  num b 0 4 == 0x47524146 && 1 ≤ num b 4 2 && num b 4 2 ≤ 4096 && num b 6 2 == 0 && optionalHandle b 8 && !nonZero b 0x10 48

/-! ## Latching (R312, R313) -/

/-- Replace the graph engine. -/
def State.setGraph (s : State) (g : Graph) : State := { s with hub := { s.hub with graph := g } }

/-- GFAULT (R431). -/
def gfaultWord (node synd reason gen : Nat) : Word :=
  BitVec.ofNat 64 (node + 2 ^ 16 * synd + 2 ^ 24 * reason + 2 ^ 32 * gen)

/-- A graph fault: FAULT, GFAULT and the record on hub die 16 (R430, R431). -/
def State.graphFault (s : State) (node synd reason gen : Nat) (va : Word) : State :=
  let w := gfaultWord node synd reason gen
  (s.setGraph { s.hub.graph with fault := true, gfault := w }).record 16 16 18 0 GRAPHF 3 true false va w

/-- What reading the record comes to: a syndrome and REASON, or DONE and the nodes, with the marks that the read leaves. -/
structure GraphRead where
  synd : Nat
  reason : Nat
  done : Word
  nodes : List GraphNode
  found : State → State

/-- The graph record is read as a control block (R134, R313). -/
def State.readGraph (s : State) (va : Word) : GraphRead :=
  let g := s.hub.graph
  let h := s.readBlock 6 g.asid g.root va.toNat 64 PR
  let n := num h.bytes 4 2
  let bad := fun (synd reason : Nat) (f : State → State) => GraphRead.mk synd reason 0 [] f
  if va.toNat % 128 ≠ 0 then bad ILLOP 5 id
  else
    match h.fault with
    | some f => bad f.synd 0 h.found
    | none =>
      if !graphHeaderOk h.bytes then bad ILLOP 11 h.found
      else
        let b := s.readBlock 6 g.asid g.root (va.toNat + 64) (64 * n) PR
        let found := fun t => b.found (h.found t)
        match b.fault with
        | some f => bad f.synd 0 found
        | none =>
          let nodes := (List.range n).map fun i => (b.bytes.drop (64 * i)).take 64
          if nodes.all nodeOk then ⟨0, 0, blockCounter (BitVec.ofNat 64 (num h.bytes 8 8)), nodes, found⟩ else bad ILLOP 11 found

/-- A replay still has nodes to dispatch. -/
def Replay.busy (r : Replay) : Bool := !r.faulted && r.next < r.nodes.length

/-- GCTL_GO (R312, R313, R430): a replay latches, or DROP or FAULT is set. -/
def execGctlGo (s : State) : Host.Outcome State Fault Refusal :=
  let g := s.hub.graph
  if s.graphDown.isSome ∨ s.hostReach = false then .next s
  else if 2 ≤ g.replays.length then .next (s.setGraph { g with drop := true })
  else
    let gen := (g.gen + 1) % 2 ^ 32
    let r := s.readGraph g.grec
    let s1 := r.found (s.setGraph { g with gen := gen })
    let g1 := s1.hub.graph
    if r.synd ≠ 0 then .next (s1.graphFault 0x1FFF r.synd r.reason gen g.grec)
    else
      let p : Replay :=
        { gen := gen, recVa := g.grec, done := r.done, nodes := r.nodes, snapshot := g1.gp, since := s.now }
      .next (s1.setGraph { g1 with
        replays := g1.replays ++ [p], gnode := if g1.replays.any Replay.busy then g1.gnode else 0 })

/-- GREC_WRITE (R312). -/
def execGrecWrite (w : Word) (s : State) : Host.Outcome State Fault Refusal :=
  let g := s.hub.graph
  .next (if s.hostReach && g.replays.isEmpty then s.setGraph { g with grec := BitVec.ofNat 64 (field w 0 57) } else s)

/-! ## Dispatch (R311, R314, R430) -/

/-- What dispatching a node comes to: a graph fault with its syndrome and REASON, a refusal with status 1, or done, with the
token of a run or the identity of a context command that is still open. -/
inductive NodeEnd where
  | fault (synd reason : Nat)
  | refused
  | wait
  | done (openRuns openCmds : List Nat)

/-- The faults of an equivalent instruction, in the order of R378. -/
def nodeFault (checks : List Offence) (notReady : Bool) (fault : Option TrapInfo) : Option NodeEnd :=
  match firstOffence (stage3 checks) with
  | some o => some (.fault ILLOP o.reason)
  | none => if notReady then some (.fault NOTRDY 0) else fault.map fun f => .fault f.synd 0

/-- A NEST or TASK node (R182, R186, R311). -/
def State.nodeSubmit (s : State) (b : GraphNode) (va : Word) (align len : Nat) (offs : List Byte → Nat → List Offence)
    (act : State → Nat → Word → Nat → List Byte → Nat × State) : NodeEnd × State :=
  let g := s.hub.graph
  let r := s.readBlock 6 g.asid g.root va.toNat len PR
  let checks := val (va.toNat % align ≠ 0) 11 5 ++ if va.toNat % align = 0 && r.ok then offs r.bytes 11 else []
  match nodeFault checks false r.fault with
  | some e => (e, r.found s)
  | none =>
    let q := act (r.found s) (gnDie b) va 16 r.bytes
    match q.1 with
    | 0 => (.done [] [], q.2.sendAdd .replay (gnDone b) 1)
    | 1 => (.refused, q.2)
    | _ => (.fault NOTRDY 0, q.2)

/-- A KVCMD node: the command as strand L of the node's core would issue it (R266 to R270, R311). -/
def State.nodeCommand (s : State) (r : Replay) (b : GraphNode) : NodeEnd × State :=
  let op := (r.operand b 0).toNat
  let c := 64 * gnDie b + gnCore b
  let k := s.core c
  let xc := r.operand b 3
  if op < 0x28 ∨ 0x2D < op then (.fault ILLOP 3, s)
  else
    let x := s.ctxSide c k.asid k.root op (r.operand b 1) (r.operand b 2) xc
    let extra := if op = 0x28 ∨ op = 0x29 then [] else val (xc ≠ 0) 6 2
    match nodeFault (extra ++ x.checks) (x.notReady.isSome || !s.isReady (coreUnit c)) x.fault with
    | some e => (e, x.found s)
    | none =>
      let s1 := x.found s
      let s2 := s1.ctxTake c k.asid k.root k.seq op (r.operand b 1) (r.operand b 2) xc (gnDone b) x
      (.done [] [s.nextCmd], s2.setCore c { s2.core c with seq := k.seq + 1 })

/-- An AWL node (R193, R299, R311). -/
def State.nodeAwl (s : State) (r : Replay) (b : GraphNode) : NodeEnd × State :=
  let g := s.hub.graph
  let v := r.operand b 0
  let arg := r.operand b 1
  let d := gnDie b
  let a := (s.kdie d).awl
  let checks := val (field v 8 8 ≠ 0 ∨ field v 48 16 ≠ 0) 11 2 ++ val (arg.toNat % 8 ≠ 0) 6 5
  match nodeFault checks (!s.isReady (.awl (Fin.ofNat 8 d))) none with
  | some e => (e, s)
  | none =>
    if 64 ≤ a.graphq.length then (.wait, s)
    else
      let q : AwlReq := ⟨g.seq, field v 0 8, field v 16 16, field v 32 16, arg, gnDone b, g.asid, g.root, none⟩
      (.done [g.seq] [], (s.setAwl d { a with graphq := a.graphq ++ [q] }).setGraph { g with seq := g.seq + 1 })

/-- An ADD node (R173, R311): it makes no NDONE add, and it is complete when its own add has been made. -/
def State.nodeAdd (s : State) (r : Replay) (b : GraphNode) : NodeEnd × State :=
  let h := r.operand b 0
  match nodeFault (handleOffences h 11 none) false none with
  | some e => (e, s)
  | none => (.done [] [], s.sendAdd (.graph r.gen) h (r.operand b 1).toNat)

/-- A node is dispatched. -/
def State.dispatchNode (s : State) (r : Replay) (b : GraphNode) : NodeEnd × State :=
  match gnKind b with
  | 1 => s.nodeSubmit b (r.operand b 0) 128 128 nestOffences State.submitNest
  | 2 => s.nodeSubmit b (r.operand b 0) 32 32 taskOffences State.submitTask
  | 3 => s.nodeCommand r b
  | 4 => s.nodeAwl r b
  | _ => s.nodeAdd r b

/-- Replace the first replay that still has nodes to dispatch. -/
def replaceBusy (r : Replay) : List Replay → List Replay
  | [] => []
  | x :: l => if x.busy then r :: l else x :: replaceBusy r l

/-- The executing replay and its next node. -/
def Graph.current (g : Graph) : Option (Replay × GraphNode) :=
  (g.replays.find? Replay.busy).bind fun r => r.nodes[r.next]?.map fun b => (r, b)

/-- WAITH is satisfied (R314, R406). A counter of another module answers when it will (R66), by free choice here (log 2). -/
def State.nodeReady (s : State) (b : GraphNode) : Bool :=
  let h := gnWait b
  h == 0 || (if hModule h = s.hub.module then !s.counterBad h && !s.counterDown h && gnValue b ≤ s.counter h
    else s.hub.sends (hModule h) && s.free % 2 == 0)

/-- What a dispatch leaves of the replays. -/
def State.nodeDone (s : State) (r : Replay) (e : NodeEnd) : State :=
  let g := s.hub.graph
  match e with
  | .wait => s
  | .refused =>
    s.setGraph { g with replays := replaceBusy { r with
      refused := some (r.refused.getD s.now), logged := if r.refused.isSome then r.logged else false } g.replays }
  | .fault synd reason =>
    (s.setGraph { g with
      replays := (replaceBusy { r with faulted := true } g.replays).map fun x => if x.next = 0 then { x with since := s.now } else x
      gnode := r.next }).graphFault
      r.next synd reason r.gen r.recVa
  | .done runs cmds =>
    let r1 := { r with
      next := r.next + 1, openRuns := r.openRuns ++ runs, openCmds := r.openCmds ++ cmds
      since := s.now, logged := false, refused := none }
    let rs := replaceBusy r1 g.replays
    s.setGraph { g with
      replays := rs.map fun x => if r1.busy = false ∧ x.next = 0 then { x with since := s.now } else x
      gnode := if r1.busy = false ∧ rs.any Replay.busy = true then 0 else r1.next }

/-- GRAPH_NODE_DISPATCH (R314, R430). -/
def execGraphNodeDispatch (s : State) : Host.Outcome State Fault Refusal :=
  match s.hub.graph.current with
  | none => .next s
  | some (r, b) =>
    if s.graphDown.isSome || r.refused.isSome then .next s
    else if !s.nodeReady b then .next s.drew
    else
      let q := s.drew.dispatchNode r b
      .next (q.2.nodeDone r q.1)

/-- The context id of a NEST record or a task entry. -/
def State.nodeContext (s : State) (r : Replay) (b : GraphNode) : Nat :=
  let g := s.hub.graph
  let bytes := (s.readBlock 6 g.asid g.root (r.operand b 0).toNat (if gnKind b = 1 then 128 else 32) PR).bytes
  if gnKind b = 1 then num bytes 0x20 3 else num bytes 4 3

/-- GRAPH_NODE_REDISPATCH (R311, R432): a node refused for 1 ms leaves one HEAPF record, and the retries go on. -/
def execGraphNodeRedispatch (s : State) : Host.Outcome State Fault Refusal :=
  match s.hub.graph.current with
  | none => .next s
  | some (r, b) =>
    match r.refused with
    | none => .next s
    | some t =>
      if s.graphDown.isSome then .next s
      else
        let q := s.dispatchNode r b
        match q.1 with
        | .refused =>
          if r.logged ∨ s.now < t + 1000000 then .next (q.2.nodeDone r .refused)
          else
            .next ((q.2.nodeDone { r with logged := true } .refused).record (gnDie b) (gnDie b) 3 0 HEAPF 1 false false 0
              (BitVec.ofNat 64 (s.nodeContext r b)))
        | e => .next (q.2.nodeDone r e)

/-- The WAITH of a node is not met: of a counter of another module this is open here (log 2). -/
def State.nodeUnmet (s : State) (b : GraphNode) : Bool :=
  let h := gnWait b
  h != 0 && (hModule h != s.hub.module || s.counterBad h || s.counterDown h || decide (s.counter h < gnValue b))

/-- GRAPH_WAIT_RECORD (R432): one record for a wait of 100 ms that goes on. -/
def execGraphWaitRecord (s : State) : Host.Outcome State Fault Refusal :=
  let g := s.hub.graph
  match g.current with
  | none => .next s
  | some (r, b) =>
    if s.nodeUnmet b = false ∨ r.refused.isSome = true ∨ r.logged = true ∨ s.now < r.since + 100000000 then .next s
    else
      .next ((s.setGraph { g with replays := replaceBusy { r with logged := true } g.replays }).record 16 16 18 0 GRAPHF 1 false
        false (gnWait b) (BitVec.ofNat 64 r.next))

/-! ## The end of a replay (R314, R430) -/

/-- A graph run with a token is still queued or executing. -/
def State.runOpen (s : State) (tok : Nat) : Bool :=
  (List.range 8).any fun d =>
    let a := (s.kdie d).awl
    (a.graphq.any fun q => q.tok == tok) || a.runs.any fun r => r.src.isNone && r.req.tok == tok

/-- GRAPH_REPLAY_END (R314, R430): every dispatched node has completed, and DONE takes 1, or 2^32 after a graph fault. -/
def execGraphReplayEnd (i : Nat) (s : State) : Host.Outcome State Fault Refusal :=
  let g := s.hub.graph
  match g.replays[i]? with
  | none => .next s
  | some r =>
    if r.busy || r.openRuns.any s.runOpen || (r.openCmds.any fun id => (s.cmdOf id).isSome) ||
        (s.adds.any fun a => a.sender == .graph r.gen) then .next s
    else .next ((s.setGraph { g with replays := g.replays.eraseIdx i }).sendAdd .replay r.done (if r.faulted then 2 ^ 32 else 1))

end Sys2Proof.Machine
end

