-- ==== Sys2Proof/Machine/Fence.lean ====
section
/-! DEFINITION. What a fence of each kind of unit, and of a whole die, does to the work that it held
(R369, R370, R372, R377, R413, R449). -/

namespace Sys2Proof.Machine

/-! ## Commands that a fenced unit held (R372) -/

/-- INFO of a record of a lost command: its completion counter handle, or 0. -/
def handleInfo (k : Word) : Word := if k = noCounter then 0 else k

/-- A command that was posted when a unit's bit cleared: its counter takes 2^32, and the issuing agent's die logs the unit. -/
def State.lostCommand (s : State) (log : Nat) (u : UnitId) (addr k : Word) : State :=
  let p := unitOf u
  (s.postAdd u k (2 ^ 32)).record log p.1 p.2.1 p.2.2 NOTRDY 2 false false addr (handleInfo k)

/-- The parts of T-die n that are not complete end: a CANCEL's counts as done, and another's is 2^32 with a record. -/
def State.failParts (s : State) (n : Nat) (report : CtxCmd → State → State) : State :=
  let s1 := (s.cmds.filter fun (k : CtxCmd) => k.pending.contains n).foldl (fun s k =>
    if k.op = 0x2B then s.partDone k.id n 1 else report k (s.partDone k.id n (2 ^ 32))) s
  { s1.setTdie n { s1.tdie n with entries := [] } with ctxMsgs := s1.ctxMsgs.filter fun (m : CtxMsg) => m.die ≠ n }

/-- A fence of a T-die during a QUERY: no partial of it is merged, and the command completes with 2^32 (R377). -/
def State.dropPartials (s : State) (n : Nat) : State :=
  { s with cmds := s.cmds.map fun (k : CtxCmd) =>
      if (slook k.partials n).isSome ∧ k.merged = false then { k with partials := sdel k.partials n, failed := true } else k }

/-- The record of a command whose part on T-die n ends with a fence of its unit (R372). -/
def partLost (n : Nat) (k : CtxCmd) (s : State) : State :=
  s.record (dieOf k.core) n 11 0 NOTRDY 2 false false k.blockVa (handleInfo k.k)

/-- A K-die's part of every CANCEL counts as done (R270, R326). -/
def State.dropKparts (s : State) (d : Nat) : State :=
  { s.setKdie d { s.kdie d with cancels := [] } with
    cmds := s.cmds.map fun (k : CtxCmd) => { k with kpending := k.kpending.filter (· ≠ d) }
    ctxMsgs := s.ctxMsgs.filter fun (m : CtxMsg) => m.die ≠ d }

/-- The runs of a K-die's Awl end (R193, R372). -/
def State.dropRuns (s : State) (d : Fin 8) : State :=
  let u := UnitId.awl d
  let a := (s.kdie d).awl
  let s1 := s.setAwl d { a with runs := [], graphq := [] }
  let s2 := a.runs.foldl (fun s r => s.lostCommand (if r.src.isSome then d.val else 16) u 0 r.req.k) s1
  let s3 := a.graphq.foldl (fun s r => s.lostCommand 16 u 0 r.k) s2
  (List.range 64).foldl (fun s i =>
    let c := 64 * d.val + i
    let k := s.core c
    (k.awlq.flatMap Prod.snd).foldl (fun s r => s.lostCommand d u 0 r.k) (s.setCore c { k with awlq := [] })) s3

/-- The record of a nest record that a fenced walker held (R372). -/
def State.recLost (s : State) (d : Nat) (r : NestRec) : State :=
  s.record r.agent d 4 0 NOTRDY 2 false false r.va (handleInfo r.endH)

/-- The records of a fenced walker end with 2^32, each with a record of its loss, once the iterations that run have ended; no other
is dispatched or resumed. -/
def State.dropRecs (s : State) (d : Nat) : State :=
  let k := s.kdie d
  (k.recs.foldl (fun s r => s.recLost d r) (s.setKdie d { k with
    areas := k.areas.filter fun a => !k.recs.any fun (r : NestRec) => r.saved.any fun x => x.area == a
    recs := k.recs.map fun (r : NestRec) =>
      { r with lost := true, total := r.next, ended := r.ended + r.saved.length, saved := [] } })).settleRecs d

/-- The replays of a fenced graph engine end. -/
def State.dropReplays (s : State) (h : Fin 2) : State :=
  s.hub.graph.replays.foldl (fun s r => s.lostCommand 16 (.graph h) r.recVa r.done) (s.setGraph { s.hub.graph with replays := [] })

/-- The collectives of fenced engines end. -/
def State.dropColls (s : State) (h : Fin 2) : State :=
  s.colls.foldl (fun s (c : Coll) => s.lostCommand (dieOf c.core) (.coll h) 0 c.k) { s with colls := [] }

/-! ## Memory and engines of a T-die (R278, R369, R413) -/

/-- The lines of a medium of T-die n. -/
def mediumLines (n med : Nat) : List Nat :=
  (List.range (if med = 0 then 2 ^ 29 else 2 ^ 31)).map fun i => pagePa n med (128 * i)

/-- Every line of a medium of T-die n is marked with data poison. -/
def State.poisonMedium (s : State) (n med : Nat) : State :=
  let off := fun (l : Nat) => !(homeOf l == n && medOf l == med)
  { s with
    poison := s.poison.filter off ++ mediumLines n med, damaged := s.damaged.filter off
    damagedBy := s.damagedBy.filter fun p => off p.1 }

/-- The reduce-state lines of T-die n are merged. -/
def State.mergeHome (s : State) (n : Nat) : State := s.mergeLines ((s.reds.map Prod.fst).filter fun l => homeOf l == n)

/-- The executions of T-die n that a physical engine has a part in are discarded, and repeated later (R415). -/
def State.dropExecutions (s : State) (n e : Nat) : State :=
  let t := s.tdie n
  let uses := fun (x : TEntry) => (slook t.ctxs x.ctx).any fun c => (t.queryPages n x).any fun q =>
    let u := q.p / max c.set.length 1 % 64
    sget u t.phys u == e
  s.setTdie n { t with entries := t.entries.map fun x => if x.running && uses x then { x with running := false } else x }

/-- The logical engines of a fenced attention engine move to a remaining one, which is open (R278, log 2). -/
def State.rehome (s : State) (n : Fin 22) (e : Fin 64) : State :=
  let t := s.tdie n
  let left := (List.range 64).filter fun p => s.isReady (.attn n (Fin.ofNat 64 p))
  let moved := (List.range 64).filter fun i => sget i t.phys i == e.val
  match left with
  | [] => s
  | _ :: _ =>
    (s.setTdie n { t with phys := moved.foldl (fun m i => sput m i (left.getD (s.free % left.length) 0)) t.phys }).drew

/-! ## A fence (R369) -/

/-- A unit is fenced, with what its work comes to. An L2 slice first writes back what it holds dirty (R410).
Gateways, rings, links and the rest change only time. -/
def State.fence (s : State) (u : UnitId) (synd : Nat) (addr info : Word) : State :=
  match u with
  | .core d c => s.fenceCore (64 * d.val + c.val) synd info
  | .nest d => ((s.fenceUnit u synd addr info).dropRecs d).dropKparts d
  | .awl d => (s.fenceUnit u synd addr info).dropRuns d
  | .ccu n => (s.fenceUnit u synd addr info).failParts n (partLost n)
  | .attn n e => ((s.fenceUnit u synd addr info).dropExecutions n e).rehome n e
  | .slice d i => (s.flushCache (512 + 32 * d.val + i.val)).fenceUnit u synd addr info
  | .llc n => (s.mergeHome n).fenceUnit u synd addr info
  | .hbm n => (s.fenceUnit u synd addr info).poisonMedium n 0
  | .lpdr n => (s.fenceUnit u synd addr info).poisonMedium n 1
  | .graph h => if h = 0 then (s.fenceUnit u synd addr info).dropReplays h else s.fenceUnit u synd addr info
  | .coll h => (s.fenceUnit u synd addr info).dropColls h
  | _ => s.fenceUnit u synd addr info

/-- A function's place in the order of R377: ascending UKIND, then ascending UIDX. -/
def unitKey (u : UnitId) : Nat := 65536 * (unitOf u).2.1 + (unitOf u).2.2

/-- A function takes its place in a list. -/
def insertUnit (u : UnitId) : List UnitId → List UnitId
  | [] => [u]
  | x :: l => if unitKey u < unitKey x then u :: x :: l else x :: insertUnit u l

/-- A die is fenced whole (R442): each of its functions that is not fenced yet, in the order of their records (R377). -/
def State.fenceDie (s : State) (n synd : Nat) : State :=
  (((fencedUnits (Fin.ofNat 22 n)).filter fun u => !s.hub.fenced.contains u).foldl (fun l u => insertUnit u l) []).foldl
    (fun s u => s.fence u synd 0 0) (s.dropPartials n)

/-! ## An expander (R449) -/

/-- The record of a command whose part on an expander had not completed. -/
def expanderLost (n : Nat) (k : CtxCmd) (s : State) : State :=
  let p := unitOf (portOf n)
  s.record p.1 p.1 17 p.2.2 XTO 2 false false k.blockVa (BitVec.ofNat 64 (k.ctx + 2 ^ 32 * (k.seq % 2 ^ 32)))

/-- An expander is fenced: its port's bit and every bit of its die clear, with one record, and its lines are poisoned. -/
def State.fenceExpander (s : State) (n : Fin 22) : State :=
  let us := dieUnits n
  let s1 := (us.foldl State.clearReady s).fenceUnit (portOf n) XTO 0 (BitVec.ofNat 64 n.val)
  let s2 := ((((s1.failParts n (expanderLost n)).dropPartials n).mergeHome n).poisonMedium n 0).poisonMedium n 1
  { s2 with hub := { s2.hub with
      fenced := s2.hub.fenced ++ us.filter fun u => !s2.hub.fenced.contains u
      xsince := sdel s2.hub.xsince n
      held := s2.hub.held.filter fun x => x.dst != n.val && x.src != n.val } }

end Sys2Proof.Machine
end

