-- ==== Sys2Proof/Machine/Links.lean ====
section
/-! DEFINITION. Die links, optical channels and expander ports: routes, flits, replays, retrains and losses
(R329 to R336, R438 to R449). Everything here changes time and order alone, until something is fenced. -/

namespace Sys2Proof.Machine

/-! ## Links and routes (R329, R331) -/

/-- Change a link's end. -/
def State.setLink (s : State) (n m : Nat) (f : Link → Link) : State :=
  { s with hub := { s.hub with links := sput s.hub.links (12 * n + m) (f (s.linkAt n m)) } }

/-- Change both ends of a link. -/
def State.setEnds (s : State) (n m : Nat) (f : Link → Link) : State :=
  match peerEnd n m with
  | some (a, b) => (s.setLink n m f).setLink a b f
  | none => s

/-- The link module of die a that leads to die b. -/
def linkTo (a b : Nat) : Option Nat := (List.range 12).find? fun m => (peerEnd a m).any fun p => p.1 == b

/-- Die a has an open direct link to die b. -/
def State.direct (s : State) (a b : Nat) : Bool := (linkTo a b).any fun m => s.linkOpen a m

/-- The routes between two package dies (R331): the intermediate die, or the destination for the direct link. -/
def State.routes (s : State) (a b : Nat) : List Nat :=
  (if s.direct a b then [b] else []) ++
    (List.range 18).filter fun v => v ≠ a && v ≠ b && s.direct a v && s.direct v b

/-! ## Flits (R438 to R440) -/

/-- The 1 ms windows of a link move on with time: the replays of the last complete one (R443). -/
def Link.roll (l : Link) (now : Nat) : Link :=
  let w := now / 1000000
  if l.win = w then l
  else { l with win := w, crcs := 0, reps := 0, replays := if l.win + 1 = w then min l.reps 65535 else 0 }

/-- A flit is sent with the next link sequence number. -/
def Link.send (x : Msg) (l : Link) : Link :=
  { l with buffer := l.buffer ++ [(l.nextSeq, x)], nextSeq := (l.nextSeq + 1) % 256 }

/-- A link's replay buffer has room (R438). -/
def State.roomy (s : State) (n m : Nat) : Bool := (s.linkAt n m).buffer.length < 128

/-- The end at die a that sends to die b: of a link module, or of a port link at the expander or at the hub. -/
def sendEnd (a b : Nat) : Option (Nat × Nat) :=
  if 18 ≤ b then some (b, 1) else if 18 ≤ a then some (a, 0) else (linkTo a b).map fun m => (a, m)

/-- The gateways of a die that a message may leave by: of a K-die those that are ready (R20, R369). -/
def State.gates (s : State) (a : Nat) : List Nat :=
  if a < 8 then (List.range 4).filter fun g => s.isReady (.gway (Fin.ofNat 8 a) (Fin.ofNat 4 g)) else [0]

/-- The gateway that a message leaves by, which is open (log 2). -/
def State.gate (s : State) (a : Nat) : Nat := (s.gates a).getD (s.free / 64 % max (s.gates a).length 1) 0

/-- A message between two dies as its gateway first sends it, on a route through `via`: its tag and its stream sequence (R333, R440). -/
def State.newMsg (s : State) (a b via : Nat) : Msg :=
  ⟨a, b, via, s.gate a, sget 0 s.hub.tags (4 * a + s.gate a), sget 0 s.hub.streams (32 * a + b), s.now⟩

/-- A sender is at most 63 places ahead of its stream's oldest unacknowledged message (R333). -/
def State.mayStream (s : State) (x : Msg) : Bool := s.hub.held.all fun y => y.src != x.src || y.dst != x.dst || x.seq ≤ y.seq + 63

/-- A gateway has sent a message: it keeps a copy until the end-to-end acknowledgement (R440). -/
def State.keep (s : State) (x : Msg) : State :=
  let h := s.hub
  { s with hub := { h with
      tags := sput h.tags (4 * x.src + x.gate) ((x.tag + 1) % 2 ^ 16)
      streams := sput h.streams (32 * x.src + x.dst) (x.seq + 1)
      held := h.held ++ [x] } }

/-- What a destination knows a message by: its tag, and at an expander its stream sequence (R440, R448). -/
def Msg.mark (x : Msg) : Nat := if 18 ≤ x.dst then x.seq else x.tag

/-- Two copies of one message. -/
def Msg.same (x y : Msg) : Bool := x.src == y.src && x.dst == y.dst && x.gate == y.gate && x.tag == y.tag && x.seq == y.seq

/-- A message reaches its destination, which records its tag and acknowledges it; an accepted tag that comes again is acknowledged
again, and changes nothing else (R440). -/
def Hub.accept (h : Hub) (x : Msg) : Hub :=
  let key := 128 * x.dst + 4 * x.src + x.gate
  let l := sget [] h.accepted key
  { h with
    accepted := if l.contains x.mark then h.accepted else sput h.accepted key ((x.mark :: l).take 4096)
    acks := h.acks.filter (fun y => !x.same y) ++ [x] }

/-- By free choice (log 2), the acknowledgements on their way to the gateways of a die reach them, and they drop their copies
(R440). -/
def State.takeAcks (s : State) (n : Nat) : State :=
  let h := s.hub
  let done := h.acks.filter fun x => x.src == n
  if done.isEmpty then s
  else if s.free % 2 = 0 then s.drew
  else
    { s with hub := { h with
        held := h.held.filter fun x => !done.any x.same
        acks := h.acks.filter fun x => x.src != n } }.drew

/-- A message goes on the link from die a to die b; with the buffer full, or while the link retrains, it waits in the gateway's
queue. -/
def State.sendTo (s : State) (a b : Nat) (x : Msg) : State :=
  match sendEnd a b with
  | some (n, m) =>
    if s.roomy n m && s.linkOpen n m then s.setLink n m (Link.send x) else s.setLink n m fun l => { l with refused := l.refused ++ [x] }
  | none => s

/-- The routes that stand between two package dies, also over links that retrain. -/
def State.standingRoutes (s : State) (a b : Nat) : List Nat :=
  (if (linkTo a b).any fun m => s.linkUp a m then [b] else []) ++
    (List.range 18).filter fun v => v ≠ a && v ≠ b && ((linkTo a v).any fun m => s.linkUp a m) && (linkTo v b).any fun m => s.linkUp v m

/-- A message is sent again, with its tag and its stream sequence, on a route chosen at random (R331, R440, R442; log 2): while
every route retrains it waits at one of them. -/
def State.launch (s : State) (x : Msg) : State :=
  if 18 ≤ x.src ∨ 18 ≤ x.dst then s.sendTo x.src x.dst x
  else
    match if (s.routes x.src x.dst).isEmpty then s.standingRoutes x.src x.dst else s.routes x.src x.dst with
    | [] => s
    | v :: vs =>
      let via := (v :: vs).getD (s.free % (vs.length + 1)) v
      let y := { x with via := via }
      ({ s with hub := { s.hub with held := s.hub.held.map fun (z : Msg) => if z.same x then y else z } }.drew).sendTo x.src via y

/-- A message goes, or went, over the link between two dies. -/
def Msg.over (x : Msg) (a b : Nat) : Bool :=
  (x.src == a && x.via == b) || (x.src == b && x.via == a) || (x.via == a && x.dst == b) || (x.via == b && x.dst == a)

/-- The gateways send again every message that went over a link between two dies and that is not acknowledged end to end; its copies
before an end of the link go no further (R440, R442). -/
def State.relaunch (s : State) (a b : Nat) : State :=
  let gone := fun (x : Msg) => (x.via == a && x.dst == b) || (x.via == b && x.dst == a)
  (s.hub.held.filter fun x => x.over a b).foldl State.launch { s with msgs := s.msgs.filter fun x => !gone x }

/-- A message that the other end of a link carries when nothing else waits there: which one is open (log 2). Its destination is
the die at this end, or one that this end reaches on a link that takes new traffic (R331). -/
def State.freshMsg (s : State) (n m a : Nat) : Msg :=
  if 18 ≤ n then
    let h := 16 + (n - 18) / 2
    if m = 0 then s.newMsg h n n else s.newMsg n h h
  else
    let ds := n :: ((List.range 12).filterMap fun j => (peerEnd n j).map Prod.fst).filter fun d => d ≠ a && s.direct n d
    s.newMsg a (ds.getD (s.free % ds.length) n) n

/-- The record place of a link: a link module of a die, or an expander port of its hub die. -/
def linkPlace (n m : Nat) : Nat × Nat × Nat := if n < 18 then (n, 9, m) else unitOf (portOf n)

/-- A record of a link at one of its ends. -/
def State.linkRecord (s : State) (n m synd cls : Nat) (intr : Bool) (info : Nat) : State :=
  let p := linkPlace n m
  s.record p.1 p.1 p.2.1 p.2.2 synd cls intr false 0 (BitVec.ofNat 64 info)

/-- A record of a link's degradation at both dies, or at the port (R448, R455). -/
def State.degraded (s : State) (n m : Nat) (info : Nat) : State :=
  let s1 := s.linkRecord n m LDEG 1 true info
  match peerEnd n m with
  | some (a, b) => if 18 ≤ n then s1 else s1.linkRecord a b LDEG 1 true info
  | none => s1

/-- A flit reaches the receiver at link module m of die n (R438, R439): accepted, refused for lack of a buffer of its virtual plane
(phase one from the message's source, phase two from an intermediate die), or discarded with every later one. A refused flit leaves
the link's sequence, so the flits behind it, of either plane, go on, and none waits for a buffer of the other plane (R331, R332). -/
def State.flitArrives (s : State) (n m : Nat) (crcOk room : Bool) : State :=
  match peerEnd n m with
  | none => s
  | some (a, b) =>
    if !s.linkOpen n m then s
    else
      let x := s.freshMsg n m a
      let fresh := (s.linkAt a b).buffer.isEmpty && s.mayStream x
      let s1 := if fresh then (s.drew.keep x).setLink a b (Link.send x) else s
      let s2 := (s1.setLink n m fun l => l.roll s.now).setLink a b fun l => l.roll s.now
      match (s2.linkAt a b).buffer with
      | [] => s2
      | (q, x) :: rest =>
        let r := s2.linkAt n m
        if r.discard then s2
        else if !crcOk ∨ q ≠ r.expect then
          let p := linkPlace n m
          ((s2.setLink n m fun l => { l with discard := true }).setLink a b fun l =>
            if crcOk then l else { l with row := l.row + 1, crcs := l.crcs + 1 }).corrected p.1 p.2.1 p.2.2
        else
          let s3 := (s2.setLink n m fun l => { l with expect := (l.expect + 1) % 256 }).setLink a b fun l =>
            { l with buffer := rest, row := 0, refused := if room then l.refused else l.refused ++ [x] }
          let here := if n < 18 then n else if m = 0 then n else 16 + (n - 18) / 2
          if room = false then s3
          else if x.dst ≠ here then ({ s3 with msgs := s3.msgs ++ [x] } : State).takeAcks here
          else ({ s3 with hub := s3.hub.accept x } : State).takeAcks here

/-- FLIT_RECEIVE (R438, R439). -/
def execFlitReceive (n : Fin 22) (m : Fin 12) (crcOk room : Bool) (s : State) : Host.Outcome State Fault Refusal :=
  .next (s.flitArrives n m crcOk room)

/-- A retrain begins (R441). -/
def State.retrain (s : State) (n m : Nat) : State :=
  s.setEnds n m fun l => { l with train := true, fails := 0, attempt := 0, row := 0, crcs := 0 }

/-- FLIT_REPLAY (R438, R441, R455): the sender at link module m of die n replays, or past its bounds retrains, with a record of the
receiver: the flit's link sequence number and its transmissions. -/
def execFlitReplay (n : Fin 22) (m : Fin 12) (s : State) : Host.Outcome State Fault Refusal :=
  match peerEnd n m with
  | none => .next s
  | some (a, b) =>
    if !s.linkOpen n m || !(s.linkAt a b).discard then .next s
    else
      let l := s.linkAt n m
      let s1 := s.setLink n m fun l => l.roll s.now
      if 4 ≤ l.row ∨ 64 ≤ l.crcs then
        .next ((s1.linkRecord a b LCRC 1 false (((l.buffer.map Prod.fst).headD 0) + 256 * l.row)).retrain n m)
      else
        .next ((s1.setLink n m fun l => { l with reps := l.reps + 1 }).setLink a b fun l => { l with discard := false })

/-- FLIT_REFUSAL_RESEND (R439): a refused message goes again, with a new link sequence number. -/
def execFlitRefusalResend (n : Fin 22) (m : Fin 12) (i : Nat) (s : State) : Host.Outcome State Fault Refusal :=
  match (s.linkAt n m).refused[i]? with
  | none => .next s
  | some x =>
    .next (if s.linkOpen n m && s.roomy n m then
        (s.setLink n m fun l => { l with refused := l.refused.eraseIdx i }).setLink n m (Link.send x)
      else s)

/-- MESSAGE_FORWARD (R331): an intermediate die sends the i-th message on its direct link to the destination. -/
def execMessageForward (i : Nat) (s : State) : Host.Outcome State Fault Refusal :=
  match s.msgs[i]? with
  | none => .next s
  | some x =>
    match linkTo x.via x.dst with
    | none => .next s
    | some m =>
      .next (if s.linkOpen x.via m && s.roomy x.via m then
          { s with msgs := s.msgs.eraseIdx i }.setLink x.via m (Link.send x)
        else s)

/-- POD_FORWARD (R331, R336): a two-hop pod message goes from hub die 16 to hub die 17, by way of package die i, or on the
column-first route from hub die 17 to hub die 16, by way of package die i − 32. -/
def execPodForward (i : Nat) (s : State) : Host.Outcome State Fault Refusal :=
  let a := if i < 32 then 16 else 17
  let b := 33 - a
  let v := i % 32
  .next (if s.hub.valid && !s.hub.egress && decide (i < 64) && (s.routes a b).contains v then
    (s.keep (s.newMsg a b v)).sendTo a v (s.newMsg a b v) else s)

/-! ## Retrains (R441 to R443, R448) -/

/-- LINK_LOSS_OF_LOCK (R441). -/
def execLinkLossOfLock (n : Fin 22) (m : Fin 12) (s : State) : Host.Outcome State Fault Refusal :=
  .next (if s.linkOpen n m then s.retrain n m else s)

/-- WIDTH and RATE of an attempt: x64 and x32 at full rate, x32 at half rate. -/
def attemptResult : Nat → Nat × Nat
  | 0 => (2, 0)
  | 1 => (1, 0)
  | _ => (1, 1)

/-- A retrain attempt is counted in the telemetry store, at both ends (R374, R441). -/
def State.countAttempt (s : State) (n m : Nat) : State :=
  if 18 ≤ n then s.count (0x3B40 + 8 * (n - 16)) 1
  else match peerEnd n m with
    | some (a, b) => (s.count (0x2B00 + (12 * n + m) * 8) 1).count (0x2B00 + (12 * a + b) * 8) 1
    | none => s

/-- A link of two package dies that no fence has taken away. -/
def State.linkStands (s : State) (a b : Nat) : Bool :=
  (linkTo a b).any fun m => !s.hub.fenced.contains (linkUnit a m) &&
    (peerEnd a m).any fun p => !s.hub.fenced.contains (linkUnit p.1 p.2)

/-- Some route of R331 is left between two package dies. -/
def State.joined (s : State) (a b : Nat) : Bool :=
  s.linkStands a b || (List.range 18).any fun v => v ≠ a && v ≠ b && s.linkStands a v && s.linkStands v b

/-- Ready link modules of a die. -/
def State.linkCount (s : State) (n : Nat) : Nat := ((List.range 12).filter fun m => s.isReady (linkUnit n m)).length

/-- Which die of a pair without a route is fenced, a < b (R442). -/
def State.loser (s : State) (a b : Nat) : Nat :=
  if b < 16 ∨ 16 ≤ a then (if s.linkCount a < s.linkCount b then a else b) else a

/-- The pairs of package dies, in ascending order of the lower number and then of the higher. -/
def diePairs : List (Nat × Nat) :=
  (List.range 18).flatMap fun a => ((List.range 18).filter fun b => a < b).map fun b => (a, b)

/-- A die of each pair without a route is fenced, in the order of the pairs. -/
def State.isolateOnce (s : State) : State :=
  diePairs.foldl (fun s p =>
    if s.dieDown p.1 || s.dieDown p.2 || s.joined p.1 p.2 then s else s.fenceDie (s.loser p.1 p.2) LDOWN) s

/-- The same until every pair of unfenced dies has a route: each round but the last fences one of the 18 dies (R442). -/
def State.isolate (s : State) : State := (List.range 18).foldl (fun s _ => s.isolateOnce) s

/-- A link goes down (R442, R455): both ends are fenced, with a record each, what was not acknowledged end to end is sent on other
routes, and a die that no route reaches is fenced. -/
def State.linkDown (s : State) (n m : Nat) : State :=
  match peerEnd n m with
  | none => s
  | some (a, b) =>
    let info := BitVec.ofNat 64 (4 * (s.linkAt n m).rate + 256 * 3)
    let s1 := s.setEnds n m fun l => { l with width := 0, train := false, fails := 3, buffer := [], refused := [], discard := false }
    (((s1.fenceUnit (linkUnit n m) LDOWN 0 info).fenceUnit (linkUnit a b) LDOWN 0 info).relaunch n a).isolate

/-- A port fails three attempts: it carries nothing more, and what waits at its ends stays with the senders (R449). -/
def State.portDown (s : State) (n m : Nat) : State :=
  s.setEnds n m fun l => { l with width := 0, train := false, fails := 3, buffer := [], refused := [], discard := false }

/-- A port carries traffic again after an acknowledgement was overdue: every unacknowledged message goes again (R449). -/
def State.portBack (s : State) (n : Nat) : State :=
  match slook s.hub.xsince n with
  | none => s
  | some _ =>
    let s1 : State := { s with hub := { s.hub with xsince := sdel s.hub.xsince n } }
    let waits := fun (x : Msg) => (x.dst == n || x.src == n) &&
      !((s1.linkAt n 0).buffer ++ (s1.linkAt n 1).buffer).any fun p => p.2.same x
    (s1.hub.held.filter waits).foldl State.launch s1

/-- RETRAIN_ATTEMPT_END (R441, R442, R448, R449, R455): a degraded link stays degraded. -/
def execRetrainAttemptEnd (n : Fin 22) (m : Fin 12) (pass : Bool) (s : State) : Host.Outcome State Fault Refusal :=
  let l := s.linkAt n m
  if !l.train || !s.linkUp n m then .next s
  else
    let s1 := s.countAttempt n m
    if pass then
      let p := attemptResult l.attempt
      let w := if l.width = 0 then p.1 else min p.1 l.width
      let r := max p.2 l.rate
      let s2 := s1.setEnds n m fun l => { l with width := w, rate := r, train := false, fails := 0, discard := false }
      let s3 := if w < 2 ∨ 0 < r then s2.degraded n m (w + 4 * r + 256 * (l.attempt + 1)) else s2
      .next (if 18 ≤ n.val then s3.portBack n else s3)
    else if l.attempt < 2 then
      .next (s1.setEnds n m fun l => { l with fails := l.fails + 1, attempt := l.attempt + 1 })
    else .next (if 18 ≤ n.val then s1.portDown n m else s1.linkDown n m)

/-! ## Optical channels (R444, R445) -/

/-- The lowest-numbered spare of a plane that is neither used nor lost. -/
def Hub.nextSpare (h : Hub) (plane : Nat) : Option Nat :=
  (List.range 8).find? fun i => (sget 0 h.spares (8 * plane + i)).toNat / 512 % 4 == 0

/-- A channel takes the next unused spare of its plane. -/
def Hub.substitute (h : Hub) (plane q : Nat) : Hub :=
  match h.nextSpare plane with
  | some i => { h with spares := sput h.spares (8 * plane + i) (BitVec.ofNat 64 (q + 512)) }
  | none => h

/-- A channel is lost: a spare takes its place, and a lost spare in use hands its channel on. -/
def Hub.loseChannel (h : Hub) (plane q : Nat) : Hub :=
  let h1 := { h with lost := h.lost ++ [512 * plane + q] }
  if q < 504 then h1.substitute plane q
  else
    let key := 8 * plane + (q - 504)
    let w := sget 0 h1.spares key
    let h2 := { h1 with spares := sput h1.spares key (w ||| 0x400) }
    if bitOf w.toNat 9 then h2.substitute plane (field w 0 9) else h2

/-- The channels that are lost with a channel: it alone or, by free choice, those left of its whole fibre (R444, log 2). -/
def State.losesWith (s : State) (plane q : Nat) : List Nat :=
  if s.free % 2 = 0 then [q]
  else ((List.range 8).map fun j => q / 8 * 8 + j).filter fun x => !s.hub.lost.contains (512 * plane + x)

/-- OPTICAL_RETRAIN_ATTEMPT_END (R444, R445): after three failures in a row the channel is lost, or its fibre with it, with one
record; a fibre whose eight channels are all lost is lost as well. With no retrain in progress the receiver has lost lock (R441), and
this is the first attempt. What other modules' channels carry may change at the same time. -/
def execOpticalRetrainAttemptEnd (plane : Fin 2) (q : Fin 512) (pass : Bool) (s : State) : Host.Outcome State Fault Refusal :=
  let key := 512 * plane.val + q.val
  let f := q.val / 8
  let u : UnitId := .fibre (Fin.ofNat 256 (128 * plane.val + f))
  if s.hub.lost.contains key || !s.isReady u then .next s
  else
    let s0 := s.count (0x3340 + 8 * (128 * plane.val + f)) 1
    let s1 : State := { s0 with hub := { s0.hub with legs := s0.hub.legs + 1 } }
    let l := sget {} s1.hub.channels key
    let n := (if l.train then l.fails else 0) + 1
    let put := fun (x : Link) => Host.Outcome.next { s1 with hub := { s1.hub with channels := sput s1.hub.channels key x } }
    if pass then put { l with train := false, fails := 0, row := 0, crcs := 0 }
    else if n < 3 then put { l with train := true, fails := n, attempt := n, row := 0, crcs := 0 }
    else
      let qs := s1.losesWith plane q
      let h := { qs.foldl (fun h x => h.loseChannel plane x) s1.hub with channels := sdel s1.hub.channels key }
      let p := unitOf u
      let s2 := ({ s1 with hub := h }.record p.1 p.1 22 f OCHAN 1 true false 0
        (BitVec.ofNat 64 (plane.val + 2 * (128 * plane.val + f) + 2 ^ 16 * (qs.foldl (fun m x => m + 2 ^ (x % 8)) 0)))).drew
      .next (if h.dark plane f then s2.clearReady u else s2)

/-! ## Expander ports (R449) -/

/-- The first sending of the oldest message of an expander that is not acknowledged end to end (R449). -/
def State.unacked (s : State) (n : Nat) : Option Nat :=
  (s.hub.held.filter fun x => x.dst == n).foldl (fun b x => some (min x.sent (b.getD x.sent))) none

/-- EXPANDER_ACK_TIMEOUT (R449): a message has waited for 1 ms, and the port retrains; what waits is sent again. -/
def execExpanderAckTimeout (n : Fin 22) (s : State) : Host.Outcome State Fault Refusal :=
  match s.unacked n with
  | none => .next s
  | some t =>
    if n.val < 18 || !s.hub.expanders.contains n || !s.isReady (portOf n) || decide (s.now < t + 1000000) ||
        (slook s.hub.xsince n).isSome then .next s
    else
      let s1 := { s with hub := { s.hub with xsince := sput s.hub.xsince n t } }
      .next (if s1.linkOpen n 0 then s1.retrain n 0 else s1)

/-- EXPANDER_FENCE_TIMEOUT (R449): the port carries no traffic 10 ms after the oldest message that waits. -/
def execExpanderFenceTimeout (n : Fin 22) (s : State) : Host.Outcome State Fault Refusal :=
  match slook s.hub.xsince n with
  | some t => .next (if 18 ≤ n.val && decide (t + 10000000 ≤ s.now) && !s.linkOpen n 0 then s.fenceExpander n else s)
  | none => .next s

end Sys2Proof.Machine
end

