-- ==== Sys2Proof/Machine/Boot.lean ====
section
/-! DEFINITION. Power, boot, the firmware mailbox, readiness, islands and temperature (R11 to R27, R67, R276, R334, R367,
R369, R374 to R376). -/

namespace Sys2Proof.Machine

/-! ## Power (R24, R374) -/

/-- POWER_GOOD (R24, R374): everything is at reset with IMG 0, except module flash with the telemetry store; the power-on is
counted. A module at IMG 0 goes on to IMG 1. -/
def State.powerOn (s : State) : State :=
  let h := s.hub
  if s.powered ∧ h.boot.img = 0 then { s with hub := { h with boot := { h.boot with img := 1 } } }
  else
    let b : Boot := { flash := h.boot.flash }
    { State.reset with
      agenda := s.agenda, tick := s.tick, draws := s.draws, cur := s.cur, status := s.status
      hub := { boot := b, tele := h.tele, fenceList := h.fenceList, telePend := sput [] 8 1 } }

/-- POWER_GOOD (R24). -/
def execPowerGood (s : State) : Host.Outcome State Fault Refusal := .next s.powerOn

/-- The collected counts are written to the telemetry store (R374), once it is ready. -/
def State.flushTele (s : State) : State :=
  if s.isReady (.tele 0) then
    let h := s.hub
    { s with hub := { h with tele := h.telePend.foldl (fun m p => sput m p.1 (sat64 (sget 0 m p.1 + p.2))) h.tele, telePend := [] } }
  else s

/-- Power is removed: counts that are not in the telemetry store are lost (R16, R374). -/
def State.powerOff (s : State) : State := { s with powered := false, hub := { s.hub with telePend := [] } }

/-- ORDERLY_POWER_DOWN (R374). -/
def execOrderlyPowerDown (s : State) : Host.Outcome State Fault Refusal := .next s.flushTele.powerOff

/-- LOSS_OF_SUPPLY (R374). -/
def execLossOfSupply (s : State) : Host.Outcome State Fault Refusal := .next s.powerOff

/-- TELEMETRY_FLUSH (R374): every whole second since the last one is counted as powered. -/
def execTelemetryFlush (s : State) : Host.Outcome State Fault Refusal :=
  let n := (s.now - s.hub.flushed) / 1000000000
  .next (if n = 0 then s
    else
      let s1 := { s with hub := { s.hub with flushed := s.hub.flushed + n * 1000000000 } }
      (s1.count 0x10 n).flushTele)

/-! ## Verification of an image (R22 to R24, R376) -/

/-- The REASONs for which an image fails, of which any may be reported where several hold (log 2). The spec gives the length of
the body's digest alone; the key's digest is taken as 64 bytes too (DESIGN CHOICE, log 24). -/
def verifyReasons (room : Nat) (img : List Byte) : List Nat :=
  let n := num img 12 4
  let key := (img.drop 16).take 1952
  let digest := shake256 ((img.drop 5312).take n) 64
  (if num img 0 4 ≠ 0x46574E46 ∨ num img 4 4 ≠ 1 then [1] else []) ++
  (if n % 64 ≠ 0 ∨ room < n + 5312 then [2] else []) ++
  (if nonZero img 5277 35 then [3] else []) ++
  (if shake256 key 64 ≠ Config.rootKeyDigest then [4] else []) ++
  (if Config.mlDsaVerify key digest ((img.drop 1968).take 3309) then [] else [5]) ++
  (if num img 8 4 < Config.minSecurityVersion then [6] else [])

/-- A verification fails with a REASON, and IMG takes a state (R376). -/
def State.verifyFails (s : State) (reason img : Nat) : State :=
  let b := s.hub.boot
  { s with hub := { s.hub with boot := { b with img := img, go := false, reason := reason, tries := min (b.tries + 1) 255 } }.raise 25 }

/-- The module's identity key pair in the security root of a hub: from its device secret, hashed with SHAKE256 together with the
security version. The order of the two and the length of the hash, a seed of ML-DSA, are open (R27; PRESUMED, log 74). -/
def identityKeys (secver : Nat) (h : Nat) : List Byte × List Byte :=
  Config.mlDsaKeyGen (shake256 (Config.deviceSecret h ++ bytesOf 4 secver) 32)

/-- An attestation report is signed with the key of a hub's security root (R27). -/
def Boot.attest (b : Boot) (h : Nat) (report : List Byte) : List Byte :=
  Config.mlDsaSign (b.keys.getD h ([], [])).2 report

/-- An image runs: its security version is kept, each hub derives its identity keys, and the failures so far are counted (R27,
R376). -/
def State.runImage (s : State) (img : Nat) (image : List Byte) : State :=
  let b := s.hub.boot
  let v := num image 8 4
  let s1 : State := { s with hub := { s.hub with boot :=
    { b with img := img, go := false, secver := v, keys := (List.range 2).map (identityKeys v) } } }
  if b.tries = 0 then s1 else s1.count (0x100 + (26 * 16 + 23) * 8) b.tries

/-- A verification ends (R22, R24, R376): the two hub dies disagree, a reason fails it, or the image runs. -/
def State.verified (s : State) (image : List Byte) (reasons : List Nat) (agree : Bool) (img : Nat) : State :=
  if !agree then s.verifyFails 8 6
  else match reasons with
    | [] => s.runImage img image
    | r :: rs => s.drew.verifyFails ((r :: rs).getD (s.free % (rs.length + 1)) r) 3

/-- FLASH_IMAGE_VERIFICATION_END (R22 to R24, R376). -/
def execFlashImageVerificationEnd (uce agree : Bool) (s : State) : Host.Outcome State Fault Refusal :=
  let b := s.hub.boot
  .next (if b.img = 1 then s.verified b.flash (if uce then [7] else verifyReasons Config.flashSize b.flash) agree 2 else s)

/-- The image that the host has staged (R25). -/
def Boot.staged (b : Boot) : List Byte := sgets 0 b.staging 0 (min b.blen 4194304)

/-- HOST_IMAGE_VERIFICATION_END (R22 to R25, R376). BLEN is read here, at the end of the verification: whether the doorbell latches
it is open (DESIGN CHOICE, log 24). -/
def execHostImageVerificationEnd (agree : Bool) (s : State) : Host.Outcome State Fault Refusal :=
  let b := s.hub.boot
  .next (if b.img = 4 then s.verified b.staged (verifyReasons (min b.blen 4194304) b.staged) agree 5 else s)

/-- BDOOR_GO (R24, R25). -/
def execBdoorGo (s : State) : Host.Outcome State Fault Refusal :=
  let b := s.hub.boot
  .next (if b.img = 3 ∧ s.hostReach = true then { s with hub := { s.hub with boot := { b with img := 4, go := true } } } else s)

/-- STAGING_WINDOW_WRITE (R25): bytes within the 4 MiB of the window. -/
def execStagingWindowWrite (off : Nat) (bytes : List Byte) (s : State) : Host.Outcome State Fault Refusal :=
  let b := s.hub.boot
  .next (if b.img = 3 ∧ s.hostReach = true then
      { s with hub := { s.hub with boot := { b with staging := sputs b.staging off (bytes.take (4194304 - off)) } } }
    else s)

/-! ## The firmware mailbox (R26) -/

/-- A request ends with FRES and STATUS (R26). -/
def State.answerHost (s : State) (res : Word) (status : Nat) : State :=
  { s with hub := { s.hub with boot := { s.hub.boot with fres := res, fstat := status, fgo := false } } }

/-- The submitted request is function f, and firmware performs it (R26). FUNC and the arguments are read here: whether GO latches
them is open (DESIGN CHOICE, log 73). -/
def State.mailbox (s : State) (f : Nat) (go : State → Word × State) : Host.Outcome State Fault Refusal :=
  let b := s.hub.boot
  .next (if b.fgo = true ∧ b.runs = true ∧ field b.fcmd 0 16 = f then (go s).2.answerHost (go s).1 2 else s)

/-- READ_POWER_LIMIT (R26). -/
def execReadPowerLimit (s : State) : Host.Outcome State Fault Refusal :=
  s.mailbox 1 fun s => (BitVec.ofNat 64 s.hub.boot.limit, s)

/-- SET_POWER_LIMIT (R15, R26). -/
def execSetPowerLimit (s : State) : Host.Outcome State Fault Refusal :=
  s.mailbox 2 fun s =>
    let n := min (max s.hub.boot.farg0.toNat 1200) 3600
    (BitVec.ofNat 64 n, { s with hub := { s.hub with boot := { s.hub.boot with limit := n } } })

/-- COUNTER_RESET (R26, R67). -/
def execCounterReset (reachable : Bool) (s : State) : Host.Outcome State Fault Refusal :=
  s.mailbox 3 fun s =>
    let r := s.resetCounter s.hub.boot.farg0 reachable
    (BitVec.ofNat 64 r.1, r.2)

/-- Pages of 128 KiB in a medium (R8). -/
def mediumPages (med : Nat) : Nat := if med = 0 then 524288 else 2097152

/-- The offset of the i-th page that firmware has free in a medium of T-die n: where they begin is open (log 2). -/
def freeOffset (n med i : Nat) : Nat := (Config.poolBase n med + i) % mediumPages med * 131072

/-- The free pages of a pool at a new size: pages leave from the end of the list, or pages of the medium that the pool does not
hold join it. -/
def resizePool (n med size : Nat) (free used : List Nat) : List Nat :=
  let want := size - used.length
  if want ≤ free.length then free.take want
  else
    let more := ((List.range (mediumPages med)).map (freeOffset n med)).filter fun o => !free.contains o && !used.contains o
    free ++ more.take (want - free.length)

/-- Pages of a pool in use. -/
def TDie.usedPages (t : TDie) (med : Nat) : List Nat :=
  (t.descs.map Prod.snd).filterMap fun d => if d.med = med then d.page else none

/-- The KV pools of a T-die are sized, or the request fails with 1 (R26, R276). -/
def State.sizePools (s : State) (n h l : Nat) : Word × State :=
  let t := s.tdie n
  let room := fun (med size : Nat) => size ≤ min (Config.freePages n med) (mediumPages med)
  let ready := s.isReady (ccuUnit n) && (h == 0 || s.isReady (.hbm (Fin.ofNat 22 n))) &&
    (l == 0 || s.isReady (.lpdr (Fin.ofNat 22 n)))
  if tdieOk s.hub.expanders n ∧ ready = true ∧ room 0 h ∧ room 1 l ∧
      (t.usedPages 0).length ≤ h ∧ (t.usedPages 1).length ≤ l then
    (0, s.setTdie n { t with
      freeH := resizePool n 0 h t.freeH (t.usedPages 0), freeL := resizePool n 1 l t.freeL (t.usedPages 1)
      sizeH := h, sizeL := l })
  else (1, s)

/-- SIZE_KV_POOLS (R26, R276). -/
def execSizeKvPools (s : State) : Host.Outcome State Fault Refusal :=
  s.mailbox 4 fun s =>
    let b := s.hub.boot
    if 22 ≤ b.farg0.toNat then (1, s) else s.sizePools b.farg0.toNat (field b.farg1 0 32) (field b.farg1 32 32)

/-- CLEAR_FENCE_LIST (R26, R369). -/
def execClearFenceList (s : State) : Host.Outcome State Fault Refusal :=
  s.mailbox 5 fun s => (0, { s with hub := { s.hub with fenceList := [] } })

/-- Which peers of a plane are present is open (R334, log 2); this module is present at its own place. -/
def Hub.drawMap (h : Hub) (plane free : Nat) : Hub :=
  let w := BitVec.ofNat 64 free ||| BitVec.ofNat 64 (2 ^ h.place plane)
  if plane = 0 then { h with rowmap := w } else { h with colmap := w }

/-- The counters of this module keep what they hold, under the handles that now name them (R64, R67, R334). -/
def State.rekey (s : State) (n : Nat) : State :=
  let key := fun (h : Nat) => h - s.hub.module * 2 ^ 23 + n * 2 ^ 23
  { s with
    counters := s.counters.map fun p => (key p.1, p.2)
    badCounters := s.badCounters.map key
    satCounters := s.satCounters.map key
    hub := { s.hub with module := n, valid := true } }

/-- SET_MODULE_NUMBER (R26, R334): the module's row and column then show which modules are present. -/
def execSetModuleNumber (s : State) : Host.Outcome State Fault Refusal :=
  s.mailbox 6 fun s =>
    if s.hub.valid then (1, s)
    else
      let s1 := s.rekey (field s.hub.boot.farg0 0 12)
      (0, { s1 with hub := (s1.hub.drawMap 0 s.free).drawMap 1 (Config.freeNat (s.draws + 1)) }.spend 2)

/-- UNDEFINED_FIRMWARE_FUNCTION (R26): another function, or a request while no firmware runs. -/
def execUndefinedFirmwareFunction (s : State) : Host.Outcome State Fault Refusal :=
  let b := s.hub.boot
  let f := field b.fcmd 0 16
  .next (if b.fgo = true ∧ (b.runs = false ∨ f = 0 ∨ 6 < f) then s.answerHost (BitVec.allOnes 64) 3 else s)

/-! ## Readiness (R19, R20, R24, R302, R369, R443) -/

/-- A function that firmware may bring up: it exists on the module, is neither fenced nor in the fence list, and the image
runs. An expander's functions need the expander attached, a fibre one of its channels (R19, R444), the host link of hub die 17 a
connection (R17). PRES of a package T-die comes with its island's power (R20). -/
def State.mayReady (s : State) (u : UnitId) : Bool :=
  let n := (unitOf u).1
  s.hub.boot.runs && (dieUnits (Fin.ofNat 22 n)).contains u && !s.hub.fenced.contains u &&
    !(s.hub.fenceList.map Prod.fst).contains u && (n < 18 || s.hub.expanders.contains n) &&
    match u with
    | .fibre i => 64 ≤ i.val % 128 || !s.hub.dark (i.val / 128) (i.val % 128)
    | .pres m => 16 ≤ m.val
    | .host h => h == 0 || Config.secondLink
    | _ => true

/-- A host link trains as PCIe or as CXL 3.2: which is open here (R17, R342; log 2). -/
def State.train (s : State) (n : Nat) : State :=
  let l := s.hub.cxl.filter (· ≠ n)
  { s with hub := { s.hub with cxl := if s.free % 2 = 1 then l ++ [n] else l } }.drew

/-- What becomes of a function's own state as it reports ready: firmware releases an Awl, a link is trained at full width, an
expander is attached at its port, in CXL or UALink mode, a host link is trained as PCIe or as CXL, and the peers of a plane show as
its fibres come up: the modes and the peers are open here (R17, R334, R343; log 2). -/
def State.broughtUp (s : State) (u : UnitId) : State :=
  match u with
  | .awl d => s.setAwl d { (s.kdie d).awl with hold := false }
  | .link n m => s.setLink n m fun l => { l with width := 2, rate := 0 }
  | .xport h p =>
    let n := 18 + 2 * h.val + p.val
    { s with hub := { s.hub with
        expanders := if s.hub.expanders.contains n then s.hub.expanders else s.hub.expanders ++ [n]
        ualink := if s.free % 2 = 1 then s.hub.ualink ++ [n] else s.hub.ualink } }.drew
  | .host h => s.train (16 + h.val)
  | .fibre i => if s.hub.valid then { s with hub := s.hub.drawMap (i.val / 128) s.free }.drew else s
  | _ => s

/-- FUNCTION_READY (R19, R24). -/
def execFunctionReady (u : UnitId) (s : State) : Host.Outcome State Fault Refusal :=
  .next (if s.mayReady u && !s.isReady u then (s.broughtUp u).setReady u else s)

/-! ## Islands and temperature (R11 to R16, R293, R375) -/

/-- Replace an island's status word. -/
def State.setIsland (s : State) (i : Nat) (x : Island) : State := { s with hub := { s.hub with islands := sput s.hub.islands i x } }

/-- The nominal clock of an island in MHz, and its nominal supply in mV before the trim (R11). -/
def nominal (i : Nat) : Nat × Nat :=
  if i < 8 then (850, 750) else if i < 16 then (1700, 800) else if i < 24 then (1000, 750) else (1000, 800)

/-- The nominal supply of an island of this module: firmware's trim is at most 25 mV either way (R11). -/
def trimmed (i : Nat) : Nat := ((nominal i).2 + max (-25) (min (Config.supplyTrim i) 25)).toNat

/-- A point that an island may take (R11, R14): the nominal one, or one below it for the power limit, or for heat where the die
has reached 95 °C. -/
def Island.may (old x : Island) (i : Nat) : Bool :=
  decide (0 < x.mhz ∧ x.mhz ≤ (nominal i).1 ∧ x.mv ≤ trimmed i) && (!x.hot || old.hot) &&
  (x.pwr || x.hot) == decide (x.mhz < (nominal i).1 ∨ x.mv < trimmed i)

/-- An island has power: a package T-die reports itself present (R20). -/
def State.islandOn (s : State) (i : Nat) : State :=
  if 16 ≤ i ∧ i < 24 then s.setReady (.pres (Fin.ofNat 22 (i - 8))) else s

/-- OPERATING_POINT_CHANGE (R11 to R14, R20). -/
def execOperatingPointChange (i : Fin 26) (mhz mv : Nat) (pwr hot : Bool) (s : State) : Host.Outcome State Fault Refusal :=
  let x : Island := ⟨mhz, mv, pwr, hot⟩
  .next (if s.hub.boot.runs && (sget {} s.hub.islands i.val).may x i then (s.setIsland i x).islandOn i else s)

/-- The islands of a die (R11): a K-die has two, an expander none of the module's. -/
def dieIslands (n : Nat) : List Nat :=
  if n < 8 then [n, 8 + n] else if n < 16 then [8 + n] else if n < 18 then [8 + n] else []

/-- The bin of a temperature (R375). -/
def thermalBin (t : Nat) : Nat := if t < 40 then 0 else min ((t - 35) / 5) 15

/-- The islands of a die take lower points, marked HOT. -/
def State.lower (s : State) : List Nat → List (Nat × Nat) → State
  | i :: is, p :: ps => (s.setIsland i { sget {} s.hub.islands i with mhz := p.1, mv := p.2, hot := true }).lower is ps
  | _, _ => s

/-- Every new point lies below the present one (R16). -/
def State.lowers (s : State) : List Nat → List (Nat × Nat) → Bool
  | [], [] => true
  | i :: is, p :: ps =>
    let x := sget {} s.hub.islands i
    decide (0 < p.1 ∧ p.1 ≤ x.mhz ∧ p.2 ≤ x.mv ∧ (p.1 < x.mhz ∨ p.2 < x.mv)) && s.lowers is ps
  | _, _ => false

/-- DIE_REACHES_95C (R16, R293, R364, R367, R374): the islands' points and a T-die's ACTLIM are lowered, and the event is
recorded and written to the telemetry store. The spec gives neither unit kind, class nor flags of the THERM record (log 2). -/
def execDieReaches95c (n : Fin 22) (points : List (Nat × Nat)) (actlim : Nat) (s : State) : Host.Outcome State Fault Refusal :=
  let t := s.tdie n
  let isT := tdieOk s.hub.expanders n
  let present := n.val < 18 || s.hub.expanders.contains n
  if !(s.hub.boot.runs && present && s.lowers (dieIslands n) points &&
      (!isT || (16 ≤ actlim && actlim % 16 == 0 && decide (actlim < t.actlim ∨ t.actlim = 16 ∧ actlim = 16)))) then .next s
  else
    let s1 := s.lower (dieIslands n) points
    let s2 := if isT then s1.setTdie n { t with actlim := actlim } else s1
    let s3 := (s2.countNow (0x1300 + 128 * n + 8 * thermalBin 95) 1)
    let r := { s3 with hub := s3.hub.raise 23 }
    .next ((r.record n n (r.free % 26) 0 THERM (r.free / 26 % 6) (r.free / 156 % 2 == 0) false 0 0).drew)

/-- DIE_REACHES_110C (R16, R374): the event is written to the telemetry store, and the module loses power. -/
def execDieReaches110c (n : Fin 22) (s : State) : Host.Outcome State Fault Refusal :=
  .next ((s.countNow (0x1300 + 128 * n + 8 * thermalBin 110) 1).powerOff)

/-- One sample of each die's hottest junction, in °C by die number (R375). -/
def State.sampleDies (s : State) (n : Nat) : List Nat → State
  | [] => s
  | t :: ts => (if n < 22 then s.count (0x1300 + 128 * n + 8 * thermalBin t) 1 else s).sampleDies (n + 1) ts

/-- THERMAL_SAMPLE (R375): every 1 ms. -/
def execThermalSample (temps : List Nat) (s : State) : Host.Outcome State Fault Refusal :=
  .next (if s.hub.sampled + 1000000 ≤ s.now then
      ({ s with hub := { s.hub with sampled := s.now / 1000000 * 1000000 } }).sampleDies 0 temps
    else s)

end Sys2Proof.Machine
end

