-- ==== Sys2Proof/Machine/HostLink.lean ====
section
/-! DEFINITION. What the host does: registers of hub control space, memory, its links, and the patrol scrubber
(R5, R25, R26, R36, R312, R339, R341, R342, R362, R365, R367, R403, R450, R451). -/

namespace Sys2Proof.Machine

/-! ## Registers with rows of their own (R339, R365) -/

/-- LOGTAIL_WRITE (R365): TAIL is taken modulo 2^32, and a write that leaves HEAD − TAIL outside 0 to 256 is ignored. -/
def execLogtailWrite (n : Fin 22) (w : Word) (s : State) : Host.Outcome State Fault Refusal :=
  let l := sget {} s.hub.logs n
  let d := (l.head % 2 ^ 32 + 2 ^ 32 - field w 0 32) % 2 ^ 32
  let head := if d ≤ l.head then l.head else l.head + 2 ^ 32
  .next (if s.hostReach = true ∧ d ≤ 256 then
      { s with hub := { s.hub with logs := sput s.hub.logs n { l with head := head, tail := head - d } } }
    else s)

/-- GDEF_WRITE (R339, R434). -/
def execGdefWrite (g : Fin 256) (w : Word) (s : State) : Host.Outcome State Fault Refusal :=
  let h := s.hub
  .next (if s.hostReach then
      { s with hub := { h with
        gdef := sput h.gdef g (BitVec.ofNat 64 (field w 0 14))
        broken := if bitOf w.toNat 13 then h.broken.filter (· ≠ g.val) else h.broken } }
    else s)

/-! ## Other registers (R5) -/

/-- A write to a core's boot mailbox: IMAGE or ARG (R36). -/
def State.writeMailbox (s : State) (c off : Nat) (w : Word) : State :=
  let k := s.core c
  match off with
  | 0 => s.setCore c { k with mbox := { k.mbox with image := w } }
  | 8 => s.setCore c { k with mbox := { k.mbox with arg := w } }
  | _ => s

/-- A write to the graph engine's block: GSTAT's W1C bits, or a pending parameter (R312). -/
def State.writeGraph (s : State) (off : Nat) (w : Word) : State :=
  let g := s.hub.graph
  if off = 0x10 then s.setGraph { g with drop := g.drop && !bitOf w.toNat 34, fault := g.fault && !bitOf w.toNat 35 }
  else if 0x800 ≤ off ∧ off < 0x1000 then s.setGraph { g with gp := sput g.gp ((off - 0x800) / 8) w }
  else s

/-- A write to the boot block or the firmware mailbox (R25, R26): while no firmware runs, a request ends at once. -/
def Boot.write (b : Boot) (off : Nat) (w : Word) : Boot :=
  match off with
  | 0x808 => { b with blen := field w 0 23 }
  | 0xA00 => { b with fcmd := BitVec.ofNat 64 (field w 0 16) }
  | 0xA08 => { b with farg0 := w }
  | 0xA10 => { b with farg1 := w }
  | 0xA18 =>
    if !bitOf w.toNat 0 || b.fgo then b
    else if b.runs then { b with fgo := true, fstat := 1 } else { b with fres := BitVec.allOnes 64, fstat := 3 }
  | _ => b

/-- A 64-bit write at an offset of BAR0 to a register with no row of its own; RO registers and unlisted offsets ignore it. -/
def State.writeRegister (s : State) (off : Nat) (w : Word) : State :=
  let h := s.hub
  if off % 8 ≠ 0 then s
  else if off < 0x1000 then { s with hub := { h with boot := h.boot.write off w } }
  else if 0x20000 ≤ off ∧ off < 0x28000 then s.writeMailbox ((off - 0x20000) / 64) (off % 64) w
  else if 0xC0000 ≤ off ∧ off < 0xC1000 then s.writeGraph (off - 0xC0000) w
  else if 0xE0000 ≤ off ∧ off < 0xE1000 ∧ off % 16 = 8 then
    { s with hub := { h with glist := sput h.glist ((off - 0xE0000) / 16) (BitVec.ofNat 64 (field w 0 57)) } }
  else if off = 0x170000 then { s with hub := { h with histat := h.histat &&& ~~~(w.setWidth 26) } }
  else if off = 0x170008 then { s with hub := { h with himask := w.setWidth 26 } }
  else s

/-- REGISTER_WRITE (R5). -/
def execRegisterWrite (off : Nat) (w : Word) (s : State) : Host.Outcome State Fault Refusal :=
  .next (if s.hostReach then s.writeRegister off w else s)

/-! ## The host links (R341, R342, R450, R451) -/

/-- A record of a host link; the spec gives a dropped write no class and no flags (log 2). -/
def State.hostRecord (s : State) (h : Fin 2) (synd cls : Nat) (intr : Bool) (addr : Word) : State :=
  s.record (16 + h) (16 + h) 16 0 synd cls intr false addr 0

/-- HOST_TLP_RECEIVE (R450): a damaged write is dropped and recorded. What else a transaction does has its own rows. -/
def execHostTlpReceive (h : Fin 2) (off : Nat) (damaged : Bool) (s : State) : Host.Outcome State Fault Refusal :=
  .next (if damaged && !s.hub.hostDown.contains (16 + h.val) then
      (s.hostRecord h HOSTL (s.free % 6) (s.free / 6 % 2 == 0) (BitVec.ofNat 64 off)).drew
    else s)

/-- HOST_LINK_DOWN (R451). -/
def execHostLinkDown (h : Fin 2) (s : State) : Host.Outcome State Fault Refusal :=
  let n := 16 + h.val
  .next (if s.hub.hostDown.contains n || (h == 1 && !Config.secondLink) then s
    else ({ s with hub := { s.hub with hostDown := s.hub.hostDown ++ [n] } }.hostRecord h HOSTL 4 true 0).count
      (0x3B40 + 8 * h.val) 1)

/-- HOST_LINK_RETURN (R450, R451): an interrupt is due if an enabled bit is 1; a narrower or slower link leaves a record, also after a
retrain for which the link did not go down. -/
def execHostLinkReturn (h : Fin 2) (narrow : Bool) (s : State) : Host.Outcome State Fault Refusal :=
  let n := 16 + h.val
  let u := s.hub
  .next (if u.hostDown.contains n then
      let due := n = 16 ∧ u.histat &&& u.himask ≠ 0
      let s1 := { s with hub := { u with
        hostDown := u.hostDown.filter (· ≠ n), interrupts := if due then u.interrupts + 1 else u.interrupts } }
      let s2 := s1.train n
      if narrow then s2.hostRecord h LDEG 1 true 0 else s2
    else if narrow && s.isReady (.host h) then s.hostRecord h LDEG 1 true 0
    else s)

/-- The die-local PAs of a range of the interleaved HBM4E region (R100, R341, R342). -/
def hostPas (off n : Nat) : List Nat := (List.range n).filterMap fun i => homePa [] (2 ^ 47 + off + i)

/-- The lines of a list of PAs, each once. -/
def linesOfPas (l : List Nat) : List Nat := (l.map lineOf).eraseDups

/-- Bytes that the host stores reach their homes (R342, R404): the lines' leases move on, and a line written whole is clean. -/
def State.hostStore (s : State) (off : Nat) (bytes : List Byte) : State :=
  let pas := hostPas off bytes.length
  let ls := linesOfPas pas
  let s1 := (s.mergeLines ls).putBytes ((pas.map fun p => (p, true)).zip bytes)
  let s2 := ls.foldl State.stampStore s1
  (ls.filter fun l => (List.range 128).all fun i => pas.contains (l + i)).foldl State.clearMark s2

/-- A host load returns the bytes at their homes; errors that it finds are marked, and poisoned lines give Completer Abort and no
data (R117, R342, R361, R403, R450). -/
def State.hostLoad (s : State) (off n : Nat) : State :=
  let pas := hostPas off n
  let ls := linesOfPas pas
  let at' := ls.map fun l => (l, l)
  let s1 := ls.foldl State.renewLease (s.mergeLines ls)
  let bytes := if (s1.firstBadLine at').isSome then none else some (pas.map s1.byte)
  let s2 := s1.markAll at' fun f => memInfo 0 0 false PR n f
  { s2 with hub := { s2.hub with hostRead := bytes } }

/-- A link's window onto the interleaved HBM4E region has room for an access: BAR2 shows 64 GiB, from the region's first byte on
(log 75), and CXL.mem all of it. The link is up and ready (R100, R341, R342). -/
def State.hostWindow (s : State) (n last : Nat) : Bool :=
  s.linkIn n && s.isReady (.host (Fin.ofNat 2 (n - 16))) && decide (last ≤ if s.hub.cxl.contains n then 2 ^ 39 else 2 ^ 36)

/-- HOST_MEMORY_ACCESS (R341, R342, R368): after an egress stop no load is answered. -/
def execHostMemoryAccess (a : HostAccess) (s : State) : Host.Outcome State Fault Refusal :=
  let open' := fun (last : Nat) => s.hostWindow 16 last || s.hostWindow 17 last
  match a with
  | .load off n => .next (if open' (off + n) && !s.hub.egress then s.hostLoad off n else s)
  | .store off bytes => .next (if open' (off + bytes.length) then s.hostStore off bytes else s)

/-! ## The patrol scrubber (R362, R403, R404, R429, R433) -/

/-- Which slot holds the j-th occupied candidate block of an Awl, blocks counted in slot order, and its number in the slot. -/
def Awl.blockAt (a : Awl) (j : Nat) : Option (Nat × Nat) :=
  (((List.range 256).flatMap fun n => (List.range (a.slot n).nblk).map fun b => (n, b)))[j]?

/-- The scrubber finds a candidate block uncorrectable: one UCE record of its Awl; its mark stands until it is rewritten (R362,
R363, R429). -/
def State.scrubBlock (s : State) (d j : Nat) : State :=
  let a := (s.kdie d).awl
  match a.blockAt j with
  | none => s
  | some (n, b) =>
    let x := a.slot n
    if x.badBlocks.contains b && !x.scrubbed.contains b && !s.silent d 6 0 then
      (s.setAwl d (a.setSlot n { x with scrubbed := x.scrubbed ++ [b] })).record d d 6 0 UCE 2 true false 0 0
    else s

/-- The scrubber finds an uncorrectable partial of a reduce-state line: the line is marked, with one UCE record of its LLC slice; the
values absorbed in the line are lost at its merge (R362, R413). -/
def State.scrubPartial (s : State) (pa : Nat) : State :=
  let l := lineOf pa
  match slook s.reds l with
  | none => s
  | some r =>
    let u := homeOf l
    if r.bad && !s.poison.contains l then
      (({ s with reds := sput s.reds l { r with bad := false } }).setMark l).record u u 13 (llcPlace l % 32) UCE 2 true false
        (BitVec.ofNat 64 l) (memInfo 0 0 false 0 0 (plainFault UCE (BitVec.ofNat 64 l) s.hub.module))
    else s

/-- PATROL_SCRUB: an uncorrectable line is marked and recorded, with ACC 0 and LEN 0; a corrected one holds what it held. -/
def execPatrolScrub (x : ScrubSite) (s : State) : Host.Outcome State Fault Refusal :=
  let info := fun (space : Nat) (f : MemFault) => memInfo 0 space false 0 0 f
  match x with
  | .line pa =>
    let l := lineOf pa
    .next (s.markDamaged l (info 0 (plainFault UCE (BitVec.ofNat 64 l) s.hub.module)))
  | .tile c l => .next (s.findLine c l (info 1 (plainFault UCE (BitVec.ofNat 64 (128 * l)) s.hub.module)))
  | .heapEntry d i => .next (if ((s.kdie d).heap[i]?).any (·.bad) then s.sweepHeap d else s)
  | .candidate d j => .next (s.scrubBlock d j)
  | .reducePartial pa => .next (s.scrubPartial pa)

end Sys2Proof.Machine
end

