-- ==== Sys2Proof/Machine/Integer.lean ====
section
/-! DEFINITION. Integer and address arithmetic of the shared map (R166 to R169). -/

namespace Sys2Proof.Machine

/-- 1 or 0. -/
def boolWord (b : Bool) : Word := if b then 1 else 0

/-- Only bits [5:0] of a shift amount count (R166). -/
def amount (b : Word) : Nat := b.toNat % 64

/-- Quotient of `div` (R167). -/
def divS (a b : Word) : Word :=
  if b = 0 then BitVec.allOnes 64 else BitVec.ofInt 64 (a.toInt.tdiv b.toInt)

/-- Quotient of `divu` (R167). -/
def divU (a b : Word) : Word := if b = 0 then BitVec.allOnes 64 else BitVec.ofNat 64 (a.toNat / b.toNat)

/-- Remainder of `rem` (R167). -/
def remS (a b : Word) : Word := if b = 0 then a else BitVec.ofInt 64 (a.toInt.tmod b.toInt)

/-- Remainder of `remu` (R167). -/
def remU (a b : Word) : Word := if b = 0 then a else BitVec.ofNat 64 (a.toNat % b.toNat)

/-- Leading zero bits, 0 to 64 (R166). -/
def clzWord (a : Word) : Word := BitVec.ofNat 64 (if a = 0 then 64 else 63 - Nat.log2 a.toNat)

/-- Number of 1 bits (R166). -/
def popWord (a : Word) : Word := BitVec.ofNat 64 (((List.range 64).filter fun i => a.getLsbD i).length)

/-- High 64 bits of the signed product (R166). -/
def mulHigh (a b : Word) : Word := BitVec.ofInt 64 (a.toInt * b.toInt / 2 ^ 64)

/-- High 64 bits of the unsigned product (R166). -/
def mulHighU (a b : Word) : Word := BitVec.ofNat 64 (a.toNat * b.toNat / 2 ^ 64)

/-- imm16 in halfword k, every other bit kept (R169). -/
def insertHalf (k : Nat) (a : Word) (i : Nat) : Word :=
  (a &&& ~~~(BitVec.ofNat 64 (65535 * 2 ^ (16 * k)))) ||| BitVec.ofNat 64 (i * 2 ^ (16 * k))

/-- ADD (R166). -/
def execAdd (h : Hdr) (d a b : Fin 32) (s : State) : Host.Outcome State Fault Refusal :=
  .next (s.alu h d a b 1 fun x y => x + y)
/-- SUB (R166). -/
def execSub (h : Hdr) (d a b : Fin 32) (s : State) : Host.Outcome State Fault Refusal :=
  .next (s.alu h d a b 1 fun x y => x - y)
/-- AND (R166). -/
def execAnd (h : Hdr) (d a b : Fin 32) (s : State) : Host.Outcome State Fault Refusal :=
  .next (s.alu h d a b 1 fun x y => x &&& y)
/-- OR (R166). -/
def execOr (h : Hdr) (d a b : Fin 32) (s : State) : Host.Outcome State Fault Refusal :=
  .next (s.alu h d a b 1 fun x y => x ||| y)
/-- XOR (R166). -/
def execXor (h : Hdr) (d a b : Fin 32) (s : State) : Host.Outcome State Fault Refusal :=
  .next (s.alu h d a b 1 fun x y => x ^^^ y)
/-- SHL (R166). -/
def execShl (h : Hdr) (d a b : Fin 32) (s : State) : Host.Outcome State Fault Refusal :=
  .next (s.alu h d a b 1 fun x y => x <<< amount y)
/-- SHR (R166). -/
def execShr (h : Hdr) (d a b : Fin 32) (s : State) : Host.Outcome State Fault Refusal :=
  .next (s.alu h d a b 1 fun x y => x >>> amount y)
/-- SRA (R166). -/
def execSra (h : Hdr) (d a b : Fin 32) (s : State) : Host.Outcome State Fault Refusal :=
  .next (s.alu h d a b 1 fun x y => x.sshiftRight (amount y))
/-- SLT (R166). -/
def execSlt (h : Hdr) (d a b : Fin 32) (s : State) : Host.Outcome State Fault Refusal :=
  .next (s.alu h d a b 1 fun x y => boolWord (x.slt y))
/-- SLTU (R166). -/
def execSltu (h : Hdr) (d a b : Fin 32) (s : State) : Host.Outcome State Fault Refusal :=
  .next (s.alu h d a b 1 fun x y => boolWord (x.ult y))
/-- MIN (R166). -/
def execMin (h : Hdr) (d a b : Fin 32) (s : State) : Host.Outcome State Fault Refusal :=
  .next (s.alu h d a b 1 fun x y => if x.slt y then x else y)
/-- MAX (R166). -/
def execMax (h : Hdr) (d a b : Fin 32) (s : State) : Host.Outcome State Fault Refusal :=
  .next (s.alu h d a b 1 fun x y => if x.slt y then y else x)
/-- MINU (R166). -/
def execMinu (h : Hdr) (d a b : Fin 32) (s : State) : Host.Outcome State Fault Refusal :=
  .next (s.alu h d a b 1 fun x y => if x.ult y then x else y)
/-- MAXU (R166). -/
def execMaxu (h : Hdr) (d a b : Fin 32) (s : State) : Host.Outcome State Fault Refusal :=
  .next (s.alu h d a b 1 fun x y => if x.ult y then y else x)
/-- MUL (R166). -/
def execMul (h : Hdr) (d a b : Fin 32) (s : State) : Host.Outcome State Fault Refusal :=
  .next (s.alu h d a b 3 fun x y => x * y)
/-- MULH (R166). -/
def execMulh (h : Hdr) (d a b : Fin 32) (s : State) : Host.Outcome State Fault Refusal :=
  .next (s.alu h d a b 3 mulHigh)
/-- MULHU (R166). -/
def execMulhu (h : Hdr) (d a b : Fin 32) (s : State) : Host.Outcome State Fault Refusal :=
  .next (s.alu h d a b 3 mulHighU)
/-- DIV (R167). -/
def execDiv (h : Hdr) (d a b : Fin 32) (s : State) : Host.Outcome State Fault Refusal :=
  .next (s.aluLong h d a b divS)
/-- DIVU (R167). -/
def execDivu (h : Hdr) (d a b : Fin 32) (s : State) : Host.Outcome State Fault Refusal :=
  .next (s.aluLong h d a b divU)
/-- REM (R167). -/
def execRem (h : Hdr) (d a b : Fin 32) (s : State) : Host.Outcome State Fault Refusal :=
  .next (s.aluLong h d a b remS)
/-- REMU (R167). -/
def execRemu (h : Hdr) (d a b : Fin 32) (s : State) : Host.Outcome State Fault Refusal :=
  .next (s.aluLong h d a b remU)
/-- CLZ (R166). -/
def execClz (h : Hdr) (d a : Fin 32) (s : State) : Host.Outcome State Fault Refusal := .next (s.alu1 h d a clzWord)
/-- POPC (R166). -/
def execPopc (h : Hdr) (d a : Fin 32) (s : State) : Host.Outcome State Fault Refusal := .next (s.alu1 h d a popWord)
/-- ADDI (R168). -/
def execAddi (h : Hdr) (d a : Fin 32) (i : Fin 2048) (s : State) : Host.Outcome State Fault Refusal :=
  .next (s.aluImm h d a fun x => x + sxWord 11 i)
/-- ANDI (R168). -/
def execAndi (h : Hdr) (d a : Fin 32) (i : Fin 2048) (s : State) : Host.Outcome State Fault Refusal :=
  .next (s.aluImm h d a fun x => x &&& BitVec.ofNat 64 i)
/-- ORI (R168). -/
def execOri (h : Hdr) (d a : Fin 32) (i : Fin 2048) (s : State) : Host.Outcome State Fault Refusal :=
  .next (s.aluImm h d a fun x => x ||| BitVec.ofNat 64 i)
/-- XORI (R168). -/
def execXori (h : Hdr) (d a : Fin 32) (i : Fin 2048) (s : State) : Host.Outcome State Fault Refusal :=
  .next (s.aluImm h d a fun x => x ^^^ BitVec.ofNat 64 i)
/-- SLTI (R168). -/
def execSlti (h : Hdr) (d a : Fin 32) (i : Fin 2048) (s : State) : Host.Outcome State Fault Refusal :=
  .next (s.aluImm h d a fun x => boolWord (x.slt (sxWord 11 i)))
/-- SLTIU (R168). -/
def execSltiu (h : Hdr) (d a : Fin 32) (i : Fin 2048) (s : State) : Host.Outcome State Fault Refusal :=
  .next (s.aluImm h d a fun x => boolWord (x.ult (sxWord 11 i)))
/-- SHLI (R168). -/
def execShli (h : Hdr) (d a : Fin 32) (i : Fin 64) (s : State) : Host.Outcome State Fault Refusal :=
  .next (s.aluImm h d a fun x => x <<< i.val)
/-- SHRI (R168). -/
def execShri (h : Hdr) (d a : Fin 32) (i : Fin 64) (s : State) : Host.Outcome State Fault Refusal :=
  .next (s.aluImm h d a fun x => x >>> i.val)
/-- SRAI (R168). -/
def execSrai (h : Hdr) (d a : Fin 32) (i : Fin 64) (s : State) : Host.Outcome State Fault Refusal :=
  .next (s.aluImm h d a fun x => x.sshiftRight i.val)
/-- MOVI (R169). -/
def execMovi (h : Hdr) (d : Fin 32) (i : Fin 65536) (s : State) : Host.Outcome State Fault Refusal :=
  .next (s.issue h (s.scalar [wrx d 16] 1 d (sxWord 16 i)))

/-- `movk.k` reads its destination (R169). -/
def State.movk (s : State) (h : Hdr) (k d i : Nat) : State :=
  s.issue h (s.scalar [⟨.x d, true, true, 16⟩] 1 d (insertHalf k (s.rx d) i))

/-- MOVK1 (R169). -/
def execMovk1 (h : Hdr) (d : Fin 32) (i : Fin 65536) (s : State) : Host.Outcome State Fault Refusal := .next (s.movk h 1 d i)
/-- MOVK2 (R169). -/
def execMovk2 (h : Hdr) (d : Fin 32) (i : Fin 65536) (s : State) : Host.Outcome State Fault Refusal := .next (s.movk h 2 d i)
/-- MOVK3 (R169). -/
def execMovk3 (h : Hdr) (d : Fin 32) (i : Fin 65536) (s : State) : Host.Outcome State Fault Refusal := .next (s.movk h 3 d i)

end Sys2Proof.Machine
end

