-- ==== Sys2Proof/Machine/SaveArea.lean ====
section
/-! DEFINITION. `ssave` and `srest`, and the writing of an area: the layout of a save area and what it restores (R190, R191, R321, R322). Where R321 lists
the contents of a region without their offsets, they stand in the order given here (log 22). -/

namespace Sys2Proof.Machine

/-! ## Writing an area -/

/-- Bytes filled up with zeros to a length. -/
def padTo (n : Nat) (bs : List Byte) : List Byte := (bs ++ List.replicate (n - bs.length) 0).take n

/-- Eight bytes of a word. -/
def w8 (v : Word) : List Byte := bytesOf 8 v.toNat

/-- Eight bytes of a number. -/
def n8 (n : Nat) : List Byte := bytesOf 8 n

/-- A loop stack, innermost level first: start, end and count, a count of zero for no level. -/
def loopBytes (ls : List LoopLevel) : List Byte :=
  padTo 96 (ls.flatMap fun l => n8 l.start ++ n8 l.stop ++ n8 l.count)

/-- A queue: its number of entries and their values. -/
def queueBytes (vs : List Word) (places : Nat) : List Byte := n8 vs.length ++ padTo (8 * places) (vs.flatMap w8)

/-- The values of a queue register's entries. -/
def Queue.values (u : Queue) : List Word := u.entries.map fun e => match e.val with
  | some (v, _) => v
  | none => 0

/-- A plane's state and tags. -/
def planeTags (p : Plane) : List Byte :=
  n8 p.state ++ n8 p.tag ++ n8 (match p.issueTag with
    | some t => t + 1
    | none => 0)

/-- A deferred slot: syndrome, address and information, a syndrome of zero for an empty slot. -/
def slotBytes (d : Option Deferred) : List Byte :=
  match d with
  | some x => n8 x.synd ++ w8 x.addr ++ w8 x.info
  | none => n8 0 ++ n8 0 ++ n8 0

/-- Held engine traps: their number, and of each its strand, syndrome, address and information (R73, R419). -/
def trapBytes (l : List EngineTrap) : List Byte :=
  let l := l.take 20
  n8 l.length ++ padTo 640 (l.flatMap fun t => n8 t.strand.index ++ n8 t.synd ++ w8 t.addr ++ w8 t.info)

/-- Numbers of special registers that an area holds. -/
abbrev sprPlaces : Nat := 96

/-- Pairs of strands, as the queues are ordered. -/
def strandPairs : List (StrandId × StrandId) :=
  allStrands.flatMap fun a => allStrands.filterMap fun b => if a = b then none else some (a, b)

/-- The core-scope counters of a core by index. -/
def State.coreCounters (s : State) (c : Nat) : SMap Nat :=
  (s.counters.filter fun p => coreCounter s.hub.module c p.1).map fun p => (p.1 % 2 ^ 12, p.2)

/-- The defined region at 0x1000. -/
def State.regsRegion (s : State) (c : Nat) : List Byte :=
  let k := s.core c
  (allStrands.flatMap fun t => (List.range 32).flatMap fun r => w8 (sget 0 (k.strand t).x r)) ++
  (allStrands.flatMap fun t => loopBytes (k.strand t).loops ++ loopBytes (k.strand t).aside) ++
  (strandPairs.flatMap fun p => queueBytes (k.queue p.1 p.2).values 8) ++
  (allStrands.flatMap fun t => queueBytes (sget [] k.demands t.index) 32) ++
  (allStrands.flatMap fun t => (List.range sprPlaces).flatMap fun n => w8 (s.spr c t n)) ++
  ((List.range 256).flatMap fun i => n8 (sget 0 (s.coreCounters c) i)) ++
  ((List.range 320).flatMap fun t => w8 (k.tile t).word) ++
  ((List.range 8).flatMap fun i => slotBytes (sget none k.deferred i)) ++ planeTags k.w0 ++ planeTags k.w1 ++
  trapBytes k.traps

/-- Elements of 32 bits by key. -/
def elemRegion (m : SMap W32) (n : Nat) : List Byte := (List.range n).flatMap fun i => bytesOf 4 (sget 0 m i).toNat

/-- A mask pair in the 40 bytes of R225. -/
def maskImage (p : MaskPair) : List Byte := bytesOf 16 p.row.toNat ++ bytesOf 24 p.col.toNat

/-- What tells a forced save's area from an `ssave`'s (R321, R322): the number of the register, the resume index, and the linear
iteration number of a forced save. -/
inductive AreaKind where
  | ssave (xd resume : Nat)
  | forced (linear : Nat)
  deriving DecidableEq, Repr

/-- The header of an area but for the digest (R322). -/
def State.areaHeader (s : State) (c : Nat) (kind : AreaKind) : List Byte :=
  let k := s.core c
  let d := dieOf c
  let p := match kind with
    | .ssave xd resume => (1, xd, resume, 0)
    | .forced linear => (2, 0, 0, linear)
  padTo 0x1000 (bytesOf 4 0x53564146 ++
    [BitVec.ofNat 8 p.1, BitVec.ofNat 8 d, BitVec.ofNat 8 (field k.spsplit 0 2), BitVec.ofNat 8 p.2.1] ++
    bytesOf 4 (s.kdie d).recv ++ bytesOf 4 p.2.2.1 ++ w8 k.ctx ++ w8 k.lineageLo ++ w8 k.lineageHi ++ n8 p.2.2.2)

/-- The regions that a save writes, with their offsets, but for the digest (R321): the engine image and instruction memory only
in a forced save. -/
def State.areaParts (s : State) (c : Nat) (kind : AreaKind) : List (Nat × List Byte) :=
  let k := s.core c
  let forced := match kind with
    | .ssave .. => []
    | .forced _ =>
      [(0x6000, padTo 0x2000 (Config.engineImage s.draws)),
       (0x80000, (List.range 24576).flatMap fun i => bytesOf 4 (sget 0 k.imem i).toNat)]
  [(0, s.areaHeader c kind), (0x1000, padTo 0x3000 (s.regsRegion c)),
   (0x4000, padTo 0x2000 (elemRegion k.vec.grid 1024 ++ elemRegion k.vec.ofile 256 ++ elemRegion k.vec.lat 32 ++
     (List.range 8).flatMap fun i => maskImage (sget {} k.masks i))),
   (0x8000, sgets 0 k.w0.bytes 0 0xC000), (0x14000, sgets 0 k.w1.bytes 0 0xC000),
   (0x20000, (List.range 512).flatMap fun r => padTo 768 ((sget [] k.acc r).flatMap fun e => bytesOf 4 e.toNat)),
   (0x98000, padTo 0x140000 (k.padRead 0 k.padSize)),
   (0x1D8000, padTo 0x1000 (bytesOf 2 k.mpRows ++ List.replicate 14 0 ++ k.mpBytes)), (0x1D9000, padTo 0x800 k.lut),
   (0x1D9800, padTo 0x26800 [])] ++ forced

/-- The digest of an area (R322): SHAKE256 of the die's area key and every other byte. -/
def areaDigest (d : Nat) (area : List Byte) : List Byte :=
  shake256 (Config.areaKey d ++ area.take 0x30 ++ area.drop 0x50) 32

/-- Bytes of a save area. -/
abbrev areaBytes : Nat := 0x200000

/-- Lines of the area that hold poisoned tile lines (R361). -/
def Core.areaMarks (c : Core) : List Nat := (c.padPoison ++ c.padDamaged).map fun l => 0x98000 + 128 * l

/-- Parts of an area are written, and then the digest of the area as it stands (R321, R322). -/
def sealWith (put : State → Nat → List Byte → State) (get : State → List Byte) (d : Nat) (parts : List (Nat × List Byte))
    (s : State) : State :=
  let s1 := parts.foldl (fun s p => put s p.1 p.2) s
  put s1 0x30 (areaDigest d (get s1))

/-- A save reads every tile line of the core, and finds the damaged ones (R358, R403). INFO of such a record is 0 (DESIGN CHOICE,
log 82). -/
def State.findTiles (s : State) (c : Nat) : State := (s.core c).padDamaged.foldl (fun s l => s.findLine c l 0) s

/-- The save of a core's unit of work (R190): the bytes, with the marks of poisoned tile lines. -/
def State.saveTo (s0 : State) (c : Nat) (va : Word) (xd resume : Nat) : State :=
  let s := s0.findTiles c
  let k := s.core c
  let s1 := sealWith (fun s o bs => s.writeVa c k.asid k.root (va.toNat + o) bs)
    (fun s => s.readVa k.asid k.root va.toNat areaBytes) (dieOf c) (s.areaParts c (.ssave xd resume)) s
  k.areaMarks.foldl (fun s o => s.setMark (lineOf (s.paOf k.asid k.root (va.toNat + o)))) s1

/-- The conditions that `ssave` and `srest` share (R190): every engine queue empty, nothing of earlier words on its way. -/
def State.saveWaits (s : State) : List Wait :=
  if s.enginesEmpty s.cur.core && s.here.vars.isEmpty && s.here.ovl.isEmpty && s.here.fixed.isEmpty then [] else [.other]

/-- A fault of a save area. -/
def State.areaFault (s : State) (acc need : Nat) (va : Word) : Option TrapInfo :=
  (s.checkRange s.here.asid s.here.root need va.toNat areaBytes).map fun f =>
    ⟨f.synd, f.addr, memInfo acc 0 false need areaBytes f, some f.addr, none⟩

/-- A fault on a save area leaves unspecified bytes in it: those of its pages that can be written (R190; log 2). -/
def State.scrambleArea (s : State) (va : Word) : State :=
  let k := s.here
  let page := fun (s : State) (i : Nat) =>
    let a := va.toNat + 65536 * i
    if (s.checkRange k.asid k.root PRW a 65536).isSome then s
    else
      { s.writeVa s.cur.core k.asid k.root a ((List.range 65536).map fun j => Config.freeByte (s.draws + j)) with
        draws := s.draws + 65536 }
  (List.range 32).foldl page s

/-- SSAVE (R190): the loop stack is saved as it stands after a transfer to the resume index. -/
def execSsave (h : Hdr) (d a : Fin 32) (s : State) : Host.Outcome State Fault Refusal :=
  s.issueOn .q h fun s =>
    let tok := s.tok
    let va := s.rx a
    let c := s.cur.core
    let p := s.me.pc
    { accs := [wrx d 16, rdx a 11]
      bits := wordFaults (.ssave h d a)
      waits := s.saveWaits
      checks := forbid s.here.othersRun 0 ++ val (field va 0 21 ≠ 0) 11 5
      fault := s.areaFault 1 PRW va
      found := fun t => if (s.areaFault 1 PRW va).isSome then t.scrambleArea va else t
      go := fun s =>
        let k := s.here
        let image := s.setHere { k with q := { k.q with loops := afterTransfer (p + 1) k.q.loops } }
        let s1 := image.saveTo c va d (p + 1)
        (s1.setHere { k with padPoison := s1.here.padPoison, padDamaged := s1.here.padDamaged }).promiseX tok d 0 }

/-! ## Reading an area -/

/-- A number of an area. -/
def areaNum (b : List Byte) (o n : Nat) : Nat := num b o n

/-- A loop stack of an area. -/
def areaLoops (b : List Byte) (o : Nat) : List LoopLevel :=
  (List.range 4).filterMap fun i =>
    let p := o + 24 * i
    if num b (p + 16) 8 = 0 then none else some ⟨num b p 8, num b (p + 8) 8, num b (p + 16) 8⟩

/-- The words of a queue of an area. -/
def areaQueue (b : List Byte) (o places : Nat) : List Word :=
  (List.range (min (num b o 8) places)).map fun i => BitVec.ofNat 64 (num b (o + 8 + 8 * i) 8)

/-- Offsets of the parts of the region at 0x1000. -/
abbrev loopsAt : Nat := 0x1400
abbrev queuesAt : Nat := loopsAt + 768
abbrev demandsAt : Nat := queuesAt + 864
abbrev sprsAt : Nat := demandsAt + 1056
abbrev countersAt : Nat := sprsAt + 3072
abbrev tilesAt : Nat := countersAt + 2048
abbrev slotsAt : Nat := tilesAt + 2560
abbrev planesAt : Nat := slotsAt + 192
abbrev trapsAt : Nat := planesAt + 48

/-- Special register n of a strand of an area. -/
def areaSpr (b : List Byte) (k : StrandId) (n : Nat) : Word := BitVec.ofNat 64 (num b (sprsAt + 768 * k.index + 8 * n) 8)

/-- The special registers of an area hold values that legal writes could produce (R191). -/
def areaSprsOk (b : List Byte) : Bool :=
  let q := areaSpr b .q
  let fits := fun (k : StrandId) (n : Nat) => (areaSpr b k n).toNat < 2 ^ sprBits n && !sprRange n (areaSpr b k n)
  fits .q 0x02 && fits .q 0x03 && fits .q 0x04 && (q 0x10).toNat < 2 ^ 37 && field (q 0x10) 32 5 ≤ 16 &&
  (q 0x20).toNat < 2 ^ 9 && field (q 0x20) 0 8 ≤ 128 && fits .q 0x21 && fits .q 0x22 && fits .q 0x23 &&
  allStrands.all fun k => fits k 0x30 && (areaSpr b k 0x41).toNat ≤ 24576 && fits k 0x45

/-- The area was written by an `ssave` on the die, and holds values that legal writes could produce (R191, R322). -/
def areaOk (d : Nat) (b : List Byte) : Bool :=
  num b 0 4 = 0x53564146 && num b 4 1 = 1 && num b 5 1 = d && num b 6 1 = (areaSpr b .q 0x04).toNat &&
  num b 7 1 < 32 && num b 0x0C 4 ≤ 24576 && num b 0x28 8 = 0 && num b 0x50 4016 = 0 && num b 0x1D9800 157696 = 0 &&
  areaSprsOk b && num b 0x1D8000 2 ≤ 128 && areaDigest d b == (b.drop 0x30).take 32

/-- Elements of 32 bits of an area. -/
def areaElems (b : List Byte) (o n : Nat) : SMap W32 :=
  (List.range n).map fun i => (i, BitVec.ofNat 32 (num b (o + 4 * i) 4))

/-- Bytes of an area by offset. -/
def areaBytesAt (b : List Byte) (o n : Nat) : SMap Byte := ((b.drop o).take n).zipIdx.map fun p => (p.2, p.1)

/-- Trap state of a strand of an area. -/
def areaTrap (b : List Byte) (k : StrandId) : TrapRegs :=
  { cause := areaSpr b k 0x40, epc := areaSpr b k 0x41, word := areaSpr b k 0x42, addr := areaSpr b k 0x43
    info := areaSpr b k 0x44, vec := areaSpr b k 0x45, scr := areaSpr b k 0x47 }

/-- A stopped strand of an area. -/
def areaStrand (b : List Byte) (k : StrandId) : Strand :=
  { x := (List.range 32).map fun r => (r, BitVec.ofNat 64 (num b (0x1000 + 256 * k.index + 8 * r) 8))
    loops := areaLoops b (loopsAt + 192 * k.index)
    aside := areaLoops b (loopsAt + 192 * k.index + 96)
    dmsub := areaSpr b k 0x30
    trap := areaTrap b k }

/-- A plane of an area: its bytes at `o`, its state and tags at `t`. -/
def areaPlane (b : List Byte) (o t : Nat) : Plane :=
  { state := num b t 8, tag := num b (t + 8) 8
    issueTag := if num b (t + 16) 8 = 0 then none else some (num b (t + 16) 8 - 1)
    bytes := areaBytesAt b o 0xC000 }

/-- A tile's entry of an area. -/
def areaTile (b : List Byte) (t : Nat) : TileEntry :=
  let w := BitVec.ofNat 64 (num b (tilesAt + 8 * t) 8)
  ⟨field w 0 2, field w 2 6, BitVec.ofNat 32 (field w 16 32)⟩

/-- The queues of an area, every entry visible in the cycle. -/
def areaQueues (b : List Byte) (cycle : Nat) : SMap Queue :=
  strandPairs.zipIdx.map fun p =>
    (queueKey p.1.1 p.1.2,
      { entries := (areaQueue b (queuesAt + 72 * p.2) 8).map fun v => ⟨0, some (v, cycle)⟩ })

/-- A deferred slot of an area. -/
def areaSlot (b : List Byte) (i : Nat) : Option Deferred :=
  let o := slotsAt + 24 * i
  if num b o 8 = 0 then none
  else some ⟨num b o 8, BitVec.ofNat 64 (num b (o + 8) 8), BitVec.ofNat 64 (num b (o + 16) 8)⟩

/-- The held engine traps of an area, due at once. -/
def areaTraps (b : List Byte) (cycle : Nat) : List EngineTrap :=
  (List.range (min (num b trapsAt 8) 20)).map fun i =>
    let o := trapsAt + 8 + 32 * i
    ⟨allStrands.getD (num b o 8) .q, num b (o + 8) 8, BitVec.ofNat 64 (num b (o + 16) 8), BitVec.ofNat 64 (num b (o + 24) 8), cycle⟩

/-- The value of the entry that a queue took last. -/
def Queue.setLast (u : Queue) (v : Word) (cycle : Nat) : Queue :=
  match u.entries.reverse with
  | [] => u
  | e :: r => { u with entries := (⟨e.tok, some (v, cycle)⟩ :: r).reverse }

/-- The queues of an area, with 1 in the entry that the saving word reserved where its xd is a queue alias (R53, R191). -/
def restoredQueues (b : List Byte) (xd cycle : Nat) : SMap Queue :=
  match aliasOf xd with
  | some p => sput (areaQueues b cycle) (queueKey .q p) ((sget {} (areaQueues b cycle) (queueKey .q p)).setLast 1 cycle)
  | none => areaQueues b cycle

/-- A core with the contents of an area (R191). Strand Q runs from the resume index, with 1 in the register that the saving
word named; V, M and L are stopped. -/
def Core.restored (c : Core) (b : List Byte) : Core :=
  let q := areaStrand b .q
  let xd := num b 7 1
  let split := areaSpr b .q 0x04
  { c with
    q := { q with running := true, pc := num b 0x0C 4, readyAt := c.q.readyAt
                  x := if xd = 0 ∨ (aliasOf xd).isSome then q.x else sput q.x xd 1 }
    v := areaStrand b .v, m := areaStrand b .m, l := areaStrand b .l
    queues := restoredQueues b xd c.cycle
    joinmask := areaSpr b .q 0x02, sbcheck := areaSpr b .q 0x03, spsplit := split
    cyc := (areaSpr b .q 0x08).toNat
    ctx := areaSpr b .q 0x10, lineageLo := areaSpr b .q 0x11, lineageHi := areaSpr b .q 0x12
    mprog := areaSpr b .q 0x20, tmiss := areaSpr b .q 0x21, tlooka := areaSpr b .q 0x22, tlookd := areaSpr b .q 0x23
    demands := allStrands.map fun k => (k.index, areaQueue b (demandsAt + 264 * k.index) 32)
    vec := ⟨areaElems b 0x4000 1024, areaElems b 0x5000 256, areaElems b 0x5400 32⟩
    masks := (List.range 8).map fun i =>
      (i, ⟨BitVec.ofNat 128 (num b (0x5480 + 40 * i) 16), BitVec.ofNat 192 (num b (0x5490 + 40 * i) 24)⟩)
    acc := (List.range 512).map fun r =>
      (r, (List.range 192).map fun j => BitVec.ofNat 32 (num b (0x20000 + 768 * r + 4 * j) 4))
    w0 := areaPlane b 0x8000 planesAt, w1 := areaPlane b 0x14000 (planesAt + 24)
    mpRows := num b 0x1D8000 2, mpBytes := (b.drop 0x1D8010).take 3072, lut := (b.drop 0x1D9000).take 0x800
    tiles := (List.range 320).map fun t => (t, areaTile b t)
    pad := areaBytesAt b 0x98000 (4096 * (128 + 64 * field split 0 2))
    padPoison := [], padDamaged := []
    traps := areaTraps b c.cycle
    deferred := (List.range 8).map fun i => (i, areaSlot b i) }

/-- The core-scope counters of an area take their places. -/
def State.restoreCounters (s : State) (c : Nat) (b : List Byte) : State :=
  let base := 2 ^ 12 * (c + 2 ^ 11 * s.hub.module)
  { s with counters := (List.range 256).foldl (fun m i => sput m (base + i) (num b (countersAt + 8 * i) 8)) s.counters }

/-- What `srest` answers instead of restoring, 0 where it restores (R191): 3 before 1 before 2 (log 23). -/
def State.restCode (s : State) (d : Nat) (b : List Byte) : Nat :=
  if !areaOk d b then 3
  else
    let k := s.kdie d
    let n := (k.recv + 2 ^ 32 - num b 8 4) % 2 ^ 32
    if coveredBy (k.prefixes.take n) (lineageAt b 0x18 (field (BitVec.ofNat 64 (num b 0x10 8)) 32 5)) then 1
    else if 1024 < n then 2
    else 0

/-- SREST (R191). -/
def execSrest (h : Hdr) (d a : Fin 32) (s : State) : Host.Outcome State Fault Refusal :=
  s.issueOn .q h fun s =>
    let tok := s.tok
    let va := s.rx a
    let c := s.cur.core
    let r := s.readBlock 0 s.here.asid s.here.root va.toNat areaBytes PRW
    { accs := [wrx d 16, rdx a 11]
      bits := wordFaults (.srest h d a)
      waits := s.saveWaits
      checks := forbid s.here.othersRun 0 ++ val (field va 0 21 ≠ 0) 11 5
      fault := r.fault
      found := r.found
      go := fun s =>
        let code := s.restCode (dieOf c) r.bytes
        if code = 0 then (s.setHere (s.here.restored r.bytes)).restoreCounters c r.bytes
        else s.promiseX tok d (BitVec.ofNat 64 code) }

end Sys2Proof.Machine
end

