-- ==== Sys2Proof/Machine/Preempt.lean ====
section
/-! DEFINITION. Pre-emption: requests, saves into pool areas, resumption (R189, R317 to R322, R388). -/

namespace Sys2Proof.Machine

/-! ## Pre-emption (R317 to R320) -/

/-- CLASS of the record of the iteration that a core runs, if it runs one. -/
def State.runningClass (s : State) (c : Nat) : Option Nat :=
  match (s.core c).work with
  | .iteration id _ => ((s.kdie (dieOf c)).rec? id).map NestRec.cls
  | _ => none

/-- Of two cores, the one that is pre-empted first: lower class, then more recently dispatched (R317). A core with a pending request is
not chosen for a second one, and a resumption counts as a dispatch (DESIGN CHOICE, log 86). -/
def State.lowerOf (s : State) (cls : Nat) (best : Option Nat) (c : Nat) : Option Nat :=
  match s.runningClass c with
  | none => best
  | some n =>
    if cls ≤ n ∨ (s.core c).preq.isSome then best
    else
      match best with
      | none => some c
      | some b =>
        let m := (s.runningClass b).getD 0
        if n < m ∨ (n = m ∧ (s.core b).dispatched < (s.core c).dispatched) then some c else some b

/-- The iteration that a core runs is pre-empted only at a `yield` (R315, R317). -/
def State.stubborn (s : State) (c : Nat) : Bool :=
  match (s.core c).work with
  | .iteration id _ => ((s.kdie (dieOf c)).rec? id).all NestRec.nopre
  | _ => true

/-- PREEMPTION_REQUEST (R317): the `i`-th record of the die raises a request. -/
def execPreemptionRequest (d : Fin 8) (i : Nat) (s : State) : Host.Outcome State Fault Refusal :=
  let k := s.kdie d
  match k.recs[i]? with
  | none => .next s
  | some r =>
    let cs := ((List.range 64).filter fun j => bitOf r.cores.toNat j).map fun j => 64 * d.val + j
    if coveredBy k.prefixes r.lin || (r.saved.isEmpty && r.total ≤ r.next) || cs.any s.isFree ||
        64 ≤ k.areas.length || (List.range 64).any (fun j => (s.core (64 * d.val + j)).preq.any fun p => p.record == r.id) ||
        !s.isReady (.nest d) then .next s
    else
      match cs.foldl (s.lowerOf r.cls) none with
      | some c => .next (s.setCore c { s.core c with preq := some ⟨r.id, (s.core c).cycle, s.stubborn c⟩ })
      | none => .next s

/-- Fixed-latency writes into queue registers complete before a save (R73, R318). -/
def Core.landPushes (c : Core) : Core :=
  let push := fun (w : FixedWrite) => match w.res with
    | .x r _ => (aliasOf r).isSome
    | _ => false
  { (c.fixed.filter push).foldl Core.landFixed c with fixed := c.fixed.filter fun w => !push w }

/-- A pre-emption is served (R318): no word issues any more, and the save into a pool area begins. In a pool with no free area the
request waits for another boundary, or another `yield`. -/
def State.preempt (s : State) (c : Nat) : State :=
  let d := s.kdie (dieOf c)
  match (s.core c).work, (List.range 64).find? fun a => !d.areas.contains a with
  | .iteration id n, some a =>
    (s.setCore c { (s.core c).landPushes with work := .saving id n a, preq := none, yielded := false }).setKdie (dieOf c)
      { d with areas := d.areas ++ [a] }
  | _, _ => s.setCore c { s.core c with yielded := false }

/-- A pre-emption request is to be served at the bundle boundary at which the core stands: before any word of the cycle, in a
pool with a free area, and not only at a `yield` (R317, R319). -/
def State.servesNow (s : State) (c : Nat) : Bool :=
  let k := s.core c
  k.preq.any (fun p => !p.atYield) && !k.allStopped && !k.acted && k.lost.isNone && k.frozen.isNone && !k.work.stands &&
  decide ((s.kdie (dieOf c)).areas.length < 64)

/-- PREEMPTION_SERVICE (R317, R318, R388): at a bundle boundary, after any trap that is due. -/
def execPreemptionService (c : CoreIx) (s : State) : Host.Outcome State Fault Refusal :=
  if s.servesNow c && (s.nextEngineTrap c).isNone && !(s.core c).deadlocked then .next (s.preempt c) else .next s

/-- A started multiply. -/
def ArrEntry.multiplying (e : ArrEntry) : Bool :=
  e.started && match e.op with
    | .mma .. => true
    | _ => false

/-- An interrupted multiply, the oldest one, is described by `%mprog` (R223, R318). -/
def Core.noteStop (c : Core) : Core :=
  match c.arr.find? ArrEntry.multiplying with
  | some e =>
    { c with
      mprog := BitVec.ofNat 64 (e.beat + 256)
      arr := c.arr.map fun x => if x.tok = e.tok then { x with noted := true } else x }
  | none => c

/-- What must complete before a save is over has completed (R318): `vld` and `mvacc` results, queue reservations, overlay loads,
the entries of the Welt, context command and Awl queues, the accesses of the fabric port and counter adds, and the wait of a `coll` beyond the 16 in flight. An access that waits for
presence, a held store and what stands behind them are saved with the core (log 21). -/
def State.saveSettled (s : State) (c : Nat) : Bool :=
  let k := s.core c
  k.ovl.isEmpty && s.enginesIdle c &&
  k.vars.all (fun v => v.res.all fun r => match r with
    | .x n _ => (aliasOf n).isNone
    | .vec .. => false
    | .mask .. => true) &&
  k.mops.all (fun m => !(m.fabric && (m.posted || m.space == 4) && s.mayPerform c m)) &&
  (s.colls.drop 16).all (fun w => w.core ≠ c) &&
  s.adds.all fun a => !addOf s.hub.module c a || (!s.addReady a && a.src.any fun p => p.1 == c)

/-- The PA of a byte of a save area of a K-die's pool, 128 MiB of the interleaved region: which of the parts of that size, firmware
chooses (R100, R319; log 91). -/
def poolPa (d a i : Nat) : Nat :=
  (homePa [] (2 ^ 47 + 2 ^ 27 * (8 * (Config.savePool d % 512) + d) + 2097152 * a + i)).getD 0

/-- Bytes of a pool area are written; they are held in L2 with class KEEP (R319). -/
def State.poolPut (s : State) (d a o : Nat) (bs : List Byte) : State :=
  let gs := bs.zipIdx.map fun p => (⟨poolPa d a (o + p.2), 1, false⟩ : Seg)
  (s.writeAt (512 + d) gs bs).touchAll (512 + d) gs 2

/-- The bytes of a pool area. -/
def State.poolGet (s : State) (d a : Nat) : List Byte := (List.range areaBytes).map fun i => s.byte (poolPa d a i)

/-- A forced save writes its area (R318, R321, R322), with the marks of poisoned tile lines. -/
def State.saveForced (s0 : State) (c linear a : Nat) : State :=
  let d := dieOf c
  let s := (s0.findTiles c).setCore c ((s0.findTiles c).core c).noteStop
  let s1 := (sealWith (fun s o bs => s.poolPut d a o bs) (fun s => s.poolGet d a) d (s.areaParts c (.forced linear)) s).drew
  (s.core c).areaMarks.foldl (fun s o => s.setMark (lineOf (poolPa d a o))) s1

/-- A core as it is saved: translations that its outstanding accesses hold are given up, to be checked again (R398), and so are
operand lines that the array has not consumed, to be read again (R223). -/
def Core.packed (c : Core) : Core :=
  { c.noteStop with
    mops := c.mops.map fun m => { m with segs := [] }
    arr := c.noteStop.arr.map fun e => { e with lines := [], since := none } }

/-- SAVE_END (R318 to R320, R437): the iteration is saved and its core is free, or a CANCEL has matched it and its area is
freed. -/
def execSaveEnd (c : CoreIx) (s : State) : Host.Outcome State Fault Refusal :=
  let k := s.core c
  match k.work with
  | .saving id n a =>
    if !s.saveSettled c then .next s
    else
      let s1 := s.saveForced c n a
      let k := s1.core c
      let mine := fun (x : Add) => x.src.any fun p => p.1 == c.val
      let s2 := ({ s1 with adds := s1.adds.filter fun x => !mine x }).setCore c k.fresh
      let d := s2.kdie (dieOf c)
      let freed := { d with areas := d.areas.filter (· ≠ a) }
      match d.rec? id with
      | none => .next (s2.setKdie (dieOf c) freed)
      | some r =>
        if coveredBy d.prefixes k.lineage || coveredBy d.prefixes r.lin then
          .next ((s2.setKdie (dieOf c) (freed.loseIteration none id n false true)).settleRecs (dieOf c))
        else
          let it : SavedIter := ⟨n, a, k.packed, s.coreCounters c, s1.adds.filter mine⟩
          let r1 := { r with running := r.running.filter (fun p => p.2 ≠ n), saved := r.saved ++ [it] }
          .next (s2.setKdie (dieOf c) (d.setRec r1))
  | _ => .next s

/-- The saved iteration of a record with the lowest number. -/
def NestRec.firstSaved (r : NestRec) : Option SavedIter :=
  r.saved.foldl (fun b x => match b with
    | none => some x
    | some y => if x.linear < y.linear then some x else some y) none

/-- A saved add of a strand's word, as a word of the same strand of core c (R320). -/
def Add.from' (x : Add) (c : Nat) : Add :=
  { x with
    src := x.src.map fun (p : Nat × StrandId × Nat) => (c, p.2)
    sender := .port c }

/-- ITERATION_RESUME (R316, R320): a saved iteration begins restoring. It counts as a dispatch in the order of R317 (DESIGN CHOICE,
log 86). -/
def execIterationResume (c : CoreIx) (s : State) : Host.Outcome State Fault Refusal :=
  let k := s.core c
  let d := s.kdie (dieOf c)
  if !s.firstServed c then .next s
  else
    match s.search c with
    | some (r, true) =>
      match r.firstSaved with
      | none => .next s
      | some it =>
        let k1 := { it.core with
          mbox := k.mbox, asid := k.asid, root := k.root, loaded := k.loaded
          work := .restoring r.id it.linear it.area, dispatched := d.dispatches }
        let r1 := { r with saved := r.saved.filter (fun x => x.linear ≠ it.linear),
                           running := r.running ++ [(c.val, it.linear)] }
        let d1 := { d.setRec r1 with last := sput d.last r.cls r.id, dispatches := d.dispatches + 1 }
        let s1 := (s.setCore c k1).clearCounters c
        let base := 2 ^ 12 * (c.val + 2 ^ 11 * s.hub.module)
        let s2 := { s1 with
          adds := s1.adds ++ it.adds.map fun (x : Add) => x.from' c
          counters := it.counters.foldl (fun m (p : Nat × Nat) => sput m (base + p.1) p.2) s1.counters }
        .next ((s2.setKdie (dieOf c) d1).released c)
    | _ => .next s

/-- RESTORE_END (R320, R322): the iteration continues, and its area is free again (R319). An area that was changed by another
write fails the digest: what then becomes of the iteration is open, and it is lost or continues (log 66). -/
def execRestoreEnd (c : CoreIx) (s : State) : Host.Outcome State Fault Refusal :=
  let k := s.core c
  match k.work with
  | .restoring id n a =>
    let b := s.poolGet (dieOf c) a
    let d := s.kdie (dieOf c)
    let s1 := s.setKdie (dieOf c) { d with areas := d.areas.filter (· ≠ a) }
    let k1 := { k with work := .iteration id n }
    if areaDigest (dieOf c) b = (b.drop 0x30).take 32 then .next (s1.setCore c k1)
    else if s.free % 2 = 0 then .next (s1.drew.setCore c k1)
    else .next ((s1.drew.setCore c k1).abandon c IMGBAD)
  | _ => .next s

end Sys2Proof.Machine
end

