-- ==== Sys2Proof/Machine/Treadle.lean ====
section
/-! DEFINITION. Treadle runs: beats, demands, drain slots, holds, stops and the end of a run (R71, R234 to R246, R424, R425). -/

namespace Sys2Proof.Machine

/-! ## The entries of a run (R235, R236, R238) -/

/-- The TCB entry of stitch n. -/
def Run.entry (r : Run) (n : Nat) : Nat := n % max (tcbNent r.tcb) 1

/-- ATILE of an entry. -/
def Run.atile (r : Run) (e : Nat) : Nat := num r.tcb (entryAt e) 2
/-- The flag byte of an entry. -/
def Run.flags (r : Run) (e : Nat) : Nat := num r.tcb (entryAt e + 2) 1
/-- ACC of an entry. -/
def Run.acc (r : Run) (e : Nat) : Nat := r.flags e % 4
/-- FMT of an entry. -/
def Run.fmt (r : Run) (e : Nat) : Nat := num r.tcb (entryAt e + 4) 1
/-- The snapshot of mask pair k (R61, R234). -/
def Run.mask (r : Run) (k : Nat) : MaskPair := r.masks.getD k {}
/-- The mask pair of an entry. -/
def Run.entryMask (r : Run) (e : Nat) : MaskPair := r.mask (num r.tcb (entryAt e + 3) 1)

/-- A drain of a run: first tile, accumulator, descriptor, mask pair, and the end drain that it is. -/
structure RunDrain where
  t : Nat
  c : Nat
  desc : Word
  mask : MaskPair
  endDrain : Option Nat

/-- The drain of stitch n, if its entry has one (R236). -/
def Run.stitchDrain (r : Run) (n : Nat) : Option RunDrain :=
  let e := r.entry n
  if entryDrains r.tcb e then
    some ⟨num r.tcb (entryAt e + 6) 2, r.acc e, descAt r.tcb (entryAt e), r.entryMask e, none⟩
  else none

/-- End drain k (R235). -/
def Run.endDrain (r : Run) (k : Nat) : RunDrain :=
  let o := endAt k
  ⟨num r.tcb o 2, num r.tcb (o + 2) 1 % 4, descAt r.tcb o, r.mask (num r.tcb (o + 3) 1), some k⟩

/-- The drains of the end phase, in the order of their slots from slot S on (R243). -/
def Run.tail (r : Run) : List RunDrain :=
  (r.stitchDrain (r.stitches - 1)).toList ++ (List.range (min (tcbNend r.tcb) 4)).map r.endDrain

/-- The drain that uses slot m (R238, R243). -/
def Run.slotDrain (r : Run) (m : Nat) : Option RunDrain :=
  if m = 0 then none else if m < r.stitches then r.stitchDrain (m - 1) else r.tail[m - r.stitches]?

/-- The slot and the row that a beat reads, if it belongs to a slot (R238). -/
def Run.slotRow (r : Run) (g : Nat) : Option (Nat × Nat × RunDrain) :=
  if g < 136 then none else (r.slotDrain ((g - 8) / 128)).map fun d => ((g - 8) / 128, (g - 8) % 128, d)

/-- The beats of a run: those of its stitches, and those of its last used slot (R243). -/
def Run.beats (r : Run) : Nat :=
  let last := if r.tail.isEmpty then
      ((List.range 17).map fun k => r.stitches - 1 - k).find? fun m => (r.slotDrain m).isSome
    else some (r.stitches + r.tail.length - 1)
  match last with
  | some m => if m = 0 then 128 * r.stitches else max (128 * r.stitches) (128 * m + 136)
  | none => 128 * r.stitches

/-! ## The tiles of a beat (R239) -/

/-- Bytes [a, a + n) meet tile k of a group. -/
def spanMeets (a n k : Nat) : Bool := 0 < n && a < 4096 * (k + 1) && 4096 * k < a + n

/-- Tile k of an A group holds a byte of row b or of its scales. -/
def readsTile (fmt k b : Nat) : Bool :=
  let w := rowBytes fmt (fmtK fmt)
  let n := rowScales fmt (fmtK fmt) 64
  spanMeets (b * w) w k || spanMeets (elemBytes fmt 128 + b * n) n k

/-- Tile k of an output group holds a byte of row i or of its scales. -/
def writesTile (ofmt k i : Nat) : Bool :=
  let w := drainRowBytes ofmt
  spanMeets (i * w) w k || spanMeets (drainElems ofmt + 3 * i) (drainScales ofmt) k

/-- The first of 128 rows that meets a test. -/
def firstRow (f : Nat → Bool) : Option Nat := (List.range 128).find? f
/-- The last of 128 rows that meets a test. -/
def lastRow (f : Nat → Bool) : Option Nat := ((List.range 128).map fun i => 127 - i).find? f

/-- The tiles of an entry's A group that beat b reads. -/
def Run.reads (r : Run) (e b : Nat) : List Nat :=
  ((List.range (groupTiles (r.fmt e) 128)).filter fun k => readsTile (r.fmt e) k b).map (r.atile e + ·)

/-- The tiles that beat b is the first of its stitch to read. -/
def Run.firsts (r : Run) (e b : Nat) : List Nat :=
  ((List.range (groupTiles (r.fmt e) 128)).filter fun k => firstRow (readsTile (r.fmt e) k) == some b).map (r.atile e + ·)

/-- The tiles that beat b is the last of its stitch to read. -/
def Run.lasts (r : Run) (e b : Nat) : List Nat :=
  ((List.range (groupTiles (r.fmt e) 128)).filter fun k => lastRow (readsTile (r.fmt e) k) == some b).map (r.atile e + ·)

/-- The tiles of a drain's output group that its row i is the first to write, by their place in the group. -/
def drainFirsts (d : RunDrain) (i : Nat) : List Nat :=
  (List.range (drainTiles (dOfmt d.desc))).filter fun k => firstRow (writesTile (dOfmt d.desc) k) == some i

/-! ## Demands (R71, R240) -/

/-- The word of a demand event (R69). -/
def demandWord (c kind tile g : Nat) : Word :=
  BitVec.ofNat 64 (tile + 512 * kind + 1024 * (c % 4) + 4096 * (g % 65536))

/-- A core takes the copies of a demand event of core `src` that its strands subscribe to (R71). -/
def Core.hear (k : Core) (src kind : Nat) (w : Word) : Core :=
  allStrands.foldl (fun k t =>
    if bitOf (k.strand t).dmsub.toNat (4 * kind + src % 4) then
      { k with demandNet := sput k.demandNet t.index (sget [] k.demandNet t.index ++ [w]) }
    else k) k

/-- A demand event goes out to the quad (R71). -/
def State.demand (s : State) (c kind tile g : Nat) : State :=
  (List.range 4).foldl (fun s j =>
    let t := c / 4 * 4 + j
    s.setCore t ((s.core t).hear c kind (demandWord c kind tile g))) s

/-- The uses that beat g makes first: its kind and tile, operand demands first (R240). -/
def Run.uses (r : Run) (operands drains : Bool) (g : Nat) : List (Nat × Nat) :=
  (if operands && g / 128 < r.stitches then (r.firsts (r.entry (g / 128)) (g % 128)).map fun t => (0, t) else []) ++
  if drains then
    match r.slotRow g with
    | some (_, i, d) => (drainFirsts d i).map fun k => (1, d.t + k)
    | none => []
  else []

/-- The demands raised in the beats from lo up to, not including, hi, in the order of R240; a beat below 0 is the start. -/
def Run.demands (r : Run) (lo hi : Int) : List (Nat × Nat × Nat) :=
  let top := hi + max r.looka r.lookd
  let within := fun (g look : Nat) => decide (lo ≤ (g : Int) - look ∧ (g : Int) - look < hi)
  (List.range (top.toNat - lo.toNat)).flatMap fun i =>
    let g := lo.toNat + i
    (r.uses (within g r.looka) (within g r.lookd) g).map fun p => (p.1, p.2, g)

/-- Several demands go out in order. -/
def State.demandAll (s : State) (c : Nat) (l : List (Nat × Nat × Nat)) : State :=
  l.foldl (fun s d => s.demand c d.1 d.2.1 d.2.2) s

/-! ## Start and end of a run (R234, R243, R244) -/

/-- The planes that a TCB names become a state. -/
def Core.setPlanes (c : Core) (tcb : List Byte) (state : Nat) : Core :=
  (List.range (min (tcbNent tcb) 16)).foldl (fun c e =>
    c.setPlane (entryPlane tcb e) { c.plane (entryPlane tcb e) with state := state }) c

/-- Every plane that a TCB names is LOADED. -/
def Core.planesLoaded (c : Core) (tcb : List Byte) : Bool :=
  (List.range (min (tcbNent tcb) 16)).all fun e => (c.plane (entryPlane tcb e)).state == 2

/-- TREADLE_RUN_START (R215, R234, R240): the entry stays in the queue until the run has ended (R214). -/
def execTreadleRunStart (c : CoreIx) (i : Nat) (s : State) : Host.Outcome State Fault Refusal :=
  let k := s.core c
  match k.startable i with
  | some (e, before) =>
    match e.op with
    | .trgo tcb masks la ld =>
      if before.isEmpty && k.planesLoaded tcb then
        let r : Run := ⟨e.tok, e.entered, tcb, masks, la, ld, num tcb 0 4, 0, k.cycle, [], 0⟩
        let k1 := { (k.setPlanes tcb 3).setEntry { e with started := true } with run := some r }
        .next ((s.setCore c k1).demandAll c (r.demands (-64) 0))
      else .next s
    | _ => .next s
  | none => .next s

/-- END of a TCB. -/
def Run.endH (r : Run) : Word := blockCounter (BitVec.ofNat 64 (num r.tcb 8 8))

/-- A run leaves the array: its planes are LOADED, its entry retires, and the array returns to instruction mode (R214, R243). -/
def Core.endRun (c : Core) (r : Run) : Core :=
  { c.setPlanes r.tcb 2 with run := none, arr := c.arr.filter fun e => e.tok ≠ r.tok }

/-! ## Drain slots (R228, R238, R239, R243) -/

/-- The slot's CLR has still to be applied to the live accumulator where it reads a row: the next stitch does not compute on
that accumulator, which would have done so (R238). -/
def Run.clearsLive (r : Run) (x : DrainSlot) : Bool :=
  dClr x.desc && (r.stitches ≤ x.slot || r.acc (r.entry x.slot) ≠ x.c)

/-- Row i of an accumulator with the clears that pending slots of earlier stitches still owe it. -/
def Core.settledRow (k : Core) (r : Run) (a i : Nat) : List W32 :=
  (r.slots.filter fun x => x.c == a && x.rows ≤ i && r.clearsLive x).foldl
    (fun row x => clearRow x.mask i row) (k.accRow a i)

/-- The image of an accumulator as the last stitch left it. -/
def Core.image (k : Core) (r : Run) (a : Nat) : SMap (List W32) :=
  (List.range 128).map fun i => (i, k.settledRow r a i)

/-- A slot for a drain. -/
def Core.slotFor (k : Core) (r : Run) (m : Nat) (d : RunDrain) : DrainSlot :=
  ⟨m, d.endDrain, d.c, d.t, d.desc, d.mask, k.image r d.c, [], 0, []⟩

/-- The slots that open as the beat before g has entered: the drain of the stitch that has ended, and in the end phase every
drain of it. -/
def Core.openSlots (k : Core) (r : Run) (g : Nat) : List DrainSlot :=
  if g % 128 ≠ 0 ∨ g = 0 ∨ 128 * r.stitches < g then []
  else
    let m := g / 128
    if m < r.stitches then (r.stitchDrain (m - 1)).toList.map (k.slotFor r m)
    else ((List.range r.tail.length).zip r.tail).map fun p => k.slotFor r (m + p.1) p.2

/-- Lines of a slot's output that its row i completes. -/
def slotLines (ofmt i : Nat) : List Nat := (List.range (drainLines ofmt)).filter fun n => (lineRows ofmt n).2 == i

/-- Whole lines arrive in a slot's tiles; a refused one waits (R45, R229). -/
def Core.writeLines (k : Core) (t : Nat) : List (Nat × List Byte) → Core × List (Nat × List Byte)
  | [] => (k, [])
  | (n, bs) :: r =>
    match k.arrive (32 * t + n) [(bs, false)] with
    | some k1 => Core.writeLines k1 t r
    | none => ((Core.writeLines k t r).1, (n, bs) :: (Core.writeLines k t r).2)

/-- A slot reads its next row (R228, R229, R238): the tiles that the row is the first to write take EXPECT, the lines it
completes are written, and CLR clears the live row where nothing has. -/
def Core.slotStep (k : Core) (r : Run) (x : DrainSlot) (d : RunDrain) : Core × DrainSlot :=
  let i := x.rows
  let ofmt := dOfmt x.desc
  let sb := if i = 0 ∧ dScb x.desc = true then k.readSb (dSbt x.desc) else x.sb
  let k1 := (drainFirsts d i).foldl (fun k j => k.expectTile x.t j ofmt) k
  let lines := (slotLines ofmt i).map fun n =>
    (n, drainLine ofmt n fun q => k1.drainRow x.desc x.mask sb q (sget [] x.image q))
  let w := k1.writeLines x.t (x.pend ++ lines)
  let k2 := if r.clearsLive x && x.mask.rowBit i then w.1.setAccRow x.c i (clearRow x.mask i (w.1.accRow x.c i)) else w.1
  (k2, { x with sb := sb, rows := i + 1, pend := w.2 })

/-- The slots of a run after the slot with number m has read a row; a slot whose last line is written is done. -/
def Run.putSlot (r : Run) (x : DrainSlot) : Run :=
  { r with slots := if x.rows = 128 ∧ x.pend.isEmpty then r.slots.filter (fun y => y.slot ≠ x.slot)
      else r.slots.map fun y => if y.slot = x.slot then x else y }

/-- Refused lines of every slot are tried again. -/
def Core.retryLines (k : Core) (r : Run) : Core × Run :=
  r.slots.foldl (fun p x =>
    let w := p.1.writeLines x.t x.pend
    (w.1, p.2.putSlot { x with pend := w.2 })) (k, r)

/-! ## Beats (R238, R241, R242, R360) -/

/-- Why a beat is not ready (R241, R425): WHY and the tile. -/
def Core.beatWaits (k : Core) (r : Run) (g : Nat) : Option (Nat × Nat) :=
  let e := r.entry (g / 128)
  let a := if g / 128 < r.stitches then
      (r.reads e (g % 128)).find? fun t =>
        (k.tile t).state != 2 && !((k.tile t).state == 3 && !(r.firsts e (g % 128)).contains t)
    else none
  match a with
  | some t => some (0, t)
  | none =>
    match r.slotRow g with
    | none => none
    | some (_, i, d) =>
      match (drainFirsts d i).find? fun j => (k.tile (d.t + j)).state != 0 with
      | some j => some (1, d.t + j)
      | none => if i = 0 ∧ !k.sbReady d.desc then some (2, dSbt d.desc) else none

/-- The tiles that a beat reads, with the size of their group in tiles: an A group's, or a scale-and-bias tile. -/
def Run.touched (r : Run) (g : Nat) : List (Nat × Nat) :=
  (if g / 128 < r.stitches then
    (r.reads (r.entry (g / 128)) (g % 128)).map fun t => (t, groupTiles (r.fmt (r.entry (g / 128))) 128)
  else []) ++
  match r.slotRow g with
  | some (_, 0, d) => if dScb d.desc then [(dSbt d.desc, 1)] else []
  | _ => []

/-- The lowest poisoned line of a tile that a beat reads, with the size of its group. -/
def Core.beatPoison (k : Core) (r : Run) (g : Nat) : Option (Nat × Nat) :=
  (r.touched g).findSome? fun p => (k.firstBad (32 * p.1) 32).map fun line => (line, p.2)

/-- The demands that the beat raises go out, and the beat enters (R238 to R240). -/
def State.enterBeat (s : State) (c : Nat) (r : Run) : State :=
  let g := r.g
  let s := s.demandAll c (r.demands g (g + 1))
  let k := s.core c
  let n := g / 128
  let b := g % 128
  let e := r.entry n
  let k1 :=
    if n < r.stitches then
      let k := k.consume (r.firsts e b)
      let mask := r.entryMask e
      let a := r.acc e
      let owed := (r.slots.filter fun x => x.slot == n && x.c == a && dClr x.desc).foldl
        (fun row x => clearRow x.mask b row) (k.accRow a b)
      let base := if bitOf (r.flags e) 4 then clearRow mask b owed else owed
      let row := canonRow (fun o m => k.padRead (4096 * r.atile e + o) m) (r.fmt e) 128 b
      let out := mmaRow (k.plane (entryPlane r.tcb e)) (r.fmt e) mask (bitOf (r.flags e) 3) b row base
      (k.setAccRow a b out).release (r.lasts e b)
    else k
  let p := k1.retryLines r
  let q : Core × Run := match p.2.slotRow g with
    | some (m, _, d) =>
      match p.2.slots.find? fun x => x.slot == m with
      | some x =>
        let w := p.1.slotStep p.2 x d
        (w.1, p.2.putSlot w.2)
      | none => p
    | none => p
  let period := max (num r.tcb 4 1) 1
  let r1 := { q.2 with
    g := g + 1, due := r.due + period, fails := 0
    slots := q.2.slots ++ q.1.openSlots q.2 (g + 1) }
  s.setCore c { q.1 with run := some r1 }

/-- `%tinfo` of STRICT (R425). -/
def strictInfo (r : Run) (why tile : Nat) : Word :=
  let ending := r.stitches ≤ r.g / 128
  let entry := if ending then
      match r.slotRow r.g with
      | some (m, _, d) => d.endDrain.getD (r.entry (m - 1))
      | none => 0
    else r.entry (r.g / 128)
  BitVec.ofNat 64 (r.g % 2 ^ 39 + 2 ^ 39 * entry + 2 ^ 43 * tile + 2 ^ 52 * why + if ending then 2 ^ 54 else 0)

/-- A run stops at its next beat (R424): the stitch that the beat belongs to is abandoned, END receives 2^32, and strand M is
to trap. -/
def State.stopRun (s : State) (c : Nat) (r : Run) (synd : Nat) (addr info : Word) : State :=
  let k := s.core c
  let e := r.entry (r.g / 128)
  let b := r.g % 128
  let held := if r.g / 128 < r.stitches then
      ((List.range (groupTiles (r.fmt e) 128)).filter fun j =>
        (firstRow (readsTile (r.fmt e) j)).any (fun f => f < b) && (lastRow (readsTile (r.fmt e) j)).any fun l => b ≤ l).map
          (r.atile e + ·)
    else []
  (s.setCore c (((k.release held).endRun r).engineTrap .m synd addr info)).postAdd (coreUnit c) r.endH (2 ^ 32)

/-- TREADLE_BEAT (R238 to R242, R403, R424): the beat whose cycle has come enters, is held, or stops the run. -/
def execTreadleBeat (c : CoreIx) (s : State) : Host.Outcome State Fault Refusal :=
  let k := s.core c
  match k.run with
  | none => .next s
  | some r =>
    if !k.arrayRuns || k.cycle < r.due || r.beats ≤ r.g then .next s
    else
      match k.beatWaits r r.g with
      | some (why, tile) =>
        if bitOf (num r.tcb 6 1) 0 then .next (s.stopRun c r STRICT 0 (strictInfo r why tile))
        else
          let p := k.retryLines r
          .next (s.setCore c { p.1 with
            run := some { p.2 with due := r.due + max (num r.tcb 4 1) 1 }
            tmiss := BitVec.ofNat 64 (min (k.tmiss.toNat + 1) (2 ^ 32 - 1)) })
      | none =>
        match k.beatPoison r r.g with
        | none => .next (s.enterBeat c r)
        | some (line, n) =>
          let f := plainFault (if k.padDamaged.contains line then UCE else POISON) (BitVec.ofNat 64 (128 * line)) s.hub.module
          let info := memInfo 8 1 false 0 (4096 * n) f
          .next ((s.findLine c line info).stopRun c r POISON f.addr info)

/-- TREADLE_RUN_END (R129, R243). -/
def execTreadleRunEnd (c : CoreIx) (s : State) : Host.Outcome State Fault Refusal :=
  let k := s.core c
  match k.run with
  | none => .next s
  | some r =>
    let p := k.retryLines r
    if !k.arrayRuns || r.g < r.beats then .next s
    else if p.2.slots.isEmpty then .next ((s.setCore c (p.1.endRun r)).postAdd (coreUnit c) r.endH 1)
    else .next (s.setCore c { p.1 with run := some p.2 })

/-! ## Stopping a run (R244) -/

/-- A run completes the stitch in progress, that of the last beat entered, and behaves as if it were its last (R244). -/
def Run.shorten (r : Run) : Run := if r.g < 128 * r.stitches then { r with stitches := (r.g - 1) / 128 + 1 } else r

/-- TRSTOP (R244): the end phase's slots open where the last stitch has already ended, and its demands that are overdue are
raised. -/
def execTrstop (h : Hdr) (s : State) : Host.Outcome State Fault Refusal :=
  s.issueOn .m h fun s =>
    { bits := wordFaults (.trstop h)
      go := fun s =>
        match s.here.run with
        | none => s
        | some r =>
          let r1 := r.shorten
          if r1.stitches = r.stitches then s
          else
            let ended := r.g = 128 * r1.stitches
            let late := (r1.demands (-64) r.g).filter fun d => d.1 == 1 && !(r.demands (-64) r.g).contains d
            let slots := if ended then
                (r1.slots.filter fun x => x.slot < r1.stitches) ++ s.here.openSlots r1 r.g
              else r1.slots
            (s.setHere { s.here with run := some { r1 with slots := slots } }).demandAll s.cur.core late }

end Sys2Proof.Machine
end

