-- ==== Sys2Proof/Machine/Upset.lean ====
section
/-! DEFINITION. Single faults: what is corrected, what is left to be found, and what stops work at once
(R355 to R363, R368, R403, R405, R406, R429, R433, R438). -/

namespace Sys2Proof.Machine

/-- The slice that holds a copy of a line, or none for the medium itself (R403). -/
def placeUnit (line : Nat) : LinePlace → Option (Nat × Nat × Nat)
  | .medium => none
  | .llc i => some (homeOf line, 13, i.val)
  | .l2 d i => some (d.val, 2, i.val)
  | .l1 c => some (dieOf c, 0, c.val % 64)

/-- A line of memory is struck (R355, R403): corrected and counted, or left to the first read or scrub that finds it. -/
def State.strikeLine (s : State) (pa : Nat) (p : LinePlace) (correctable : Bool) : State :=
  let l := lineOf pa
  let u := (placeUnit l p).getD (lineUnit l)
  if (homePa s.hub.expanders l).isNone ∨ 2 ^ 47 ≤ pa then s
  else if correctable then s.corrected u.1 u.2.1 u.2.2
  else if s.poison.contains l ∨ s.damaged.contains l then s
  else
    { s with
      damaged := s.damaged ++ [l]
      damagedBy := match placeUnit l p with
        | some x => sput s.damagedBy l x
        | none => sdel s.damagedBy l }

/-- A cache's tag of a line is struck (R410): corrected, or read from its other copy, which is a C0 event. -/
def State.strikeTag (s : State) (pa : Nat) (p : LinePlace) : State :=
  match placeUnit (lineOf pa) p with
  | some u => s.corrected u.1 u.2.1 u.2.2
  | none => s

/-- A line of a tile is struck (R403). -/
def State.strikeTile (s : State) (c l : Nat) (correctable : Bool) : State :=
  let k := s.core c
  if 10240 ≤ l then s
  else if correctable then s.corrected (dieOf c) 0 (c % 64)
  else if k.padPoison.contains l ∨ k.padDamaged.contains l then s
  else s.setCore c { k with padDamaged := k.padDamaged ++ [l] }

/-- A core's architectural register state is struck (R405): corrected, or the unit of work is abandoned with one record, at a
bundle boundary (R387). -/
def State.strikeCore (s : State) (c location : Nat) (correctable : Bool) : State :=
  if correctable then s.corrected (dieOf c) 0 (c % 64)
  else if s.silent (dieOf c) 0 (c % 64) || (s.core c).acted then s
  else (s.coreRecord c UCE 2 true false 0 (BitVec.ofNat 64 location)).abandon c UCE

/-- A counter's store is struck (R406): corrected, or the counter is poisoned, with a record of its store. -/
def State.strikeCounter (s : State) (h : Word) (correctable : Bool) : State :=
  let u := counterUnit h
  if !handleOk h ∨ hModule h ≠ s.hub.module then s
  else if correctable then s.corrected u.1 u.2.1 u.2.2
  else if s.counterBad h || s.silent u.1 u.2.1 u.2.2 then s
  else { s with badCounters := s.badCounters ++ [h.toNat] }.record u.1 u.1 u.2.1 u.2.2 UCE 2 true false h 0

/-- An entry of a task heap is struck (R433): corrected, or left to be found. -/
def State.strikeHeap (s : State) (d i : Nat) (correctable : Bool) : State :=
  let k := s.kdie d
  match k.heap[i]? with
  | none => s
  | some e => if correctable then s.corrected d 3 0 else s.setKdie d { k with heap := k.heap.set i { e with bad := true } }

/-- Candidate memory is struck (R429): corrected, or left to the first read that finds it. -/
def State.strikeCandidate (s : State) (d j : Nat) (correctable : Bool) : State :=
  let a := (s.kdie d).awl
  match a.blockAt j with
  | none => s
  | some (n, b) =>
    if correctable then s.corrected d 6 0
    else
      let x := a.slot n
      s.setAwl d (a.setSlot n { x with badBlocks := if x.badBlocks.contains b then x.badBlocks else x.badBlocks ++ [b] })

/-- A wrong output of a core's logic (R359): the core freezes at a word of a running strand, which one is open (log 2), or a
frozen core's word mismatches once more. -/
def State.strikeLogic (s : State) (c : Nat) : State :=
  let k := s.core c
  match k.frozen with
  | some (t, i, n) => s.setCore c { k with frozen := some (t, i, n + 1) }
  | none =>
    match allStrands.filter fun t => (k.strand t).running with
    | [] => s
    | t :: ts =>
      let x := (t :: ts).getD (s.free % (ts.length + 1)) t
      s.drew.setCore c { k with frozen := some (x, (k.strand x).pc, 1) }

/-- A wrong output in a T-die's engines (R359, R415): executions that run are repeated. Which engine it was, or the reduction tree,
is open here (log 2). -/
def State.strikeAttention (s : State) (n : Fin 22) : State :=
  let t := s.tdie n
  let e := s.free % 65
  if tdieOk s.hub.expanders n then
    ((s.setTdie n { t with entries := t.entries.map fun (e : TEntry) =>
        if e.running then { e with running := false } else e }).corrected n (if e = 64 then 12 else 10) (e % 64)).drew
  else s

/-- A word of a T-die's context table is struck (R358): corrected and counted, or found with one record. What becomes of the
entry's context is open; its pages count as poisoned from then on (R275; DESIGN CHOICE, log 76). -/
def State.strikeContext (s : State) (n : Fin 22) (ctx : Nat) (correctable : Bool) : State :=
  let t := s.tdie n
  match slook t.ctxs ctx with
  | none => s
  | some e =>
    if correctable then s.corrected n 11 0
    else if s.silent n 11 0 then s
    else
      let ids := e.groups.flatMap fun g => g.table.map Prod.snd
      let mark := fun (p : Nat × PageDesc) => if ids.contains p.1 then (p.1, { p.2 with poisoned := true }) else p
      (s.setTdie n { t with descs := t.descs.map mark }).record n n 11 0 UCE 2 true false 0 (BitVec.ofNat 64 ctx)

/-- A word of the signatures of an execution is struck (R415): counted, and one that cannot be corrected counts as an intersection. -/
def State.strikeSignature (s : State) (n : Fin 22) (i : Nat) (correctable : Bool) : State :=
  let t := s.tdie n
  match t.entries[i]? with
  | none => s
  | some e =>
    let s1 := s.corrected n 11 0
    if !e.running then s
    else if correctable then s1
    else
      let all := BitVec.allOnes 512
      s1.setTdie n { t with entries := t.entries.set i { e with rsig := all, wsig := all } }

/-- A partial of a reduce-state line is struck (R413): corrected, or left to the merge that reads it. -/
def State.strikePartial (s : State) (pa : Nat) (correctable : Bool) : State :=
  let l := lineOf pa
  match slook s.reds l with
  | none => s
  | some r =>
    if correctable then s.corrected (homeOf l) 13 (llcPlace l % 32) else { s with reds := sput s.reds l { r with bad := true } }

/-- A flit of a host link fails its check (R450): it is replayed, and counted. -/
def State.strikeFlit (s : State) (u : UnitId) : State :=
  let p := unitOf u
  if s.isReady u then s.corrected p.1 p.2.1 p.2.2 else s

/-- A flit of an optical channel fails its check, again or for the first time (R444): it is replayed and counted, and past the bounds of
R441 the channel retrains. -/
def State.strikeChannel (s : State) (plane q : Nat) (again : Bool) : State :=
  let key := 512 * plane + q
  let u : UnitId := .fibre (Fin.ofNat 256 (128 * plane + q / 8))
  if s.hub.lost.contains key || !s.isReady u then s
  else
    let l := (sget {} s.hub.channels key).roll s.now
    let x := { l with row := if again then l.row + 1 else 1, crcs := l.crcs + 1 }
    let y := if 4 ≤ x.row ∨ 64 ≤ x.crcs then { x with train := true, fails := 0, attempt := 0, row := 0, crcs := 0 } else x
    { s with hub := { s.hub with channels := sput s.hub.channels key (if l.train then l else y) } }.strikeFlit u

/-- Units whose sequencers are duplicated with compare (R358). -/
def sequenced : UnitId → Bool
  | .nest _ | .heap _ | .awl _ | .ccu _ | .graph _ => true
  | _ => false

/-- The executions at T-die n of queries whose result goes to a K-die's Cinch are repeated (R359). -/
def State.repeatFor (s : State) (n d : Nat) : State :=
  let t := s.tdie n
  let ours := fun (e : TEntry) => e.running && (s.cmdOf e.cmd).any fun k => dieOf k.core == d
  if t.entries.any ours then
    s.setTdie n { t with entries := t.entries.map fun (e : TEntry) => if ours e then { e with running := false } else e }
  else s

/-- Mismatches so far in a row on one word of a sequencer. -/
def Hub.mismatched (h : Hub) (u : UnitId) : Nat := ((h.mismatches.find? fun p => p.1 == u).map Prod.snd).getD 0

/-- A sequencer's mismatches on its present word. -/
def Hub.noteMismatch (h : Hub) (u : UnitId) (n : Nat) : Hub :=
  { h with mismatches := (u, n) :: h.mismatches.filter fun p => p.1 != u }

/-- The failing word index of a sequencer (R366): of an Awl that of a word of one of its runs, which is open; another's is open too
(log 2). -/
def State.failingWord (s : State) (u : UnitId) : Nat :=
  match u with
  | .awl d =>
    let rs := (s.kdie d).awl.runs
    match rs[s.free % max rs.length 1]? with
    | some r => r.pc
    | none => s.free % 2 ^ 13
  | _ => s.free % 2 ^ 13

/-- A mismatch in a unit (R358, R359): counted, or at the third on one word of a sequencer the unit is fenced, with the failing word
index (R366). -/
def State.strikeUnit (s : State) (u : UnitId) (again : Bool) : State :=
  let p := unitOf u
  if !s.isReady u then s
  else if sequenced u then
    let n := if again then s.hub.mismatched u + 1 else 1
    let s1 : State := { s with hub := s.hub.noteMismatch u n }
    if 3 ≤ n then (s1.drew.fence u SEQF 0 (BitVec.ofNat 64 (s.failingWord u))) else s1.corrected p.1 p.2.1 p.2.2
  else match u with
    | .cinch d => ((List.range 22).foldl (fun s n => s.repeatFor n d) s).corrected p.1 p.2.1 p.2.2
    | _ => s

/-- Class C5 (R368, R374): nothing crosses the module boundary any more. Which of a hub's units the record names is open (log 2). -/
def State.stopEgress (s : State) (h : Fin 2) : State :=
  let s1 := s.record (16 + h) (16 + h) (16 + s.free % 8) 0 EGSTOP 5 true false 0 0
  ({ s1 with hub := { s1.hub.raise 24 with egress := true } }.countNow 0x18 1).drew

/-- SINGLE_FAULT (R355, R356, R358). -/
def execSingleFault (f : FaultSite) (s : State) : Host.Outcome State Fault Refusal :=
  .next (match f with
    | .line pa p correctable => s.strikeLine pa p correctable
    | .tile c l correctable => s.strikeTile c l correctable
    | .coreState c location correctable => s.strikeCore c location correctable
    | .cacheTag pa p => s.strikeTag pa p
    | .counter h correctable => s.strikeCounter h correctable
    | .heapEntry d i correctable => s.strikeHeap d i correctable
    | .candidate d j correctable => s.strikeCandidate d j correctable
    | .logic c => s.strikeLogic c
    | .attention n => s.strikeAttention n
    | .contextEntry n ctx correctable => s.strikeContext n ctx correctable
    | .signature n i correctable => s.strikeSignature n i correctable
    | .reducePartial pa correctable => s.strikePartial pa correctable
    | .compare u again => s.strikeUnit u again
    | .flit n m => s.flitArrives n m false true
    | .channelFlit plane q again => s.strikeChannel plane q again
    | .hostFlit h => s.strikeFlit (.host h)
    | .egress h => s.stopEgress h)

end Sys2Proof.Machine
end

