-- ==== Sys2Proof/Machine/Dispatch.lean ====
section
/-! DEFINITION. The dispatch: one arm per constructor of `Instr`, each a direct call of its meaning. -/

namespace Sys2Proof.Machine

/-- What an instruction or event does to the machine. -/
def exec (i : Instr) (s : State) : Host.Outcome State Fault Refusal :=
  match i with
  | .add h d a b => Sys2Proof.Machine.execAdd h d a b s
  | .sub h d a b => Sys2Proof.Machine.execSub h d a b s
  | .and h d a b => Sys2Proof.Machine.execAnd h d a b s
  | .or h d a b => Sys2Proof.Machine.execOr h d a b s
  | .xor h d a b => Sys2Proof.Machine.execXor h d a b s
  | .shl h d a b => Sys2Proof.Machine.execShl h d a b s
  | .shr h d a b => Sys2Proof.Machine.execShr h d a b s
  | .sra h d a b => Sys2Proof.Machine.execSra h d a b s
  | .slt h d a b => Sys2Proof.Machine.execSlt h d a b s
  | .sltu h d a b => Sys2Proof.Machine.execSltu h d a b s
  | .min h d a b => Sys2Proof.Machine.execMin h d a b s
  | .max h d a b => Sys2Proof.Machine.execMax h d a b s
  | .minu h d a b => Sys2Proof.Machine.execMinu h d a b s
  | .maxu h d a b => Sys2Proof.Machine.execMaxu h d a b s
  | .mul h d a b => Sys2Proof.Machine.execMul h d a b s
  | .mulh h d a b => Sys2Proof.Machine.execMulh h d a b s
  | .mulhu h d a b => Sys2Proof.Machine.execMulhu h d a b s
  | .div h d a b => Sys2Proof.Machine.execDiv h d a b s
  | .divu h d a b => Sys2Proof.Machine.execDivu h d a b s
  | .rem h d a b => Sys2Proof.Machine.execRem h d a b s
  | .remu h d a b => Sys2Proof.Machine.execRemu h d a b s
  | .clz h d a => Sys2Proof.Machine.execClz h d a s
  | .popc h d a => Sys2Proof.Machine.execPopc h d a s
  | .addi h d a w3 => Sys2Proof.Machine.execAddi h d a w3 s
  | .andi h d a w3 => Sys2Proof.Machine.execAndi h d a w3 s
  | .ori h d a w3 => Sys2Proof.Machine.execOri h d a w3 s
  | .xori h d a w3 => Sys2Proof.Machine.execXori h d a w3 s
  | .slti h d a w3 => Sys2Proof.Machine.execSlti h d a w3 s
  | .sltiu h d a w3 => Sys2Proof.Machine.execSltiu h d a w3 s
  | .shli h d a w3 => Sys2Proof.Machine.execShli h d a w3 s
  | .shri h d a w3 => Sys2Proof.Machine.execShri h d a w3 s
  | .srai h d a w3 => Sys2Proof.Machine.execSrai h d a w3 s
  | .movi h d w2 => Sys2Proof.Machine.execMovi h d w2 s
  | .movk1 h d w2 => Sys2Proof.Machine.execMovk1 h d w2 s
  | .movk2 h d w2 => Sys2Proof.Machine.execMovk2 h d w2 s
  | .movk3 h d w2 => Sys2Proof.Machine.execMovk3 h d w2 s
  | .beqz h a o => Sys2Proof.Machine.execBeqz h a o s
  | .bnez h a o => Sys2Proof.Machine.execBnez h a o s
  | .bltz h a o => Sys2Proof.Machine.execBltz h a o s
  | .bgez h a o => Sys2Proof.Machine.execBgez h a o s
  | .blez h a o => Sys2Proof.Machine.execBlez h a o s
  | .bgtz h a o => Sys2Proof.Machine.execBgtz h a o s
  | .br h o => Sys2Proof.Machine.execBr h o s
  | .j h o => Sys2Proof.Machine.execJ h o s
  | .jal h o => Sys2Proof.Machine.execJal h o s
  | .jr h a => Sys2Proof.Machine.execJr h a s
  | .jalr h d a => Sys2Proof.Machine.execJalr h d a s
  | .loop h a w2 => Sys2Proof.Machine.execLoop h a w2 s
  | .cadd h a b c => Sys2Proof.Machine.execCadd h a b c s
  | .cwait h a b c => Sys2Proof.Machine.execCwait h a b c s
  | .bar h a b c => Sys2Proof.Machine.execBar h a b c s
  | .mfence h d a m => Sys2Proof.Machine.execMfence h d a m s
  | .sprd h d a n => Sys2Proof.Machine.execSprd h d a n s
  | .sprdDmdq h d a => Sys2Proof.Machine.execSprdDmdq h d a s
  | .spwr h a n => Sys2Proof.Machine.execSpwr h a n s
  | .spwrJoinmask h a => Sys2Proof.Machine.execSpwrJoinmask h a s
  | .spwrSpsplit h a => Sys2Proof.Machine.execSpwrSpsplit h a s
  | .spwrMprog h a => Sys2Proof.Machine.execSpwrMprog h a s
  | .spwrDmsub h a => Sys2Proof.Machine.execSpwrDmsub h a s
  | .spwrTret h a => Sys2Proof.Machine.execSpwrTret h a s
  | .halt h => Sys2Proof.Machine.execHalt h s
  | .swi h w1 => Sys2Proof.Machine.execSwi h w1 s
  | .start h t e => Sys2Proof.Machine.execStart h t e s
  | .nest h d a b => Sys2Proof.Machine.execNest h d a b s
  | .taskpush h d a b => Sys2Proof.Machine.execTaskpush h d a b s
  | .taskpop h d a => Sys2Proof.Machine.execTaskpop h d a s
  | .yield h => Sys2Proof.Machine.execYield h s
  | .canst h d => Sys2Proof.Machine.execCanst h d s
  | .ssave h d a => Sys2Proof.Machine.execSsave h d a s
  | .srest h d a => Sys2Proof.Machine.execSrest h d a s
  | .gpwr h a b => Sys2Proof.Machine.execGpwr h a b s
  | .gprd h d a => Sys2Proof.Machine.execGprd h d a s
  | .awlrun h d a b => Sys2Proof.Machine.execAwlrun h d a b s
  | .ovl h d a => Sys2Proof.Machine.execOvl h d a s
  | .tlbinv h a => Sys2Proof.Machine.execTlbinv h a s
  | .tlbinva h => Sys2Proof.Machine.execTlbinva h s
  | .cwb h a b => Sys2Proof.Machine.execCwb h a b s
  | .cinv h a b => Sys2Proof.Machine.execCinv h a b s
  | .fwcall h d a b => Sys2Proof.Machine.execFwcall h d a b s
  | .vfadd h d a b => Sys2Proof.Machine.execVfadd h d a b s
  | .vfsub h d a b => Sys2Proof.Machine.execVfsub h d a b s
  | .vfmul h d a b => Sys2Proof.Machine.execVfmul h d a b s
  | .vfma h d a b => Sys2Proof.Machine.execVfma h d a b s
  | .vfmax h d a b => Sys2Proof.Machine.execVfmax h d a b s
  | .vfmin h d a b => Sys2Proof.Machine.execVfmin h d a b s
  | .vfceq h d a b => Sys2Proof.Machine.execVfceq h d a b s
  | .vfclt h d a b => Sys2Proof.Machine.execVfclt h d a b s
  | .vfcle h d a b => Sys2Proof.Machine.execVfcle h d a b s
  | .vbadd h d a b => Sys2Proof.Machine.execVbadd h d a b s
  | .vbsub h d a b => Sys2Proof.Machine.execVbsub h d a b s
  | .vbmul h d a b => Sys2Proof.Machine.execVbmul h d a b s
  | .vbfma h d a b => Sys2Proof.Machine.execVbfma h d a b s
  | .vadd h d a b => Sys2Proof.Machine.execVadd h d a b s
  | .vsub h d a b => Sys2Proof.Machine.execVsub h d a b s
  | .vmul h d a b => Sys2Proof.Machine.execVmul h d a b s
  | .vand h d a b => Sys2Proof.Machine.execVand h d a b s
  | .vor h d a b => Sys2Proof.Machine.execVor h d a b s
  | .vxor h d a b => Sys2Proof.Machine.execVxor h d a b s
  | .vshl h d a b => Sys2Proof.Machine.execVshl h d a b s
  | .vshr h d a b => Sys2Proof.Machine.execVshr h d a b s
  | .vsra h d a b => Sys2Proof.Machine.execVsra h d a b s
  | .vmax h d a b => Sys2Proof.Machine.execVmax h d a b s
  | .vmin h d a b => Sys2Proof.Machine.execVmin h d a b s
  | .vceq h d a b => Sys2Proof.Machine.execVceq h d a b s
  | .vclt h d a b => Sys2Proof.Machine.execVclt h d a b s
  | .vsel h d a b => Sys2Proof.Machine.execVsel h d a b s
  | .vshli h d a w3 => Sys2Proof.Machine.execVshli h d a w3 s
  | .vmov h d a => Sys2Proof.Machine.execVmov h d a s
  | .vcvtfb h d a b => Sys2Proof.Machine.execVcvtfb h d a b s
  | .vcvtbf h d a b => Sys2Proof.Machine.execVcvtbf h d a b s
  | .vcvtfi h d a b => Sys2Proof.Machine.execVcvtfi h d a b s
  | .vcvtif h d a b => Sys2Proof.Machine.execVcvtif h d a b s
  | .vcvtl8 h d a b => Sys2Proof.Machine.execVcvtl8 h d a b s
  | .vcvtl6 h d a b => Sys2Proof.Machine.execVcvtl6 h d a b s
  | .vxl8 h d a b => Sys2Proof.Machine.execVxl8 h d a b s
  | .vxl6 h d a b => Sys2Proof.Machine.execVxl6 h d a b s
  | .vexp2 h d a => Sys2Proof.Machine.execVexp2 h d a s
  | .vlog2 h d a => Sys2Proof.Machine.execVlog2 h d a s
  | .vrcp h d a => Sys2Proof.Machine.execVrcp h d a s
  | .vrsq h d a => Sys2Proof.Machine.execVrsq h d a s
  | .vredadd h d a => Sys2Proof.Machine.execVredadd h d a s
  | .vredmax h d a => Sys2Proof.Machine.execVredmax h d a s
  | .vredmin h d a => Sys2Proof.Machine.execVredmin h d a s
  | .vrediadd h d a => Sys2Proof.Machine.execVrediadd h d a s
  | .vperm h d a b => Sys2Proof.Machine.execVperm h d a b s
  | .vrot h d a w3 => Sys2Proof.Machine.execVrot h d a w3 s
  | .vbcast h d r => Sys2Proof.Machine.execVbcast h d r s
  | .vext h v r l => Sys2Proof.Machine.execVext h v r l s
  | .vimm h d w2 => Sys2Proof.Machine.execVimm h d w2 s
  | .vld h v t l => Sys2Proof.Machine.execVld h v t l s
  | .vst h v t l => Sys2Proof.Machine.execVst h v t l s
  | .mvaccRow h d c g x => Sys2Proof.Machine.execMvaccRow h d c g x s
  | .mvaccCol h d c g x => Sys2Proof.Machine.execMvaccCol h d c g x s
  | .mvaccRowPeek h d c g x => Sys2Proof.Machine.execMvaccRowPeek h d c g x s
  | .mvaccColPeek h d c g x => Sys2Proof.Machine.execMvaccColPeek h d c g x s
  | .wldL8Tile h p t => Sys2Proof.Machine.execWldL8Tile h p t s
  | .wldL8Handle h p a => Sys2Proof.Machine.execWldL8Handle h p a s
  | .wldL6Tile h p t => Sys2Proof.Machine.execWldL6Tile h p t s
  | .wldL6Handle h p a => Sys2Proof.Machine.execWldL6Handle h p a s
  | .wldBf16Tile h p t => Sys2Proof.Machine.execWldBf16Tile h p t s
  | .wldBf16Handle h p a => Sys2Proof.Machine.execWldBf16Handle h p a s
  | .wldI8Tile h p t => Sys2Proof.Machine.execWldI8Tile h p t s
  | .wldI8Handle h p a => Sys2Proof.Machine.execWldI8Handle h p a s
  | .mmaL8Tile h c p k z t => Sys2Proof.Machine.execMmaL8Tile h c p k z t s
  | .mmaL8Handle h c p k z a => Sys2Proof.Machine.execMmaL8Handle h c p k z a s
  | .mmaL6Tile h c p k z t => Sys2Proof.Machine.execMmaL6Tile h c p k z t s
  | .mmaL6Handle h c p k z a => Sys2Proof.Machine.execMmaL6Handle h c p k z a s
  | .mmaBf16Tile h c p k z t => Sys2Proof.Machine.execMmaBf16Tile h c p k z t s
  | .mmaBf16Handle h c p k z a => Sys2Proof.Machine.execMmaBf16Handle h c p k z a s
  | .mmaI8Tile h c p k z t => Sys2Proof.Machine.execMmaI8Tile h c p k z t s
  | .mmaI8Handle h c p k z a => Sys2Proof.Machine.execMmaI8Handle h c p k z a s
  | .mdrain h c k t a => Sys2Proof.Machine.execMdrain h c k t a s
  | .mzero h c => Sys2Proof.Machine.execMzero h c s
  | .mkld h k t l => Sys2Proof.Machine.execMkld h k t l s
  | .mkrng h k a b => Sys2Proof.Machine.execMkrng h k a b s
  | .mkall h k => Sys2Proof.Machine.execMkall h k s
  | .mpbld h a => Sys2Proof.Machine.execMpbld h a s
  | .lutld h a => Sys2Proof.Machine.execLutld h a s
  | .mwait h c => Sys2Proof.Machine.execMwait h c s
  | .trgo h a => Sys2Proof.Machine.execTrgo h a s
  | .trstop h => Sys2Proof.Machine.execTrstop h s
  | .trwait h => Sys2Proof.Machine.execTrwait h s
  | .ld h d a p n x => Sys2Proof.Machine.execLd h d a p n x s
  | .st h d a p n => Sys2Proof.Machine.execSt h d a p n s
  | .pf h a p n => Sys2Proof.Machine.execPf h a p n s
  | .amoAdd h d a b p z => Sys2Proof.Machine.execAmoAdd h d a b p z s
  | .amoAnd h d a b p z => Sys2Proof.Machine.execAmoAnd h d a b p z s
  | .amoOr h d a b p z => Sys2Proof.Machine.execAmoOr h d a b p z s
  | .amoXor h d a b p z => Sys2Proof.Machine.execAmoXor h d a b p z s
  | .amoMax h d a b p z => Sys2Proof.Machine.execAmoMax h d a b p z s
  | .amoMin h d a b p z => Sys2Proof.Machine.execAmoMin h d a b p z s
  | .amoSwap h d a b p z => Sys2Proof.Machine.execAmoSwap h d a b p z s
  | .amoCas h d a b p z => Sys2Proof.Machine.execAmoCas h d a b p z s
  | .redAdd h a b p z => Sys2Proof.Machine.execRedAdd h a b p z s
  | .redMax h a b p z => Sys2Proof.Machine.execRedMax h a b p z s
  | .redMin h a b p z => Sys2Proof.Machine.execRedMin h a b p z s
  | .talloc h t c => Sys2Proof.Machine.execTalloc h t c s
  | .tseal h t => Sys2Proof.Machine.execTseal h t s
  | .twait h t => Sys2Proof.Machine.execTwait h t s
  | .tstat h d t => Sys2Proof.Machine.execTstat h d t s
  | .tdrop h t => Sys2Proof.Machine.execTdrop h t s
  | .wcpIn h a b c k => Sys2Proof.Machine.execWcpIn h a b c k s
  | .wcpOut h a b c k => Sys2Proof.Machine.execWcpOut h a b c k s
  | .wcpRt h a b c k => Sys2Proof.Machine.execWcpRt h a b c k s
  | .wcpGg h a b c k => Sys2Proof.Machine.execWcpGg h a b c k s
  | .wcpCond h a b c k => Sys2Proof.Machine.execWcpCond h a b c k s
  | .wcpMm h a b c k => Sys2Proof.Machine.execWcpMm h a b c k s
  | .coll h a b c k => Sys2Proof.Machine.execColl h a b c k s
  | .kvapp h a b c k => Sys2Proof.Machine.execKvapp h a b c k s
  | .kvqry h a b c k => Sys2Proof.Machine.execKvqry h a b c k s
  | .kvfork h a b k => Sys2Proof.Machine.execKvfork h a b k s
  | .kvcan h a b k => Sys2Proof.Machine.execKvcan h a b k s
  | .kvmig h a b k => Sys2Proof.Machine.execKvmig h a b k s
  | .kvrel h a b k => Sys2Proof.Machine.execKvrel h a b k s
  | .awlAdd d a b => Sys2Proof.Machine.execAwlAdd d a b s
  | .awlSub d a b => Sys2Proof.Machine.execAwlSub d a b s
  | .awlAnd d a b => Sys2Proof.Machine.execAwlAnd d a b s
  | .awlShr d a b => Sys2Proof.Machine.execAwlShr d a b s
  | .awlSlt d a b => Sys2Proof.Machine.execAwlSlt d a b s
  | .awlAddi d a w2 => Sys2Proof.Machine.execAwlAddi d a w2 s
  | .awlWli d w1 => Sys2Proof.Machine.execAwlWli d w1 s
  | .awlFadd d a b => Sys2Proof.Machine.execAwlFadd d a b s
  | .awlFmul d a b => Sys2Proof.Machine.execAwlFmul d a b s
  | .awlFmax d a b => Sys2Proof.Machine.execAwlFmax d a b s
  | .awlFrcp d a => Sys2Proof.Machine.execAwlFrcp d a s
  | .awlFexp2 d a => Sys2Proof.Machine.execAwlFexp2 d a s
  | .awlFlog2 d a => Sys2Proof.Machine.execAwlFlog2 d a s
  | .awlFcvt d a => Sys2Proof.Machine.execAwlFcvt d a s
  | .awlFint d a => Sys2Proof.Machine.execAwlFint d a s
  | .awlFbits d a => Sys2Proof.Machine.execAwlFbits d a s
  | .awlWbits d a => Sys2Proof.Machine.execAwlWbits d a s
  | .awlLw d a w2 => Sys2Proof.Machine.execAwlLw d a w2 s
  | .awlSw d a w2 => Sys2Proof.Machine.execAwlSw d a w2 s
  | .awlBeq a b o => Sys2Proof.Machine.execAwlBeq a b o s
  | .awlBne a b o => Sys2Proof.Machine.execAwlBne a b o s
  | .awlBlt a b o => Sys2Proof.Machine.execAwlBlt a b o s
  | .awlJmp o => Sys2Proof.Machine.execAwlJmp o s
  | .awlStop => Sys2Proof.Machine.execAwlStop s
  | .awlCld a b => Sys2Proof.Machine.execAwlCld a b s
  | .awlCpen d a b => Sys2Proof.Machine.execAwlCpen d a b s
  | .awlCtopk a => Sys2Proof.Machine.execAwlCtopk a s
  | .awlCpick d a b => Sys2Proof.Machine.execAwlCpick d a b s
  | .awlCget d a b => Sys2Proof.Machine.execAwlCget d a b s
  | .awlRdraw d a => Sys2Proof.Machine.execAwlRdraw d a s
  | .awlPadd d a b => Sys2Proof.Machine.execAwlPadd d a b s
  | .awlTok a b => Sys2Proof.Machine.execAwlTok a b s
  | .awlDnode d a b => Sys2Proof.Machine.execAwlDnode d a b s
  | .awlDbest d a b => Sys2Proof.Machine.execAwlDbest d a b s
  | .awlDcommit d a => Sys2Proof.Machine.execAwlDcommit d a s
  | .powerGood => Sys2Proof.Machine.execPowerGood s
  | .flashImageVerificationEnd uce agree => Sys2Proof.Machine.execFlashImageVerificationEnd uce agree s
  | .bdoorGo => Sys2Proof.Machine.execBdoorGo s
  | .hostImageVerificationEnd agree => Sys2Proof.Machine.execHostImageVerificationEnd agree s
  | .stagingWindowWrite off bytes => Sys2Proof.Machine.execStagingWindowWrite off bytes s
  | .readPowerLimit => Sys2Proof.Machine.execReadPowerLimit s
  | .setPowerLimit => Sys2Proof.Machine.execSetPowerLimit s
  | .counterReset reachable => Sys2Proof.Machine.execCounterReset reachable s
  | .sizeKvPools => Sys2Proof.Machine.execSizeKvPools s
  | .clearFenceList => Sys2Proof.Machine.execClearFenceList s
  | .setModuleNumber => Sys2Proof.Machine.execSetModuleNumber s
  | .undefinedFirmwareFunction => Sys2Proof.Machine.execUndefinedFirmwareFunction s
  | .functionReady u => Sys2Proof.Machine.execFunctionReady u s
  | .operatingPointChange w0 mhz mv pwr hot => Sys2Proof.Machine.execOperatingPointChange w0 mhz mv pwr hot s
  | .dieReaches95c n points actlim => Sys2Proof.Machine.execDieReaches95c n points actlim s
  | .dieReaches110c n => Sys2Proof.Machine.execDieReaches110c n s
  | .bootMailboxGo c => Sys2Proof.Machine.execBootMailboxGo c s
  | .imageLoadEnd c => Sys2Proof.Machine.execImageLoadEnd c s
  | .launchEnd c => Sys2Proof.Machine.execLaunchEnd c s
  | .nestIterationDispatch c => Sys2Proof.Machine.execNestIterationDispatch c s
  | .iterationEnd c => Sys2Proof.Machine.execIterationEnd c s
  | .rendezvousDeadlock c => Sys2Proof.Machine.execRendezvousDeadlock c s
  | .rsvopTrap w => Sys2Proof.Machine.execRsvopTrap w s
  | .irangeTrap => Sys2Proof.Machine.execIrangeTrap s
  | .engineTrap c => Sys2Proof.Machine.execEngineTrap c s
  | .fixedLatencyWrite c => Sys2Proof.Machine.execFixedLatencyWrite c s
  | .coreFreezeEnd c third sequencer index => Sys2Proof.Machine.execCoreFreezeEnd c third sequencer index s
  | .variableLatencyResult c k w2 => Sys2Proof.Machine.execVariableLatencyResult c k w2 s
  | .demandDelivery c k => Sys2Proof.Machine.execDemandDelivery c k s
  | .remoteWaitAnswer c k value => Sys2Proof.Machine.execRemoteWaitAnswer c k value s
  | .remoteWaitResend c k accepted => Sys2Proof.Machine.execRemoteWaitResend c k accepted s
  | .counterAddArrival a => Sys2Proof.Machine.execCounterAddArrival a s
  | .tableWalkEnd c va => Sys2Proof.Machine.execTableWalkEnd c va s
  | .loadRetirement c k changed => Sys2Proof.Machine.execLoadRetirement c k changed s
  | .leaseRenewal line => Sys2Proof.Machine.execLeaseRenewal line s
  | .arrival w0 => Sys2Proof.Machine.execArrival w0 s
  | .arrivalRetry w0 => Sys2Proof.Machine.execArrivalRetry w0 s
  | .arrivalWaitRecord w0 => Sys2Proof.Machine.execArrivalWaitRecord w0 s
  | .redAtHome c w1 => Sys2Proof.Machine.execRedAtHome c w1 s
  | .lineEviction line => Sys2Proof.Machine.execLineEviction line s
  | .writeBackArrival w0 => Sys2Proof.Machine.execWriteBackArrival w0 s
  | .writeBackResend w0 => Sys2Proof.Machine.execWriteBackResend w0 s
  | .atomicAtHome c k => Sys2Proof.Machine.execAtomicAtHome c k s
  | .podAtomicAtHome r => Sys2Proof.Machine.execPodAtomicAtHome r s
  | .space2AccessAtTarget r => Sys2Proof.Machine.execSpace2AccessAtTarget r s
  | .podAccessAtTarget r => Sys2Proof.Machine.execPodAccessAtTarget r s
  | .postedAccessFailure c w1 f => Sys2Proof.Machine.execPostedAccessFailure c w1 f s
  | .overlayLoadEnd c => Sys2Proof.Machine.execOverlayLoadEnd c s
  | .weightLoadStart c w1 => Sys2Proof.Machine.execWeightLoadStart c w1 s
  | .weightLoadEnd c w1 => Sys2Proof.Machine.execWeightLoadEnd c w1 s
  | .multiplyStart c w1 => Sys2Proof.Machine.execMultiplyStart c w1 s
  | .multiplyRowComplete c w1 mismatch => Sys2Proof.Machine.execMultiplyRowComplete c w1 mismatch s
  | .multiplyRetire c w1 => Sys2Proof.Machine.execMultiplyRetire c w1 s
  | .mzeroRetire c w1 => Sys2Proof.Machine.execMzeroRetire c w1 s
  | .drainStart c w1 => Sys2Proof.Machine.execDrainStart c w1 s
  | .drainLineWrite c w1 => Sys2Proof.Machine.execDrainLineWrite c w1 s
  | .drainEnd c w1 => Sys2Proof.Machine.execDrainEnd c w1 s
  | .tableInstall c w1 => Sys2Proof.Machine.execTableInstall c w1 s
  | .operandLineTimeout c w1 cause => Sys2Proof.Machine.execOperandLineTimeout c w1 cause s
  | .treadleRunStart c w1 => Sys2Proof.Machine.execTreadleRunStart c w1 s
  | .treadleBeat c => Sys2Proof.Machine.execTreadleBeat c s
  | .treadleRunEnd c => Sys2Proof.Machine.execTreadleRunEnd c s
  | .followOnEntry c w1 => Sys2Proof.Machine.execFollowOnEntry c w1 s
  | .weltLine c w1 j => Sys2Proof.Machine.execWeltLine c w1 j s
  | .weltCommandComplete c w1 => Sys2Proof.Machine.execWeltCommandComplete c w1 s
  | .conditionalCopyCommit c w1 => Sys2Proof.Machine.execConditionalCopyCommit c w1 s
  | .collectiveCompare w0 m => Sys2Proof.Machine.execCollectiveCompare w0 m s
  | .collectiveComplete w0 failed others => Sys2Proof.Machine.execCollectiveComplete w0 failed others s
  | .contextEntryArrival w0 => Sys2Proof.Machine.execContextEntryArrival w0 s
  | .contextEntryResend w0 => Sys2Proof.Machine.execContextEntryResend w0 s
  | .noteComplete n w1 => Sys2Proof.Machine.execNoteComplete n w1 s
  | .appendExecute n w1 => Sys2Proof.Machine.execAppendExecute n w1 s
  | .queryExecute n w1 => Sys2Proof.Machine.execQueryExecute n w1 s
  | .queryExecutionEnd n w1 => Sys2Proof.Machine.execQueryExecutionEnd n w1 s
  | .forkExecute n w1 => Sys2Proof.Machine.execForkExecute n w1 s
  | .relabelExecute n w1 => Sys2Proof.Machine.execRelabelExecute n w1 s
  | .migrateExecute n w1 => Sys2Proof.Machine.execMigrateExecute n w1 s
  | .cancelArrivalTdie n w1 => Sys2Proof.Machine.execCancelArrivalTdie n w1 s
  | .contextCommandCompletion w0 => Sys2Proof.Machine.execContextCommandCompletion w0 s
  | .cinchMerge w0 => Sys2Proof.Machine.execCinchMerge w0 s
  | .contextHoldTimeout n w1 => Sys2Proof.Machine.execContextHoldTimeout n w1 s
  | .tableFullHoldTimeout n w1 => Sys2Proof.Machine.execTableFullHoldTimeout n w1 s
  | .writeHoldTimeout n => Sys2Proof.Machine.execWriteHoldTimeout n s
  | .activationWave n => Sys2Proof.Machine.execActivationWave n s
  | .awlRunStart d w1 => Sys2Proof.Machine.execAwlRunStart d w1 s
  | .awlAdmit d w1 => Sys2Proof.Machine.execAwlAdmit d w1 s
  | .awlRetire d w1 => Sys2Proof.Machine.execAwlRetire d w1 s
  | .awlProgramWordWrite d w1 w => Sys2Proof.Machine.execAwlProgramWordWrite d w1 w s
  | .awlctlWrite d w => Sys2Proof.Machine.execAwlctlWrite d w s
  | .gctlGo => Sys2Proof.Machine.execGctlGo s
  | .grecWrite w => Sys2Proof.Machine.execGrecWrite w s
  | .graphNodeDispatch => Sys2Proof.Machine.execGraphNodeDispatch s
  | .graphNodeRedispatch => Sys2Proof.Machine.execGraphNodeRedispatch s
  | .graphReplayEnd w0 => Sys2Proof.Machine.execGraphReplayEnd w0 s
  | .graphWaitRecord => Sys2Proof.Machine.execGraphWaitRecord s
  | .preemptionRequest d w1 => Sys2Proof.Machine.execPreemptionRequest d w1 s
  | .preemptionService c => Sys2Proof.Machine.execPreemptionService c s
  | .saveEnd c => Sys2Proof.Machine.execSaveEnd c s
  | .iterationResume c => Sys2Proof.Machine.execIterationResume c s
  | .restoreEnd c => Sys2Proof.Machine.execRestoreEnd c s
  | .cancelArrivalKdie d w1 => Sys2Proof.Machine.execCancelArrivalKdie d w1 s
  | .cancelCoreStop c => Sys2Proof.Machine.execCancelCoreStop c s
  | .cancelEffectsDone d w1 => Sys2Proof.Machine.execCancelEffectsDone d w1 s
  | .messageForward w0 => Sys2Proof.Machine.execMessageForward w0 s
  | .podForward w0 => Sys2Proof.Machine.execPodForward w0 s
  | .flitReceive n m crcOk room => Sys2Proof.Machine.execFlitReceive n m crcOk room s
  | .flitReplay n m => Sys2Proof.Machine.execFlitReplay n m s
  | .flitRefusalResend n m w2 => Sys2Proof.Machine.execFlitRefusalResend n m w2 s
  | .linkLossOfLock n m => Sys2Proof.Machine.execLinkLossOfLock n m s
  | .retrainAttemptEnd n m pass => Sys2Proof.Machine.execRetrainAttemptEnd n m pass s
  | .opticalRetrainAttemptEnd plane q pass => Sys2Proof.Machine.execOpticalRetrainAttemptEnd plane q pass s
  | .fabricRequestWithdrawal c r => Sys2Proof.Machine.execFabricRequestWithdrawal c r s
  | .expanderAckTimeout n => Sys2Proof.Machine.execExpanderAckTimeout n s
  | .expanderFenceTimeout n => Sys2Proof.Machine.execExpanderFenceTimeout n s
  | .hostTlpReceive h off damaged => Sys2Proof.Machine.execHostTlpReceive h off damaged s
  | .hostMemoryAccess a => Sys2Proof.Machine.execHostMemoryAccess a s
  | .hostLinkDown h => Sys2Proof.Machine.execHostLinkDown h s
  | .hostLinkReturn h narrow => Sys2Proof.Machine.execHostLinkReturn h narrow s
  | .patrolScrub x => Sys2Proof.Machine.execPatrolScrub x s
  | .telemetryFlush => Sys2Proof.Machine.execTelemetryFlush s
  | .thermalSample temps => Sys2Proof.Machine.execThermalSample temps s
  | .orderlyPowerDown => Sys2Proof.Machine.execOrderlyPowerDown s
  | .logtailWrite n w => Sys2Proof.Machine.execLogtailWrite n w s
  | .gdefWrite g w => Sys2Proof.Machine.execGdefWrite g w s
  | .registerWrite off w => Sys2Proof.Machine.execRegisterWrite off w s
  | .singleFault f => Sys2Proof.Machine.execSingleFault f s
  | .lossOfSupply => Sys2Proof.Machine.execLossOfSupply s
  | .activeBankLimitRaise n actlim => Sys2Proof.Machine.execActiveBankLimitRaise n actlim s
  | .reductionTreeShapeChange n shape map => Sys2Proof.Machine.execReductionTreeShapeChange n shape map s

end Sys2Proof.Machine
end

