-- ==== Sys2Proof/Machine/Advance.lean ====
section
/-! DEFINITION. The turns of the machine: a strand tries its word, bundles form, a core's clock advances, an Awl run goes on,
an event comes (R29 to R35, R144 to R149, R378 to R381). Fetching is here. -/

namespace Sys2Proof.Machine

/-- The state of an outcome, if it is a next state. -/
def nextOf : Host.Outcome State Fault Refusal → Option State
  | .next s => some s
  | _ => none

/-- The strand that is to try its word. -/
def State.focus (s : State) (c : Nat) (k : StrandId) : State := { s with cur := { core := c, strand := k } }

/-- A word that issues has an effect that no discard undoes (R123): a special-register write, a `halt`, a read of %dmdq, a
`talloc`, an engine command or a context command. -/
def lasting (k : StrandId) (w : Nat) : Bool :=
  let op := w / 2 ^ 21 % 64
  if w < 2 ^ 31 then op == 0x1D || op == 0x1E || (op == 0x1C && w % 2 ^ 11 == 0x31)
  else
    match k with
    | .q => true
    | .v => false
    | .m => !(op == 0x12 || op == 0x13 || op == 0x14 || op == 0x17)
    | .l => decide (0x20 ≤ op) || op == 0x14

/-- A strand's word has issued with an effect that no discard undoes: it is noted (R123). -/
def State.noteGiven (s : State) (c : Nat) (k : StrandId) (tok : Nat) (given : Bool) : State :=
  match s.status with
  | .issued .. => if given then s.setCore c ((s.core c).give k tok) else s
  | _ => s

/-- A strand runs the word at its program counter (R378): a reserved OP, a reserved code, or the instruction. -/
def State.runWord (s : State) (c : Nat) (k : StrandId) : Host.Outcome State Fault Refusal :=
  let s1 := s.focus c k
  if 24576 ≤ (s1.here.strand k).pc then Sys2Proof.Machine.execIrangeTrap s1
  else
    let w := s1.here.fetch k
    match decode (.strand k) w.toNat with
    | .reserved => Sys2Proof.Machine.execRsvopTrap w s1
    | .bad offs => .next (s1.issue (hdrOf w.toNat) { bits := offs })
    | .word i offs => exec i { s1 with cur := { s1.cur with format := offs } }

/-- A strand tries its word, alone or, with `joint`, as a word of a bundle, which no replay undoes (R32, R123). -/
def State.tryWord (s : State) (c : Nat) (k : StrandId) (joint : Bool) : Host.Outcome State Fault Refusal :=
  match s.runWord c k with
  | .next t => .next (t.noteGiven c k (s.core c).seq (joint || lasting k ((s.core c).fetch k).toNat))
  | o => o

/-- The word at a strand's program counter belongs to a bundle: S-marked, of a participant outside its handler (R32, R386). -/
def Core.bundled (c : Core) (k : StrandId) : Bool :=
  c.participant k && !(c.strand k).trap.inh && (c.strand k).pc < 24576 && bitOf (c.fetch k).toNat 30

/-- What trying a word alone comes to. -/
def statusOf (o : Host.Outcome State Fault Refusal) : Status :=
  match o with
  | .next s => if s.heldWrite.isSome then .waiting [.other] [] [] else s.status
  | _ => .waiting [.other] [] []

/-- The word would issue, or fails a check of stage 3. -/
def Status.ripe : Status → Bool
  | .issued .. => true
  | .trapped stage1 _ _ => !stage1
  | _ => false

/-- A word of a bundle fails a check of stage 3 (R380). -/
def Status.fails : Status → Bool
  | .trapped false _ _ => true
  | _ => false

/-- The ordinary accesses that a bundle puts before the later ones of participant `k`: those of the participants that are
outstanding, and what an earlier bundle put there (R124). -/
def Core.barrierFor (c : Core) (ps : List StrandId) (k : StrandId) : Core :=
  let old := sget [] c.barrier k.index
  let toks := (c.mops.filter fun m =>
    !m.fabric && !m.posted && (old.contains m.tok || (m.strand != k && ps.contains m.strand))).map MemOp.tok
  { c with barrier := sput c.barrier k.index toks }

/-- The words of a bundle are run one after another in the order Q, V, M, L, each behind the ordinary accesses of the earlier
ones (R32, R124). -/
def State.runAll (s : State) (c : Nat) (ps : List StrandId) : List StrandId → Host.Outcome State Fault Refusal
  | [] => .next (s.setCore c (ps.foldl (fun k p => k.barrierFor ps p) (s.core c)))
  | k :: r =>
    match (s.setCore c ((s.core c).barrierFor ps k)).tryWord c k true with
    | .next t => t.runAll c ps r
    | o => o

/-- Words of a bundle that fail a check trap, each in its own strand (R380). -/
def State.trapAll (s : State) (c : Nat) : List StrandId → Host.Outcome State Fault Refusal
  | [] => .next s
  | k :: r =>
    match s.tryWord c k false with
    | .next t => t.trapAll c r
    | o => o

/-- A strand stays in its join slot: the finding is kept for the detection of a deadlock (R32, R35). -/
def State.inSlot (s : State) (c : Nat) (k : StrandId) (waits : List Wait) (pops pushes : List StrandId) : State :=
  let core := s.core c
  let t := core.strand k
  { s.setCore c (core.setStrand k { t with join := some ⟨core.cycle, waits, pops, pushes⟩ }) with
    status := .waiting waits pops pushes }

/-- Strand Q, outside the bundle, starts strands in this cycle: they are in the participating set from this cycle on, so no bundle
forms before (R33, R180). -/
def State.startsNow (s : State) (c : Nat) : Bool :=
  let core := s.core c
  !core.bundled .q &&
    (match decode (.strand .q) (core.fetch .q).toNat with
      | .word (.start ..) _ => true
      | _ => false) &&
    match statusOf (s.tryWord c .q false) with
    | .issued .. => true
    | _ => false

/-- A strand's try at a bundle boundary: a word outside a bundle is tried; an S-marked word of a participant issues with its
whole bundle, once every participant has an S-marked word ready, and a word of it that fails a check keeps the bundle back
(R32, R380). -/
def State.tryTurn (s : State) (c : Nat) (k : StrandId) : Host.Outcome State Fault Refusal :=
  let core := s.core c
  if !core.bundled k then s.tryWord c k false
  else
    match s.tryWord c k false with
    | .next t =>
      match t.status with
      | .waiting ws pops pushes => if core.notYet k then .next t else .next (t.inSlot c k ws pops pushes)
      | .trapped true _ _ => .next t
      | _ =>
        let ps := core.participants
        let all := ps.map fun p => if core.bundled p then statusOf (s.tryWord c p false) else .waiting [.other] [] []
        if all.all Status.ripe && !s.startsNow c then
          match (ps.zip all).filter fun p => p.2.fails with
          | [] => s.runAll c ps ps
          | bad => s.trapAll c (bad.map Prod.fst)
        else
          match t.status with
          | .issued pops pushes => .next (s.inSlot c k [] pops pushes)
          | .trapped _ pops pushes => .next (s.inSlot c k [] pops pushes)
          | _ => .next (s.inSlot c k [] [] [])
    | o => o

/-- A strand would trap in this cycle. -/
def State.wouldTrap (s : State) (c : Nat) (k : StrandId) : Bool :=
  match statusOf (s.tryTurn c k) with
  | .trapped .. => true
  | _ => false

/-- A strand's turn: where a pre-emption is to be served at this boundary, it may trap and does nothing else (R317, R388). -/
def State.strandTurn (s : State) (c : Nat) (k : StrandId) : Host.Outcome State Fault Refusal :=
  if s.servesNow c && !s.wouldTrap c k then .next { s with status := .waiting [.other] [] [] } else s.tryTurn c k

/-- A strand would issue or trap in this cycle, or has an S-marked word that has not been tried in it. -/
def State.restless (s : State) (c : Nat) (k : StrandId) : Bool :=
  let core := s.core c
  (core.strand k).running &&
  ((match statusOf (s.strandTurn c k) with
    | .waiting .. => false
    | _ => true) ||
   (core.bundled k && !core.notYet k && (core.joined k).isNone))

/-- At the bundle boundary after a cycle, a trap that could enter no handler abandons the unit of work, and a `yield` serves the
pre-emption request (R189, R317, R387). -/
def State.boundary (s : State) (c : Nat) : State :=
  match (s.core c).lost with
  | some synd => s.abandon c synd
  | none => if (s.core c).yielded then s.preempt c else s

/-- A core's arithmetic clock advances by one cycle (R144), once everything that belongs to the present cycle has happened:
due writes have landed, ready words have issued, a due trap, deadlock, pre-emption or treadle beat has been taken. -/
def State.tickTurn (s : State) (c : Nat) : State :=
  let core := s.core c
  if core.frozen.isSome || core.work.stands || core.deadlocked || (s.nextEngineTrap c).isSome || s.servesNow c ||
      core.fixed.any (fun w => w.land ≤ core.cycle) ||
      core.run.any (fun r => r.due ≤ core.cycle && r.g < r.beats) || allStrands.any (s.restless c) then s
  else
    let counts := match core.work with
      | .launch => true
      | .iteration .. => true
      | _ => false
    let k := { core with cycle := core.cycle + 1, cyc := if counts then core.cyc + 1 else core.cyc, acted := false }
    (s.setCore c k.applySprs).boundary c

/-- The run on a slot of a K-die's Awl runs its next word (R300, R303). -/
def State.awlTurn (s : State) (d slot : Nat) : Host.Outcome State Fault Refusal :=
  let a := (s.kdie d).awl
  match a.runOn slot with
  | none => .next s
  | some r =>
    match decode .awl (sget 0 a.prog r.pc).toNat with
    | .word i offs => exec i { s with cur := { die := d, slot := slot, format := offs } }
    | _ => .next (s.awlReserved d slot)

/-- An event that a trap of the same cycle comes before: a pre-emption is served once no strand of the core would trap (R388). -/
def State.trapFirst (s : State) : Instr → Bool
  | .preemptionService c => allStrands.any (s.wouldTrap c)
  | _ => false

/-- The turn of a mover; a mover that does not exist, or that may not move now, changes nothing. -/
def State.turn (s : State) : Mover → Host.Outcome State Fault Refusal
  | .strand c k => if c < 512 then s.strandTurn c k else .next s
  | .tick c => if c < 512 then .next (s.tickTurn c) else .next s
  | .awl d slot => if d < 8 ∧ slot < 256 then s.awlTurn d slot else .next s
  | .event i => if home i = .event ∧ !s.trapFirst i then exec i s else .next s

/-- The module is powered, or the turn is the one that brings power (R24, R374). -/
def powerOk (s : State) : Mover → Bool
  | .event .powerGood => true
  | _ => s.powered

/-- The turn to come: the agenda's, or the free choice where it is empty (log 1). -/
def State.nextTurn (s : State) : Turn × State :=
  match s.agenda with
  | t :: r => (t, { s with agenda := r })
  | [] => (Config.turn s.tick, s)

/-- A write waits at a T-die for a fourth execution (R284, R417): each held write is noted once, with its first moment. -/
def State.noteHeld (s : State) (line : Nat) : State :=
  let n := homeOf line
  let t := s.tdie n
  s.setTdie n { t with entries := t.entries.map fun e =>
    if e.holding && t.queryLine n e line && !e.waits.any (·.1 == line) then { e with waits := e.waits ++ [(line, s.now, false)] } else e }

/-- A turn that would make a write which a fourth execution holds off does not happen yet (R284). -/
def State.settle (s : State) (o : Host.Outcome State Fault Refusal) : Host.Outcome State Fault Refusal :=
  match o with
  | .next t =>
    match t.heldWrite with
    | some line => .next (s.noteHeld line)
    | none => .next t
  | o => o

/-- One step: the next turn is taken from the agenda, its time passes, and its mover moves (log 1). -/
def State.advance (s : State) : Host.Outcome State Fault Refusal :=
  let p := s.nextTurn
  if powerOk s p.1.mover then
    let t := { p.2 with tick := s.tick + 1, now := s.now + p.1.dt }
    t.settle (t.turn p.1.mover)
  else .fault .unpowered

/-! ## Placing a word (for the host's questions) -/

/-- The mover whose map decodes a word: a strand of core 0, in the order of `decodeAny`, or the Awl of K-die 0. -/
def homeOfWord (w : Nat) : IMap :=
  if (decode (.strand .v) w).instr?.isSome then .strand .v
  else if (decode (.strand .l) w).instr?.isSome then .strand .l
  else if (decode (.strand .m) w).instr?.isSome then .strand .m
  else if (decode (.strand .q) w).instr?.isSome then .strand .q
  else .awl

/-- A state with a word where the next step fetches: word 0 of core 0's instruction memory with the strand whose map holds it
running there and nothing that holds it back, or word 0 of K-die 0's Awl program with a run on slot 0; the next turn is that
mover's, with the module powered (log 9). -/
def State.placeWord (s : State) (nbits w : Nat) : State :=
  let n := ofBytes (wordBytes (w % 2 ^ nbits))
  match homeOfWord n with
  | .strand k =>
    let c := s.core 0
    let t := c.strand k
    let c1 := { c with
      imem := sput c.imem 0 (BitVec.ofNat 32 n)
      loaded := true
      frozen := none
      ovl := []
      work := if c.work.stands then .launch else c.work }
    let t1 := { t with pc := 0, running := true, readyAt := 0, block := .none }
    { s.setCore 0 (c1.setStrand k t1) with agenda := [⟨0, .strand 0 k⟩], powered := true, heldWrite := none }
  | .awl =>
    let d := s.kdie 0
    let a := d.awl
    let slot := { sget {} a.slots 0 with occ := true }
    let run : AwlRun := ⟨⟨0, 0, slot.gen, 0, 0, 0, 0, 0, none⟩, none, 0⟩
    let a1 := { a with prog := sput a.prog 0 (BitVec.ofNat 32 n), slots := sput a.slots 0 slot, runs := [run] }
    { s.setKdie 0 { d with awl := a1 } with agenda := [⟨0, .awl 0 0⟩], powered := true, heldWrite := none }

end Sys2Proof.Machine
end

