-- ==== Sys2Proof/Machine/Bar0.lean ====
section
/-! DEFINITION. What a host read of hub control space shows: every register block of BAR0 of the primary link, 64 bits at a
time (R14, R20, R25, R26, R36, R294, R302, R312, R328, R334, R339, R365 to R367, R374, R431, R443, R445). A read changes
nothing. -/

namespace Sys2Proof.Machine

/-- A bit's value in a register word. -/
def flag (b : Bool) (n : Nat) : Nat := if b then 2 ^ n else 0

/-- A fault record's four words (R366). No rule says when RETRIED is set; it is a free value (log 2). -/
def FaultRec.word (r : FaultRec) (free i : Nat) : Word :=
  match i with
  | 0 => BitVec.ofNat 64 r.time
  | 1 => BitVec.ofNat 64 (r.synd + 2 ^ 8 * r.die + 2 ^ 16 * r.ukind + 2 ^ 24 * r.cls + 2 ^ 32 * r.uidx + flag r.intr 48 +
      flag r.trap 49 + 2 ^ 50 * (free % 2))
  | 2 => r.addr
  | _ => r.info

/-- A die's fault log (R365). -/
def State.logWord (s : State) (n off : Nat) : Word :=
  let l := sget {} s.hub.logs n
  if off < 0x2000 then
    match slook l.ring (off / 32) with
    | some r => r.word (Config.freeNat (256 * n + off / 32)) (off % 32 / 8)
    | none => 0
  else
    match off with
    | 0x2000 => BitVec.ofNat 64 (l.head % 2 ^ 32)
    | 0x2008 => BitVec.ofNat 64 (l.tail % 2 ^ 32)
    | 0x2010 => BitVec.ofNat 64 (l.lost + flag (l.head - l.tail = 256) 32)
    | _ => 0

/-- The host boot block and the firmware mailbox (R25, R26). -/
def Boot.read (b : Boot) (off : Nat) : Word :=
  match off with
  | 0x800 => BitVec.ofNat 64 (flag b.go 0)
  | 0x808 => BitVec.ofNat 64 b.blen
  | 0xA00 => b.fcmd
  | 0xA08 => b.farg0
  | 0xA10 => b.farg1
  | 0xA18 => BitVec.ofNat 64 (flag b.fgo 0)
  | 0xA20 => b.fres
  | 0xA28 => BitVec.ofNat 64 b.fstat
  | _ => 0

/-- The staging window: zero outside IMG 3 and 4 (R25). -/
def Boot.window (b : Boot) (off : Nat) : Word :=
  if b.img = 3 ∨ b.img = 4 then wordOf ((List.range 8).map fun i => sget 0 b.staging (off + i)) else 0

/-- A core's boot mailbox (R36). -/
def Mailbox.read (m : Mailbox) (off : Nat) : Word :=
  match off with
  | 0 => m.image
  | 8 => m.arg
  | 0x10 => BitVec.ofNat 64 (flag m.go 0)
  | 0x18 => m.stat
  | _ => 0

/-- A T-die's status words (R294); of a die that is not there, zero. -/
def State.tdieWord (s : State) (n off : Nat) : Word :=
  let t := s.tdie n
  if ¬ (n < 16 ∨ s.hub.expanders.contains n) then 0
  else if 0x20 ≤ off ∧ off < 0x60 then
    wordOf ((List.range 8).map fun i => BitVec.ofNat 8 (sget (off - 0x20 + i) t.phys (off - 0x20 + i)))
  else
    match off with
    | 0x00 => BitVec.ofNat 64 (flag t.shape 0 + 2 ^ 8 * t.actlim)
    | 0x08 => BitVec.ofNat 64 t.ctxs.length
    | 0x10 => BitVec.ofNat 64 (t.freeH.length + 2 ^ 32 * t.freeL.length)
    | 0x18 => BitVec.ofNat 64 (t.reexec % 2 ^ 32 + 2 ^ 32 * (t.holds % 2 ^ 32))
    | _ => 0

/-- An Awl's window: two program words, AWLCTL or AWLSTAT (R302). -/
def Awl.read (a : Awl) (off : Nat) : Word :=
  if off < 0x8000 then sget (0 : W32) a.prog (off / 4 + 1) ++ sget (0 : W32) a.prog (off / 4)
  else
    match off with
    | 0x8000 => BitVec.ofNat 64 (flag a.hold 0)
    | 0x8008 => BitVec.ofNat 64 (flag (a.hold && a.runs.isEmpty) 0 + 2 ^ 4 * a.runs.length + 2 ^ 16 * a.freeBlk +
        2 ^ 32 * (a.slots.filter fun p => p.2.occ).length)
    | _ => 0

/-- The graph engine's block (R312, R431). -/
def Graph.read (g : Graph) (off : Nat) : Word :=
  if 0x800 ≤ off ∧ off < 0x1000 then sget 0 g.gp ((off - 0x800) / 8)
  else
    match off with
    | 0x00 => g.grec
    | 0x10 => BitVec.ofNat 64 (g.gen + 2 ^ 32 * g.replays.length + flag g.drop 34 + flag g.fault 35)
    | 0x18 => BitVec.ofNat 64 g.gnode
    | 0x20 => g.gfault
    | _ => 0

/-- A K-die's walker status block (R328). -/
def State.walkerWord (s : State) (d off : Nat) : Word :=
  let k := s.kdie d
  match off with
  | 0x00 => BitVec.ofNat 64 (k.recs.length + 2 ^ 8 * (k.recs.flatMap NestRec.saved).length + 2 ^ 16 * (64 - k.areas.length) +
      2 ^ 32 * k.heap.length)
  | 0x08 => BitVec.ofNat 64 (k.recv % 2 ^ 32 + 2 ^ 32 * (k.done % 2 ^ 32))
  | 0x10 => BitVec.ofNat 64 (((List.range 64).map fun i => flag (s.core (64 * d + i)).preq.isSome i).sum)
  | _ => 0

/-- The fabric block of hub die 16 (R334, R445). -/
def Hub.fabricWord (h : Hub) (off : Nat) : Word :=
  match off with
  | 0x00 => BitVec.ofNat 64 (h.module + flag h.valid 12)
  | 0x08 => h.rowmap
  | 0x10 => h.colmap
  | _ => if 0x20 ≤ off ∧ off < 0xA0 then sget 0 h.spares ((off - 0x20) / 8) else 0

/-- The host interrupt block (R367). -/
def Hub.interruptWord (h : Hub) (off : Nat) : Word :=
  match off with
  | 0x00 => h.histat.setWidth 64
  | 0x08 => h.himask.setWidth 64
  | 0x10 => BitVec.ofNat 64 (h.boot.reason + 2 ^ 8 * h.boot.tries)
  | _ => 0

/-- The fence list's entry (R374): kind, die, index, and the second of power-on. -/
def fenceWord (e : UnitId × Nat) : Word :=
  let u := unitOf e.1
  BitVec.ofNat 64 (u.2.1 + 2 ^ 8 * u.1 + 2 ^ 16 * u.2.2 + 2 ^ 32 * (e.2 % 2 ^ 32))

/-- The telemetry store's window (R374); latency histograms hold durations, which the model does not have: free (log 2). -/
def Hub.telemetryWord (h : Hub) (off : Nat) : Word :=
  if off = 0 then 0x154454C45
  else if 0x1F00 ≤ off ∧ off < 0x2B00 then BitVec.ofNat 64 (Config.freeNat off)
  else if 0x3B80 ≤ off ∧ off < 0x3D80 then
    match h.fenceList[(off - 0x3B80) / 8]? with
    | some e => fenceWord e
    | none => 0
  else BitVec.ofNat 64 (sget 0 h.tele off)

/-- A link status word at a moment (R443): REPLAYS is that of the last complete 1 ms window. -/
def Link.word (l0 : Link) (now : Nat) : Word :=
  let l := l0.roll now
  BitVec.ofNat 64 (l.width + 4 * l.rate + flag l.train 3 + 2 ^ 8 * l.fails + 2 ^ 16 * l.replays)

/-- The 64-bit word of hub control space at an aligned offset; unlisted words read as zero. -/
def State.bar0 (s : State) (off : Nat) : Word :=
  let h := s.hub
  if off % 8 ≠ 0 then 0
  else if off < 0x1000 then h.boot.read off
  else if off < 0x2000 then s.islandWord ((off - 0x1000) / 8)
  else if off < 0x10000 then 0
  else if off < 0x20000 then s.mapWord (off - 0x10000)
  else if off < 0x28000 then (s.core ((off - 0x20000) / 64)).mbox.read (off % 64)
  else if off < 0x30000 then 0
  else if off < 0x30700 then s.tdieWord (8 + (off - 0x30000) / 128) (off % 128)
  else if off < 0x40000 then 0
  else if off < 0xC0000 then (s.kdie ((off - 0x40000) / 65536)).awl.read (off % 65536)
  else if off < 0xD0000 then h.graph.read (off - 0xC0000)
  else if off < 0xD0200 then s.walkerWord ((off - 0xD0000) / 64) (off % 64)
  else if off < 0xE0000 then 0
  else if off < 0xE1000 then
    if off % 16 = 0 then sget 0 h.gdef ((off - 0xE0000) / 16) else sget 0 h.glist ((off - 0xE0000) / 16)
  else if off < 0xF0000 then 0
  else if off < 0x100000 then h.fabricWord (off - 0xF0000)
  else if off < 0x158000 then s.logWord ((off - 0x100000) / 0x4000) (off % 0x4000)
  else if off < 0x170000 then 0
  else if off < 0x180000 then h.interruptWord (off - 0x170000)
  else if off < 0x190000 then h.telemetryWord (off - 0x180000)
  else if off < 0x1A0000 then 0
  else if off < 0x1A0B00 then
    let m := (off - 0x1A0000) % 128 / 8
    if m < 12 then (sget {} h.links (12 * ((off - 0x1A0000) / 128) + m)).word s.now else 0
  else if 0x400000 ≤ off ∧ off < 0x800000 then h.boot.window (off - 0x400000)
  else 0

end Sys2Proof.Machine
end

