-- ==== Sys2Proof/Safety.lean ====
section
/-! DEFINITION. The terms that claims use: when a word may issue, and what has issued. -/

namespace Sys2Proof.Machine

/-- The word of the strand being run may issue, as far as its operands go (R31, R144 to R149, R378): its strand may look at it,
no older access of the strand will trap (R379), its format's zero fields are zero, no operand is the strand's own queue alias,
every place that it reads or writes is ready, and the checking scoreboard, if it is on, finds no conflict. -/
def State.ready (s : State) (accs : List Acc) (lat : Option Nat) : Bool :=
  let k := s.cur.strand
  let c := s.here
  !c.notYet k && !s.doomed s.cur.core k && (s.waitTrap s.cur.core k).isNone && s.cur.format.isEmpty &&
  (aliasOffences k accs).isEmpty &&
  (c.waitsOf k (s.blocked s.cur.core k) { accs := accs }).isEmpty &&
  (!c.sbcheckOn || (c.conflict k { accs := accs, lat := lat }).isNone)

/-- The state after a word has issued, given its operands, where it transfers control to, and its own effect. -/
def State.after (s : State) (h : Hdr) (accs : List Acc) (target : Option Nat) (effect : State → State) : State :=
  { effect (s.moved h accs target) with status := .issued (popsOf accs) (pushesOf accs) }

end Sys2Proof.Machine
end

