-- ==== Sys2Proof/WellFormed.lean ====
section
/-! DEFINITION. Well-formed instructions: fields that no static rule refuses, in the constructor that their word decodes to. -/

namespace Sys2Proof

/-- The constructor is the one that the decoder gives the word: the special forms of `sprd` and `spwr` stand apart. -/
def canonical : Instr → Bool
  | .sprd _ _ _ n => n.val ≠ 0x31
  | .spwr _ _ n => n.val ≠ 0x02 && n.val ≠ 0x04 && n.val ≠ 0x20 && n.val ≠ 0x30 && n.val ≠ 0x46
  | _ => true

/-- A well-formed instruction (R143, R384, R391): no offence of its fields, and canonical. -/
def wf (i : Instr) : Bool := (wordFaults i).isEmpty && canonical i

end Sys2Proof
end

