-- ==== Sys2Proof/Certificates/Slice0/Obligations.lean ====
section
/-! DEFINITION. The statements about the machine. -/

open Sys2Proof Sys2Proof.Machine

/-- R29, R141, R300, R389, R392: with a turn waiting, a step lets its time pass and runs the word or the event of the turn:
a strand's word outside a bundle, the word of an Awl run, or an event. What the step adds is `noteGiven`, which notes a word
with an effect that no discard undoes (R123), and `settle`, which keeps the next state unless a query's fourth execution holds
off a write of it (R284). At the boundary where a pre-emption is served a strand may trap and does nothing else (R317, R388).
The agenda of turns is the model's (log 1). Where a rule leaves its reading open, the clauses follow the model's own
(log 1, 60). -/
def Obligations.StepRunsTheWord : Prop :=
  ∀ (s : State) (d : Nat) (rest : List Turn), s.powered = true →
    let u : State := { s with agenda := rest, tick := s.tick + 1, now := s.now + d }
    (∀ c k, s.agenda = ⟨d, .strand c k⟩ :: rest → c < 512 →
      let pc := ((s.core c).strand k).pc
      let w := (s.core c).fetch k
      let cur : Cur := { core := c, strand := k }
      let noted := fun (o : Host.Outcome State Fault Refusal) => match o with
        | .next t => .next (t.noteGiven c k (s.core c).seq (lasting k w.toNat))
        | o => o
      (u.servesNow c = false →
        ((s.core c).bundled k = false → pc < 24576 →
          (∀ i offs, decode (.strand k) w.toNat = .word i offs →
            step s = u.settle (noted (exec i { u with cur := { cur with format := offs } }))) ∧
          (decode (.strand k) w.toNat = .reserved → step s = u.settle (noted (exec (.rsvopTrap w) { u with cur := cur })))) ∧
        (24576 ≤ pc → step s = u.settle (noted (exec .irangeTrap { u with cur := cur })))) ∧
      (u.servesNow c = true → u.wouldTrap c k = false →
        ∃ t, step s = .next t ∧ t.cores = s.cores ∧ t.mem = s.mem ∧ t.adds = s.adds) ∧
      (∀ (t : State) tok given, ∃ g, t.noteGiven c k tok given = t ∨
        t.noteGiven c k tok given = t.setCore c { t.core c with gave := g })) ∧
    (∀ e n r i offs, s.agenda = ⟨d, .awl e n⟩ :: rest → e < 8 → n < 256 → (s.kdie e).awl.runOn n = some r →
      decode .awl (sget 0 (s.kdie e).awl.prog r.pc).toNat = .word i offs →
      step s = u.settle (exec i { u with cur := { die := e, slot := n, format := offs } })) ∧
    (∀ i, s.agenda = ⟨d, .event i⟩ :: rest → home i = .event → u.trapFirst i = false → step s = u.settle (exec i u)) ∧
    (∀ t : State, (t.heldWrite = none → u.settle (.next t) = .next t) ∧
      (∀ line, t.heldWrite = some line → u.settle (.next t) = .next (u.noteHeld line))) ∧
    (s.agenda = [] → step s = step { s with agenda := [Config.turn s.tick] })

/-- R32, R380: when every participant's word is S-marked and would issue, a turn of one of them runs the words of all of them,
in the order Q, V, M, L, in one step, each behind the ordinary accesses of the participants before it (R124), but not before a
`start` of strand Q in that cycle, which makes the set larger from the cycle on (R33, R180). Where a rule leaves its reading
open, the clauses follow the model's own (log 10, 15, 83). -/
def Obligations.BundleIssuesTogether : Prop :=
  ∀ (s : State) (d c : Nat) (k : StrandId) (rest : List Turn), s.powered = true → c < 512 →
    s.agenda = ⟨d, .strand c k⟩ :: rest →
    let u : State := { s with agenda := rest, tick := s.tick + 1, now := s.now + d }
    let ps := (u.core c).participants
    k ∈ ps → u.servesNow c = false → u.startsNow c = false →
    (∀ p ∈ ps, (u.core c).bundled p = true ∧
      ∃ t pops pushes, u.tryWord c p false = .next t ∧ t.status = .issued pops pushes ∧ t.heldWrite = none) →
    step s = u.settle (u.runAll c ps ps) ∧
    (∀ (t : State) (l : List StrandId),
      t.runAll c ps [] = .next (t.setCore c (ps.foldl (fun x p => x.barrierFor ps p) (t.core c))) ∧
      t.runAll c ps (k :: l) = match (t.setCore c ((t.core c).barrierFor ps k)).tryWord c k true with
        | .next v => v.runAll c ps l
        | o => o) ∧
    (∀ (x : Core) p, ∃ b, x.barrierFor ps p = { x with barrier := b } ∧ ∀ tok ∈ sget [] b p.index,
      ∃ m ∈ x.mops, m.tok = tok ∧ m.fabric = false ∧ m.posted = false)

/-- R142: a word with H = 0 is read by the shared map in every strand, and one with H = 1 by the private map of the strand that
fetches it, whichever strand it was written for. Words that the spec writes out beside their assembly form (R142, R151, R161,
R171, R175, R180, R187, R218, R247, R251, R258, R304), one or more of every map, decode to what they stand for. -/
def Obligations.WordsDecode : Prop :=
  (∀ w : Nat, w < 2 ^ 32 →
    (w < 2 ^ 31 → ∀ k, decode (.strand k) w = decodeShared (hdrOf w) w) ∧
    (2 ^ 31 ≤ w → decode (.strand .q) w = decodeQ (hdrOf w) w ∧ decode (.strand .v) w = decodeV (hdrOf w) w ∧
      decode (.strand .m) w = decodeM (hdrOf w) w ∧ decode (.strand .l) w = decodeL (hdrOf w) w)) ∧
  decode (.strand .l) 0x81090280 = .word (.amoAdd ⟨0, 0⟩ 9 0 10 0 0) [] ∧
  (∀ k, decode (.strand k) 0x50452FFF = .word (.addi ⟨1, 2⟩ 5 5 0x7FF) [] ∧
    decode (.strand k) 0x02073FEC = .word (.bnez ⟨0, 0⟩ 7 0x1FEC) [] ∧
    decode (.strand k) 0x02A01802 = .word (.loop ⟨0, 0⟩ 3 2) [] ∧
    decode (.strand k) 0x03404242 = .word (.bar ⟨0, 0⟩ 8 9 2) []) ∧
  decode (.strand .q) 0x80260028 = .word (.start ⟨0, 0⟩ 3 40) [] ∧
  decode (.strand .q) 0x80820000 = .word (.taskpop ⟨0, 0⟩ 2 0) [] ∧
  decode (.strand .v) 0x80314088 = .word (.vfadd ⟨0, 0⟩ 0x45 1 8) [] ∧
  decode (.strand .v) 0x83C0C184 = .word (.vshli ⟨0, 0⟩ 3 3 4) [] ∧
  decode (.strand .v) 0x86610B10 = .word (.vext ⟨0, 0⟩ 4 5 17) [] ∧
  decode (.strand .m) 0x81090280 = .word (.mmaL8Tile ⟨0, 0⟩ 1 0 2 0 40) [] ∧
  decode (.strand .m) 0x813EEE00 = .word (.mmaL6Handle ⟨0, 0⟩ 3 1 5 1 14) [] ∧
  decode (.strand .m) 0x8200190E = .word (.mdrain ⟨0, 0⟩ 0 0 100 7) [] ∧
  decode (.strand .l) 0x80255328 = .word (.ld ⟨0, 0⟩ 5 10 12 2 1) [] ∧
  decode (.strand .l) 0x810552D8 = .word (.amoAdd ⟨0, 0⟩ 5 10 11 12 0) [] ∧
  decode (.strand .l) 0x840A5B1A = .word (.wcpIn ⟨0, 0⟩ 10 11 12 13) [] ∧
  decode .awl 0x18883FFF = .word (.awlAddi 2 2 0x3FFF) [] ∧
  decode .awl 0x8D840000 = .word (.awlCpick 6 1 0) [] ∧
  decode .awl 0x64483FFD = .word (.awlBne 1 2 0x3FFD) [] ∧
  decode .awl 0x70000000 = .word .awlStop []

/-- R141, R142, R150 to R161, R303, R304: decoding the word of a well-formed instruction gives it back, with every operand and
no offence: a shared instruction on every strand, a private one on its own strand, an Awl instruction on the Awl. -/
def Obligations.DecodeEncode : Prop :=
  ∀ i : Instr, wf i = true →
    encode i < 2 ^ 32 ∧
    (home i = .shared → ∀ k, decode (.strand k) (encode i) = .word i []) ∧
    (∀ k, home i = .only k → decode (.strand k) (encode i) = .word i []) ∧
    (home i = .awl → decode .awl (encode i) = .word i [])

/-- R24, R36, R39, R68, R111: the machine after module reset: no memory is listed, no core runs, the counters read 0, and the
special registers of every core hold their reset values. The values that R24 does not give are the model's (log 3 to 7). -/
def Obligations.ResetState : Prop :=
  Memory.wf State.reset.mem = true ∧ State.reset.mem = [] ∧ State.reset.powered = true ∧ State.reset.now = 0 ∧
  (∀ h, State.reset.counter h = 0) ∧ (∀ pa, State.reset.byte pa = 0) ∧
  ∀ c : Nat,
    let k := State.reset.core c
    k.work = .idle ∧ k.loaded = false ∧ k.mbox = {} ∧ k.joinmask = 0xF ∧ k.sbcheck = 0 ∧ k.spsplit = 2 ∧ k.cyc = 0 ∧
    k.tlooka = 8 ∧ k.tlookd = 4 ∧ k.mops = [] ∧ k.fixed = [] ∧ k.vars = [] ∧ k.arr = [] ∧ k.welt = [] ∧
    (∀ t, k.tile t = { state := 0, expect := 32, pres := 0 }) ∧
    ∀ j, (k.strand j).running = false ∧ (k.strand j).loops = [] ∧ (k.strand j).trap = {} ∧
      (∀ r, k.reg j r = 0) ∧ ∀ p, (k.queue j p).entries = []

/-- R99, R107: memory behaves as bytes at addresses: a write is read back and leaves every other address alone, writes of
several bytes too, and two memories in canonical form that read alike are equal. -/
def Obligations.MemoryReadsAndWrites : Prop :=
  (∀ (m : List Host.Cell) (a i : Nat) (bs : List Byte), Memory.wf m = true →
    Memory.wf (Memory.sets m a bs) = true ∧
    Memory.get (Memory.sets m a bs) i = if a ≤ i ∧ i < a + bs.length then bs.getD (i - a) 0 else Memory.get m i) ∧
  (∀ m n : List Host.Cell, Memory.wf m = true → Memory.wf n = true → (∀ i, Memory.get m i = Memory.get n i) → m = n)

/-- R99, R107, R137: every step that goes on keeps memory in its canonical form (the form is the model's, log 7). -/
def Obligations.MemoryFormKept : Prop :=
  ∀ s t : State, step s = .next t → Memory.wf s.mem = true → Memory.wf t.mem = true

/-- R385: a strand that takes a trap with EN = 1 and INH = 0 enters its handler: the trap state, the program counter, the loop
stack and the first cycle of the handler. Nothing else of the machine changes. A `swi` enters it with PAST, its code, and the
word that would have followed, which the loop stack decides (R179, R382). -/
def Obligations.TrapEntry : Prop :=
  (∀ (s : State) (c : Nat) (k : StrandId) (synd : Nat) (addr info : Word) (epc : Nat) (past : Bool) (w : W32),
    let old := (s.core c).strand k
    synd < 256 → epc < 2 ^ 15 → old.trap.en = true → old.trap.inh = false →
    let t := s.trapWith c k synd addr info none epc past w
    let new := (t.core c).strand k
    field new.trap.cause 0 8 = synd ∧ new.trap.inh = true ∧ bitOf new.trap.cause.toNat 9 = past ∧ new.trap.cause.toNat < 1024 ∧
    new.trap.epc.toNat = epc ∧ new.trap.word = w.setWidth 64 ∧ new.trap.addr = addr ∧ new.trap.info = info ∧
    new.trap.vec = old.trap.vec ∧ new.trap.scr = old.trap.scr ∧
    new.pc = field old.trap.vec 1 15 ∧ new.aside = old.loops ∧ new.loops = [] ∧ new.x = old.x ∧ new.dmsub = old.dmsub ∧
    new.running = old.running ∧ (s.core c).cycle + 2 ≤ new.readyAt ∧
    (∀ f ∈ (s.core c).fixed, f.strand = k → f.land ≤ new.readyAt) ∧
    (∀ j, j ≠ k → (t.core c).strand j = (s.core c).strand j) ∧
    t.core c = { s.core c with
      q := (t.core c).q, v := (t.core c).v, m := (t.core c).m, l := (t.core c).l, acted := true } ∧
    (∀ e, e ≠ c → t.core e = s.core e) ∧ t = { s with cores := t.cores }) ∧
  (∀ (s : State) (h : Hdr) (i : Fin 2048),
    let k := s.cur.strand
    s.ready [] none = true → s.me.trap.en = true → s.me.trap.inh = false →
    ∃ t, exec (.swi h i) s = .next t ∧
      let old := s.here.strand k
      let new := t.here.strand k
      let follow := afterWord old.pc old.loops
      new.pc = field s.me.trap.vec 1 15 ∧ new.trap.cause = BitVec.ofNat 64 (SWI + 256 + 512) ∧
      new.trap.epc = BitVec.ofNat 64 follow.1 ∧ new.trap.word = (s.here.fetch k).setWidth 64 ∧
      new.trap.addr = 0 ∧ new.trap.info = BitVec.ofNat 64 i.val ∧
      new.loops = [] ∧ new.aside = follow.2 ∧ new.x = s.me.x ∧ s.here.cycle + 2 ≤ new.readyAt)

/-- R386, R387: the return from a handler continues at `%tepc` with the loop stack that was set aside and INH clear; and a trap
of a strand that is in its handler, or has none, abandons its unit of work: STATE 5 with the syndrome for a launch.
Where a rule leaves its reading open, the clauses follow the model's own (log 56). -/
def Obligations.TrapReturnAndAbandon : Prop :=
  (∀ (c : Core) (k : StrandId),
    let old := c.strand k
    let new := (c.returnFrom k).strand k
    new.pc = field old.trap.epc 0 15 ∧ new.loops = old.aside ∧ new.aside = [] ∧ new.trap.inh = false ∧
    field new.trap.cause 0 8 = field old.trap.cause 0 8 ∧ new.trap.epc = old.trap.epc ∧ new.trap.word = old.trap.word ∧
    new.trap.addr = old.trap.addr ∧ new.trap.info = old.trap.info ∧ new.trap.vec = old.trap.vec ∧ new.x = old.x ∧
    c.cycle + 1 ≤ new.readyAt ∧ ∀ j, j ≠ k → (c.returnFrom k).strand j = c.strand j) ∧
  (∀ (s : State) (c : Nat) (k : StrandId) (synd : Nat) (addr info : Word) (epc : Nat) (past : Bool) (w : W32),
    ((s.core c).strand k).trap.en = false ∨ ((s.core c).strand k).trap.inh = true →
    let x := s.core c
    let t := s.trapWith c k synd addr info none epc past w
    let y := t.core c
    y.lost = some (x.lost.getD synd) ∧ y.work = x.work ∧ y.mbox = x.mbox ∧ y.notYet k = true ∧
    (y.strand k).pc = (x.strand k).pc ∧ (y.strand k).trap = (x.strand k).trap ∧ ∀ j, j ≠ k → y.strand j = x.strand j) ∧
  (∀ (s : State) (c synd : Nat), (s.core c).lost = some synd → (s.core c).work = .launch → (s.core c).loading = false →
    let t := s.boundary c
    (t.core c).work = .draining ∧ (t.core c).mbox = { (s.core c).mbox with state := 5, synd := synd } ∧
    ∀ j, ((t.core c).strand j).running = false)

/-- R166, R167: the words that compute xd from xa and xb: their value, and the latency class it is written in (R145). Division
never traps. -/
def Obligations.AluWords : Prop :=
  ∀ (s : State) (h : Hdr) (d a b : Fin 32),
    let ops := [wrx d 16, rdx a 11, rdx b 6]
    let x := s.rx a
    let y := s.rx b
    let fixed := fun (n : Nat) (v : Word) => Host.Outcome.next (s.after h ops none fun t => t.writeX s.tok n d v)
    let one := fun (v : Word) => Host.Outcome.next (s.after h [wrx d 16, rdx a 11] none fun t => t.writeX s.tok 1 d v)
    let long := fun (v : Word) => Host.Outcome.next (s.after h ops none fun t => t.promiseX s.tok d v)
    (s.ready ops (some 1) = true →
      exec (.add h d a b) s = fixed 1 (BitVec.ofInt 64 (x.toInt + y.toInt)) ∧
      exec (.sub h d a b) s = fixed 1 (BitVec.ofInt 64 (x.toInt - y.toInt)) ∧
      exec (.and h d a b) s = fixed 1 (x &&& y) ∧
      exec (.or h d a b) s = fixed 1 (x ||| y) ∧
      exec (.xor h d a b) s = fixed 1 (x ^^^ y) ∧
      exec (.shl h d a b) s = fixed 1 (BitVec.ofNat 64 (x.toNat * 2 ^ (y.toNat % 64))) ∧
      exec (.shr h d a b) s = fixed 1 (BitVec.ofNat 64 (x.toNat / 2 ^ (y.toNat % 64))) ∧
      exec (.sra h d a b) s = fixed 1 (BitVec.ofInt 64 (x.toInt / 2 ^ (y.toNat % 64))) ∧
      exec (.slt h d a b) s = fixed 1 (if x.toInt < y.toInt then 1 else 0) ∧
      exec (.sltu h d a b) s = fixed 1 (if x.toNat < y.toNat then 1 else 0) ∧
      exec (.min h d a b) s = fixed 1 (BitVec.ofInt 64 (min x.toInt y.toInt)) ∧
      exec (.max h d a b) s = fixed 1 (BitVec.ofInt 64 (max x.toInt y.toInt)) ∧
      exec (.minu h d a b) s = fixed 1 (BitVec.ofNat 64 (min x.toNat y.toNat)) ∧
      exec (.maxu h d a b) s = fixed 1 (BitVec.ofNat 64 (max x.toNat y.toNat))) ∧
    (s.ready ops (some 3) = true →
      exec (.mul h d a b) s = fixed 3 (BitVec.ofInt 64 (x.toInt * y.toInt)) ∧
      exec (.mulh h d a b) s = fixed 3 (BitVec.ofInt 64 (x.toInt * y.toInt / 2 ^ 64)) ∧
      exec (.mulhu h d a b) s = fixed 3 (BitVec.ofNat 64 (x.toNat * y.toNat / 2 ^ 64))) ∧
    (s.ready ops none = true →
      exec (.div h d a b) s = long (if y = 0 then -1 else BitVec.ofInt 64 (x.toInt.tdiv y.toInt)) ∧
      exec (.divu h d a b) s = long (if y = 0 then -1 else BitVec.ofNat 64 (x.toNat / y.toNat)) ∧
      exec (.rem h d a b) s =
        long (if y = 0 then x else BitVec.ofInt 64 (x.toInt - y.toInt * x.toInt.tdiv y.toInt)) ∧
      exec (.remu h d a b) s = long (if y = 0 then x else BitVec.ofNat 64 (x.toNat - y.toNat * (x.toNat / y.toNat)))) ∧
    (s.ready [wrx d 16, rdx a 11] (some 1) = true →
      exec (.clz h d a) s = one (BitVec.ofNat 64 (64 - Nat.size x.toNat)) ∧
      exec (.popc h d a) s = one (BitVec.ofNat 64 ((List.range 64).map fun j => (x.getLsbD j).toNat).sum))

/-- R168: the I-format arithmetic words, and the illegal operand use of a shift word whose imm11[10:6] is not zero. -/
def Obligations.ImmediateWords : Prop :=
  ∀ (s : State) (h : Hdr) (d a : Fin 32) (i : Fin 2048) (n : Fin 64),
    let x := s.rx a
    let ops := [wrx d 16, rdx a 11]
    let done := fun (v : Word) => Host.Outcome.next (s.after h ops none fun t => t.writeX s.tok 1 d v)
    let imm : Word := (BitVec.ofNat 11 i.val).signExtend 64
    (s.ready ops (some 1) = true →
      exec (.addi h d a i) s = done (x + imm) ∧
      exec (.andi h d a i) s = done (x &&& BitVec.ofNat 64 i.val) ∧
      exec (.ori h d a i) s = done (x ||| BitVec.ofNat 64 i.val) ∧
      exec (.xori h d a i) s = done (x ^^^ BitVec.ofNat 64 i.val) ∧
      exec (.slti h d a i) s = done (if x.toInt < imm.toInt then 1 else 0) ∧
      exec (.sltiu h d a i) s = done (if x.toNat < imm.toNat then 1 else 0) ∧
      exec (.shli h d a n) s = done (BitVec.ofNat 64 (x.toNat * 2 ^ n.val)) ∧
      exec (.shri h d a n) s = done (BitVec.ofNat 64 (x.toNat / 2 ^ n.val)) ∧
      exec (.srai h d a n) s = done (BitVec.ofInt 64 (x.toInt / 2 ^ n.val))) ∧
    (∀ (k : StrandId) (w : Nat), w < 2 ^ 31 → 8 ≤ w / 2 ^ 21 % 64 → w / 2 ^ 21 % 64 ≤ 10 → w / 2 ^ 6 % 32 ≠ 0 →
      ∃ word, decode (.strand k) w = .word word [⟨6, false, none, 2⟩]) ∧
    (s.here.notYet s.cur.strand = false → s.doomed s.cur.core s.cur.strand = false → s.waitTrap s.cur.core s.cur.strand = none →
      s.cur.format = [⟨6, false, none, 2⟩] → aliasOffences s.cur.strand ops = [] →
      ∀ word ∈ ([.shli h d a n, .shri h d a n, .srai h d a n] : List Instr),
        exec word s = .next (s.trapHere ILLOP 0 (offenceInfo ⟨6, false, none, 2⟩) none true))

/-- R169: `movi` writes its sign-extended immediate, and `movk.k` replaces halfword k of xd, which it also reads; a queue alias
is popped and the merged value pushed back (R52). -/
def Obligations.MoveWords : Prop :=
  ∀ (s : State) (h : Hdr) (d : Fin 32) (w : Fin 65536),
    let z := s.rx d
    let done := fun (ops : List Acc) (v : Word) =>
      Host.Outcome.next (s.after h ops none fun t => t.writeX s.tok 1 d v)
    (s.ready [wrx d 16] (some 1) = true →
      exec (.movi h d w) s = done [wrx d 16] ((BitVec.ofNat 16 w.val).signExtend 64)) ∧
    (s.ready [⟨.x d, true, true, 16⟩] (some 1) = true →
      let kept := fun (k : Nat) (v : Word) => ∀ j : Nat, j < 64 →
        v.getLsbD j = if 16 * k ≤ j ∧ j < 16 * k + 16 then Nat.testBit w.val (j - 16 * k) else z.getLsbD j
      (∃ v, kept 1 v ∧ exec (.movk1 h d w) s = done [⟨.x d, true, true, 16⟩] v) ∧
      (∃ v, kept 2 v ∧ exec (.movk2 h d w) s = done [⟨.x d, true, true, 16⟩] v) ∧
      (∃ v, kept 3 v ∧ exec (.movk3 h d w) s = done [⟨.x d, true, true, 16⟩] v)) ∧
    (∀ u, aliasOf d = some u → popsOf [⟨.x d, true, true, 16⟩] = [u] ∧ pushesOf [⟨.x d, true, true, 16⟩] = [u])

/-- R50, R52, R145, R166 to R169: what the integer words leave alone when they issue: memory and everything outside the core,
the other strands, and of their own strand the registers (the result lands later), the trap state and `%dmsub`. Only queues
that the word pops or pushes change, and every result on its way stays. -/
def Obligations.IntegerWordsFrame : Prop :=
  ∀ (s t : State) (h : Hdr) (d a b : Fin 32) (i : Fin 2048) (n : Fin 64) (w : Fin 65536) (pops pushes : List StrandId),
    ∀ word ∈ ([.add h d a b, .sub h d a b, .and h d a b, .or h d a b, .xor h d a b, .shl h d a b, .shr h d a b,
      .sra h d a b, .slt h d a b, .sltu h d a b, .min h d a b, .max h d a b, .minu h d a b, .maxu h d a b,
      .mul h d a b, .mulh h d a b, .mulhu h d a b, .div h d a b, .divu h d a b, .rem h d a b, .remu h d a b,
      .clz h d a, .popc h d a, .addi h d a i, .andi h d a i, .ori h d a i, .xori h d a i, .slti h d a i, .sltiu h d a i,
      .shli h d a n, .shri h d a n, .srai h d a n, .movi h d w, .movk1 h d w, .movk2 h d w, .movk3 h d w] : List Instr),
    exec word s = .next t → t.status = .issued pops pushes →
    let x := s.here
    let y := t.here
    (∀ pa, t.byte pa = s.byte pa) ∧ t.mem = s.mem ∧ t.dirty = s.dirty ∧ t.dirtyAt = s.dirtyAt ∧ t.cached = s.cached ∧ t.wbs = s.wbs ∧ t.reds = s.reds ∧
    t.poison = s.poison ∧ t.counters = s.counters ∧ t.adds = s.adds ∧ t.arrivals = s.arrivals ∧ t.cmds = s.cmds ∧
    t.kdies = s.kdies ∧ t.tdies = s.tdies ∧ t.hub = s.hub ∧ t.now = s.now ∧ t.cur = s.cur ∧
    (∀ c, c ≠ s.cur.core → t.core c = s.core c) ∧
    (∀ k, k ≠ s.cur.strand → y.strand k = x.strand k) ∧
    (y.strand s.cur.strand).x = (x.strand s.cur.strand).x ∧ (y.strand s.cur.strand).trap = (x.strand s.cur.strand).trap ∧
    (y.strand s.cur.strand).dmsub = (x.strand s.cur.strand).dmsub ∧ (y.strand s.cur.strand).running = (x.strand s.cur.strand).running ∧
    y.vec = x.vec ∧ y.acc = x.acc ∧ y.w0 = x.w0 ∧ y.w1 = x.w1 ∧ y.masks = x.masks ∧ y.tiles = x.tiles ∧ y.pad = x.pad ∧
    y.joinmask = x.joinmask ∧ y.sbcheck = x.sbcheck ∧ y.spsplit = x.spsplit ∧ y.cyc = x.cyc ∧ y.cycle = x.cycle ∧
    y.ctx = x.ctx ∧ y.lineageLo = x.lineageLo ∧ y.lineageHi = x.lineageHi ∧ y.mprog = x.mprog ∧ y.tlooka = x.tlooka ∧
    y.tlookd = x.tlookd ∧ y.tmiss = x.tmiss ∧ y.mops = x.mops ∧ y.arr = x.arr ∧ y.welt = x.welt ∧ y.imem = x.imem ∧
    y.work = x.work ∧ y.mbox = x.mbox ∧ y.sprs = x.sprs ∧ y.traps = x.traps ∧ y.deferred = x.deferred ∧
    y.lost = x.lost ∧ y.yielded = x.yielded ∧ y.seen = x.seen ∧ y.latBy = x.latBy ∧ y.barrier = x.barrier ∧
    y.replays = x.replays ∧ (∀ r ∈ x.fixed, r ∈ y.fixed) ∧ (∀ r ∈ x.vars, r ∈ y.vars) ∧
    (∀ u p, (p = s.cur.strand → u ∉ pops) → (u = s.cur.strand → p ∉ pushes) → y.queue u p = x.queue u p)

/-- R50, R51, R145, R146: the landing of a fixed-latency result. A result of a scalar register that is no alias writes that
register and nothing else; x0 takes nothing; the write leaves the list of writes on their way. -/
def Obligations.LandingFrame : Prop :=
  ∀ (s : State) (c : CoreIx) (k : StrandId) (tok r land : Nat) (bare : Bool) (v : Word) (rest : List FixedWrite),
    let x := s.core c
    x.fixed = ⟨k, tok, .x r v, land, bare⟩ :: rest → land ≤ x.cycle → aliasOf r = none →
    ∃ t, exec (.fixedLatencyWrite c) s = .next t ∧
      let y := t.core c
      y.fixed = rest ∧ y.reg k r = (if r = 0 then 0 else v) ∧
      (∀ j, j ≠ r → aliasOf j = none → y.reg k j = x.reg k j) ∧
      (∀ u j, aliasOf j ≠ none → y.reg u j = x.reg u j) ∧
      (∀ u, u ≠ k → y.strand u = x.strand u) ∧
      y.strand k = { x.strand k with x := (y.strand k).x } ∧
      y = { x with q := y.q, v := y.v, m := y.m, l := y.l, fixed := rest } ∧
      (∀ e, e ≠ c.val → t.core e = s.core e) ∧
      t = { s with cores := t.cores }

/-- R170, R149: branches and jumps. A branch is taken under its condition and continues at p + offset13; a jump continues at
p + offset21 or at the word index in xa; a link is p + 1. -/
def Obligations.TransferWords : Prop :=
  ∀ (s : State) (h : Hdr) (d a : Fin 32) (o : Fin 8192) (w : Fin 2097152),
    let p := s.me.pc
    let x := s.rx a
    let link := fun (r : Nat) (t : State) => t.writeX s.tok 1 r (BitVec.ofNat 64 (p + 1))
    (s.ready [rdx a 16] none = true →
      ∀ t : Nat, (p : Int) + (BitVec.ofNat 13 o.val).toInt = t → t ≤ 24575 →
        let on := fun (c : Prop) [Decidable c] =>
          Host.Outcome.next (s.after h [rdx a 16] (if c then some t else none) id)
        exec (.beqz h a o) s = on (x = 0) ∧ exec (.bnez h a o) s = on (x ≠ 0) ∧
        exec (.bltz h a o) s = on (x.toInt < 0) ∧ exec (.bgez h a o) s = on (0 ≤ x.toInt) ∧
        exec (.blez h a o) s = on (x.toInt ≤ 0) ∧ exec (.bgtz h a o) s = on (0 < x.toInt)) ∧
    (s.ready [] none = true →
      (∀ t : Nat, (p : Int) + (BitVec.ofNat 13 o.val).toInt = t → t ≤ 24575 →
        exec (.br h o) s = .next (s.after h [] (some t) id)) ∧
      ∀ t : Nat, (p : Int) + (BitVec.ofNat 21 w.val).toInt = t → t ≤ 24575 →
        exec (.j h w) s = .next (s.after h [] (some t) id)) ∧
    (s.ready [wrx 31 0] (some 1) = true →
      ∀ t : Nat, (p : Int) + (BitVec.ofNat 21 w.val).toInt = t → t ≤ 24575 →
        exec (.jal h w) s = .next (s.after h [wrx 31 0] (some t) (link 31))) ∧
    (s.ready [rdx a 11] none = true → x.toNat ≤ 24575 →
      exec (.jr h a) s = .next (s.after h [rdx a 11] (some x.toNat) id)) ∧
    (s.ready [wrx d 16, rdx a 11] (some 1) = true → x.toNat ≤ 24575 →
      exec (.jalr h d a) s = .next (s.after h [wrx d 16, rdx a 11] (some x.toNat) (link d)))

/-- R171: `loop` pushes the level (p + 1, p + n, count), or with a count of zero continues at p + n + 1. Whenever the end word of
the innermost level issues and does not transfer control, the count falls by one: the strand continues at the start, or the
level is popped. Its illegal operand uses: an end word beyond 24,575 (stage 1), a fifth level, and an end beyond the enclosing
level's (stage 3). -/
def Obligations.LoopWord : Prop :=
  ∀ (s : State) (h : Hdr) (a : Fin 32) (n : Fin 1024),
    let p := s.me.pc
    let count := (s.rx a).toNat
    let trap := fun (reason : Nat) (stage1 : Bool) (pops : List StrandId) => Host.Outcome.next (φ := Fault) (ρ := Refusal)
      { s.trapHere ILLOP 0 (offenceInfo ⟨0, false, none, reason⟩) none stage1 with status := .trapped stage1 pops [] }
    n.val ≠ 0 →
    (s.ready [rdx a 11] none = true → p + n.val ≤ 24575 →
      ((∀ l ∈ s.me.loops.head?, p + n.val ≤ l.stop) →
        (count ≠ 0 → s.me.loops.length < 4 →
          exec (.loop h a n) s = .next (s.after h [rdx a 11] none fun t =>
            t.setMe { t.me with loops := ⟨p + 1, p + n.val, count⟩ :: t.me.loops })) ∧
        (count = 0 → exec (.loop h a n) s = .next (s.after h [rdx a 11] (some (p + n.val + 1)) id))) ∧
      (count ≠ 0 → 4 ≤ s.me.loops.length → exec (.loop h a n) s = trap 7 false (popsOf [rdx a 11])) ∧
      (∀ l ∈ s.me.loops.head?, l.stop < p + n.val → exec (.loop h a n) s = trap 7 false (popsOf [rdx a 11]))) ∧
    (s.here.notYet s.cur.strand = false → s.doomed s.cur.core s.cur.strand = false →
      s.waitTrap s.cur.core s.cur.strand = none → s.cur.format = [] →
      aliasOf a ≠ some s.cur.strand → 24575 < p + n.val → exec (.loop h a n) s = trap 3 true []) ∧
    (∀ (l : LoopLevel) (r : List LoopLevel) (ops : List Acc), s.me.loops = l :: r → l.stop = p →
      let t := (s.moved h ops none).here.strand s.cur.strand
      (1 < l.count → t.pc = l.start ∧ t.loops = { l with count := l.count - 1 } :: r) ∧
      (l.count = 1 → t.loops = (afterWord p r).2 ∧ ((∀ m ∈ r.head?, m.stop ≠ p) → t.pc = p + 1 ∧ t.loops = r)))

/-- R66, R131, R173 to R176: counter words with a legal handle whose SCOPE is the suffix, barriers and marker fences. -/
def Obligations.CounterWords : Prop :=
  ∀ (s : State) (h : Hdr) (a b m : Fin 32) (c : Fin 8),
    let ops := [rdx a 11, rdx b 6]
    let x := s.rx a
    let v := s.rx b
    let legal := c.val < 5 ∧ hScope x = c.val ∧ handleOk x = true
    let local_ := hModule x = s.hub.module
    let post := fun (n : Nat) (bar : Option Nat) (t : State) =>
      ({ t with adds := t.adds ++ [⟨x, n, some (s.cur.core, s.cur.strand, s.tok), bar, s.now,
        .port s.cur.core⟩] } : State)
    (s.ready ops none = true → legal →
      exec (.cadd h a b c) s = .next (s.after h ops none (post v.toNat none)) ∧
      ((local_ → s.counterBad x = false) → s.foreign s.cur.core x = false →
        (v = 0 → exec (.cwait h a b c) s = .next (s.after h ops none id)) ∧
        (v ≠ 0 → local_ → exec (.cwait h a b c) s =
          .next (s.after h ops none fun t => t.hold (.counter x v s.me.pc s.me.loops))) ∧
        (v ≠ 0 → ¬local_ → ∃ registered, exec (.cwait h a b c) s =
          .next (s.after h ops none fun t => (t.hold (.remote x v registered s.me.pc s.me.loops)).drew)) ∧
        (1 ≤ c.val → 1 ≤ v.toNat → v.toNat ≤ 2 ^ 32 → exec (.bar h a b c) s =
          .next (s.after h ops none fun t => (post 1 (some v.toNat) t).hold (.barrier x v s.tok s.me.pc s.me.loops))))) ∧
    (s.ready [namedx a 16, namedx b 11] none = true → (∀ mask tok, s.me.block ≠ .fence mask tok) →
      s.here.slotOf s.cur.strand m = none → (m.val = 0 ∨ s.fenceDone s.cur.core s.cur.strand m.val s.tok = true) →
      exec (.mfence h a b m) s = .next (s.after h [namedx a 16, namedx b 11] none id))

/-- R68, R177: `sprd` writes the value of a special register to xd; a read of `%dmdq` takes the oldest demand event (R71). -/
def Obligations.SpecialRegisterReads : Prop :=
  ∀ (s : State) (h : Hdr) (d a : Fin 32) (n : Fin 2048),
    let k := s.cur.strand
    let ops := [wrx d 16, namedx a 11]
    (s.ready ops (some 2) = true → ¬reservedSpr n.val → n.val ≠ 0x31 →
      exec (.sprd h d a n) s = .next (s.after h ops none fun t => t.writeX s.tok 2 d (s.spr s.cur.core k n.val))) ∧
    (s.ready ops none = true →
      ∀ e r, sget [] s.here.demands k.index = e :: r →
        exec (.sprdDmdq h d a) s = .next (s.after h ops none fun t =>
          (t.setHere { t.here with demands := sput t.here.demands k.index r }).promiseX s.tok d e))

/-- R68 to R72, R177, R223, R386: a legal `spwr` is on its way and takes effect in the next cycle; the legal writers and values
of `%joinmask`, `%spsplit`, `%mprog`, `%dmsub` and `%tret`. -/
def Obligations.SpecialRegisterWrites : Prop :=
  ∀ (s : State) (h : Hdr) (a : Fin 32) (n : Fin 2048),
    let k := s.cur.strand
    let c := s.here
    let v := s.rx a
    let stopped := (c.strand k).trap.inh = true ∧ field (c.strand k).trap.cause 0 8 = OPND
    let sent := fun (r : Nat) (t : State) => t.setHere { t.here with sprs := t.here.sprs ++ [⟨k, r, v⟩] }
    let done := fun (r : Nat) => Host.Outcome.next (s.after h [rdx a 11] none (sent r))
    s.ready [rdx a 11] none = true →
    (¬reservedSpr n.val → c.sprOffences k n.val v = [] → n.val ≠ 0x04 → exec (.spwr h a n) s = done n.val) ∧
    (k = .q → v.toNat < 16 → exec (.spwrJoinmask h a) s = done 0x02) ∧
    (k = .q → v.toNat < 4 → c.welt = [] → (∀ p ∈ c.tiles, p.2.state = 0 ∧ p.2.pres = 0) →
      exec (.spwrSpsplit h a) s = .next (s.after h [rdx a 11] none fun t =>
        let u := sent 0x04 t
        ((u.setHere (u.here.promise k s.tok [] true)).flushL1 u.cur.core).hold (.result s.tok))) ∧
    (k = .m → stopped → v.toNat < 512 → v.toNat % 256 ≤ 128 →
      (v.toNat < 256 ∨ v = c.mprog) → exec (.spwrMprog h a) s = done 0x20) ∧
    (v.toNat < 256 → exec (.spwrDmsub h a) s = done 0x30) ∧
    (v.toNat < 2 → (v = 1 → (c.strand k).trap.inh = true) → exec (.spwrTret h a) s = done 0x46)

/-- R178, R30, R180: `halt` stops its strand; `start` starts the stopped strands that it names. -/
def Obligations.StrandWords : Prop :=
  ∀ (s : State) (h : Hdr) (set : Fin 8) (e : Fin 32768),
    let k := s.cur.strand
    s.ready [] none = true →
    (∃ t, exec (.halt h) s = .next t ∧
      (t.here.strand k).running = false ∧ (t.here.strand k).loops = [] ∧
      (t.here.strand k).x = ((s.moved h [] none).here.strand k).x ∧
      t.here.fixed = s.here.fixed ∧ t.here.welt = s.here.welt ∧ t.here.mops = s.here.mops ∧
      (∀ j, j ≠ k → t.here.strand j = s.here.strand j) ∧ t.mem = s.mem) ∧
    (k = .q → set.val ≠ 0 → e.val < 24576 →
      ∃ t, exec (.start h set e) s = .next t ∧
        ∀ j, j ≠ .q →
          let old := s.here.strand j
          let new := t.here.strand j
          if set.val.testBit (j.index - 1) ∧ old.running = false then
            new.running = true ∧ new.pc = e.val ∧ new.readyAt = s.here.cycle + 1 ∧ new.x = old.x
          else new = old)

/-- R182 to R187, R189, R323: strand Q submits a record or a task entry and gets the status; takes a task; or yields: a pre-emption request is then served
at the next bundle boundary. -/
def Obligations.WorkWords : Prop :=
  ∀ (s : State) (h : Hdr) (d a b : Fin 32),
    s.cur.strand = .q →
    let ops := [wrx d 16, rdx a 11, rdx b 6]
    let va := s.rx a
    let die := (s.rx b).toNat
    let own := dieOf s.cur.core
    let heap := UnitId.heap (Fin.ofNat 8 own)
    (s.ready ops none = true → s.storesWait = [] → die ≤ 7 →
      (va.toNat % 128 = 0 →
        let r := s.blockHere va 128 PR
        r.fault = none → nestOffences r.bytes 11 = [] →
        exec (.nest h d a b) s = .next (s.after h ops none fun t =>
          let q := (r.found t).submitNest die va (dieOf (r.found t).cur.core) r.bytes
          q.2.promiseX s.tok d (BitVec.ofNat 64 q.1))) ∧
      (va.toNat % 32 = 0 →
        let r := s.blockHere va 32 PR
        r.fault = none → taskOffences r.bytes 11 = [] →
        exec (.taskpush h d a b) s = .next (s.after h ops none fun t =>
          let q := (r.found t).submitTask die va (dieOf (r.found t).cur.core) r.bytes
          q.2.promiseX s.tok d (BitVec.ofNat 64 q.1)))) ∧
    (s.ready [wrx d 16, wrx (d.val + 1) 16, rdx a 11] none = true → d.val ≠ 0 → d.val % 2 = 0 →
      (d.val < 24 ∨ 27 < d.val) → s.here.othersRun = false → va.toNat ≤ 1 → s.isReady heap = true →
      (∀ e, (s.kdie own).choose s.free = some e →
        exec (.taskpop h d a) s = .next (s.after h [wrx d 16, wrx (d.val + 1) 16, rdx a 11] none fun t =>
          let u := (t.takeTask e).sweepHeap own
          u.setHere (u.here.promise .q s.tok
            [.x d (BitVec.ofNat 64 (e.ptr.toNat % 2 ^ 57)),
             .x (d.val + 1) (BitVec.ofNat 64 (e.key + 2 ^ 32 * e.ctx + 2 ^ 56 * e.flags))] true))) ∧
      ((s.kdie own).choose s.free = none → va = 1 →
        exec (.taskpop h d a) s = .next (s.after h [wrx d 16, wrx (d.val + 1) 16, rdx a 11] none fun t =>
          let u := t.sweepHeap own
          u.setHere (u.here.promise .q s.tok [.x d 0, .x (d.val + 1) 0] true)))) ∧
    (s.ready [] none = true →
      exec (.yield h) s = .next (s.after h [] none fun t =>
        if s.here.preq.isSome then t.setHere { t.here with yielded := true } else t))

/-- R184, R186, R324, R325: what a submission comes to. A record joins the walker's list, or ends at once where it is empty or
cancelled; 64 records are refused with status 1, and a walker that is not ready with status 2. The heap holds 16,384 entries. -/
def Obligations.SubmissionStatus : Prop :=
  ∀ (s : State) (d : Fin 8) (va : Word) (agent : Nat) (b : List Byte),
    let k := s.kdie d
    let r := nestRec b k.nextRec va agent
    let e := taskEntry b k.pops
    (s.isReady (.nest d) = false → s.submitNest d va agent b = (2, s)) ∧
    (s.isReady (.nest d) = true →
      (64 ≤ k.recs.length → s.submitNest d va agent b = (1, s)) ∧
      (k.recs.length < 64 →
        (coveredBy k.prefixes r.lin = true → s.submitNest d va agent b = (0, s.postAdd (.nest d) r.endH (2 ^ 48))) ∧
        (coveredBy k.prefixes r.lin = false →
          (r.total = 0 → s.submitNest d va agent b = (0, s.postAdd (.nest d) r.endH 1)) ∧
          (r.total ≠ 0 → s.submitNest d va agent b =
            (0, s.setKdie d { k with recs := k.recs ++ [r], nextRec := k.nextRec + 1 }))))) ∧
    (s.isReady (.heap d) = false → s.submitTask d va agent b = (2, s)) ∧
    (s.isReady (.heap d) = true →
      (coveredBy k.prefixes e.lin = true → s.submitTask d va agent b = (0, s)) ∧
      (coveredBy k.prefixes e.lin = false →
        (k.heap.length < 16384 → s.submitTask d va agent b = (0, s.setKdie d { k with heap := k.heap ++ [e] })) ∧
        (16384 ≤ k.heap.length → (s.submitTask d va agent b).1 = 1 ∧ ((s.submitTask d va agent b).2.kdie d).heap = k.heap)))

/-- R188, R192, R193, R181: the cancellation counts, graph parameters, Awl runs and overlay loads. -/
def Obligations.SystemWords : Prop :=
  ∀ (s : State) (h : Hdr) (d a b : Fin 32),
    s.cur.strand = .q →
    let x := s.rx a
    let y := s.rx b
    let c := s.here
    let die := dieOf s.cur.core
    (s.ready [wrx d 16] (some 2) = true →
      exec (.canst h d) s = .next (s.after h [wrx d 16] none fun t =>
        t.writeX s.tok 2 d (BitVec.ofNat 64 ((s.kdie die).recv + 2 ^ 32 * (s.kdie die).done)))) ∧
    (s.isReady graphUnit = true → x.toNat ≤ 255 →
      (s.ready [rdx a 11, rdx b 6] none = true →
        exec (.gpwr h a b) s = .next (s.after h [rdx a 11, rdx b 6] none fun t =>
          { t with hub := { t.hub with graph := { t.hub.graph with gp := sput t.hub.graph.gp x.toNat y } } })) ∧
      (s.ready [wrx d 16, rdx a 11] none = true →
        exec (.gprd h d a) s = .next (s.after h [wrx d 16, rdx a 11] none fun t =>
          t.promiseX s.tok d (sget 0 s.hub.graph.gp x.toNat)))) ∧
    (s.ready [rdx d 16, rdx a 11, rdx b 6] none = true → (sget [] c.awlq 0).length < 8 →
      s.optHandle d 16 = [] → field x 8 8 = 0 → field x 48 16 = 0 → y.toNat % 8 = 0 →
      s.isReady (.awl (Fin.ofNat 8 die)) = true →
      exec (.awlrun h d a b) s = .next (s.after h [rdx d 16, rdx a 11, rdx b 6] none fun t =>
        t.setHere { t.here with awlq := sput t.here.awlq 0 (sget [] c.awlq 0 ++
          [⟨s.tok, field x 0 8, field x 16 16, field x 32 16, y, s.counterReg d, c.asid, c.root, none⟩]) })) ∧
    (s.ready [wrx d 16, rdx a 11] none = true → ∀ hd, c.header = some hd →
        let r := s.readOvl hd x
        r.offs = [] → r.fault = false →
        exec (.ovl h d a) s = .next (s.after h [wrx d 16, rdx a 11] none fun t =>
          let u := r.found t
          let k := u.here
          u.setHere { k.promise .q s.tok [.x d 0] false with
            ovl := k.ovl ++ [⟨s.tok, d, r.src, r.dest, r.count, u.segs k.asid k.root r.src (4 * r.count), r.bytes, k.cycle,
              s.snapshot⟩] }))

/-- R190, R191: a save writes the sealed area of the unit of work and returns 0; a restore of an area that the die accepts
takes its contents over, and of any other returns the code. Where a rule leaves its reading open, the clauses follow
the model's own (log 22, 23). -/
def Obligations.SaveWords : Prop :=
  ∀ (s : State) (h : Hdr) (d a : Fin 32),
    s.cur.strand = .q → s.here.othersRun = false → s.saveWaits = [] →
    let va := s.rx a
    let c := s.cur.core
    va.toNat % 2 ^ 21 = 0 → s.ready [wrx d 16, rdx a 11] none = true →
    (s.checkRange s.here.asid s.here.root PRW va.toNat 0x200000 = none →
      exec (.ssave h d a) s = .next (s.after h [wrx d 16, rdx a 11] none fun t =>
        let image := t.setHere { t.here with q := { t.here.q with loops := afterTransfer (s.me.pc + 1) t.here.q.loops } }
        let u := image.saveTo c va d (s.me.pc + 1)
        (u.setHere { t.here with padPoison := u.here.padPoison, padDamaged := u.here.padDamaged }).promiseX s.tok d 0)) ∧
    ((s.readBlock 0 s.here.asid s.here.root va.toNat 0x200000 PRW).fault = none →
      let r := s.readBlock 0 s.here.asid s.here.root va.toNat 0x200000 PRW
      exec (.srest h d a) s = .next (s.after h [wrx d 16, rdx a 11] none fun t =>
        let u := r.found t
        let code := u.restCode (dieOf c) r.bytes
        if code = 0 then (u.setHere (u.here.restored r.bytes)).restoreCounters c r.bytes
        else u.promiseX s.tok d (BitVec.ofNat 64 code)))

/-- R194 to R196: dropping translations, writing lines back, and a call to the firmware; each holds the strand's next
word. Where a rule leaves its reading open, the clauses follow the model's own (log 37). -/
def Obligations.MaintenanceWords : Prop :=
  ∀ (s : State) (h : Hdr) (d a b : Fin 32),
    s.cur.strand = .q →
    let x := s.rx a
    let n := s.rx b
    let c := s.here
    let mark := s.tok * 512 + s.cur.core + 1
    let lines := fun (t : State) => if n = 0 then [] else t.linePas c.asid c.root x.toNat n.toNat
    (s.ready [rdx a 11] none = true → x.toNat < 2 ^ 57 →
      exec (.tlbinv h a) s = .next (s.after h [rdx a 11] none fun t =>
        let r := t.pageRange t.here.asid t.here.root x.toNat
        t.dropTlb t.here.asid x.toNat 1 r.1 r.2)) ∧
    (s.ready [] none = true →
      exec (.tlbinva h) s = .next (s.after h [] none fun t => t.dropTlb t.here.asid 0 (2 ^ 57) 0 (2 ^ 57))) ∧
    (s.ready [rdx a 11, rdx b 6] none = true → s.cleanWait = [] → n.toNat ≤ 2 ^ 30 →
      s.checkRange c.asid c.root PR x.toNat n.toNat = none →
      let walked := fun (t : State) => t.settleWalks c.asid c.root x.toNat n.toNat
      exec (.cwb h a b) s = .next (s.after h [rdx a 11, rdx b 6] none fun t =>
        let u := walked t
        (u.writeBackAll mark true (lines u)).hold (.writeBacks mark)) ∧
      exec (.cinv h a b) s = .next (s.after h [rdx a 11, rdx b 6] none fun t =>
        let u := walked t
        ((u.writeBackAll mark true (lines u)).dropCopies (lines u)).hold (.writeBacks mark))) ∧
    (s.ready [wrx d 16, rdx a 11, rdx b 6] none = true → x.toNat < 2 ^ 16 →
      (x.toNat = 2 → s.counterInUse n = false) →
      exec (.fwcall h d a b) s = .next (s.after h [wrx d 16, rdx a 11, rdx b 6] none fun t =>
        let r := t.firmware x.toNat n
        (r.2.promiseX s.tok d r.1).hold (.result s.tok)))

/-- R201, R202, R145: the F32 and BF16 words compute lane by lane, each lane rounded once, after 4 cycles, or 5 for the fused
multiply-adds, which read their destination. Where a rule leaves its reading open, the clauses follow the model's own
(log 54). -/
def Obligations.FloatLaneWords : Prop :=
  ∀ (s : State) (h : Hdr) (d a b : Fin 128),
    s.cur.strand = .v → vdst d.val 14 = [] → vsrc a.val 7 = [] → vsrc b.val 0 = [] →
    let x := s.here.vec.lanes a
    let y := s.here.vec.lanes b
    let z := s.here.vec.lanes d
    let word := fun (i : Instr) (n : Nat) (old : Bool) (r : List W32) =>
      s.ready [⟨.vec d, old, true, 14⟩, rdv a 7, rdv b 0] (some n) = true →
        exec i s = .next (s.after h [⟨.vec d, old, true, 14⟩, rdv a 7, rdv b 0] none fun t => t.writeV s.tok n d r)
    let each := fun (f : W32 → W32 → W32) => List.zipWith f x y
    let test := fun (f : Machine.Num → Machine.Num → Bool) => each fun p q => if f (f32 p) (f32 q) then 0xFFFFFFFF else 0
    let half := fun (f : Machine.Num → Machine.Num → Machine.Num) => each fun p q =>
      let g := fun (i : Nat) => (f (bf16 (p.toNat / 65536 ^ i % 65536)) (bf16 (q.toNat / 65536 ^ i % 65536))).toBF16
      BitVec.ofNat 32 (g 0 + 65536 * g 1)
    word (.vfadd h d a b) 4 false (each fun p q => ((f32 p).add (f32 q)).toF32) ∧
    word (.vfsub h d a b) 4 false (each fun p q => ((f32 p).add (f32 q).neg).toF32) ∧
    word (.vfmul h d a b) 4 false (each fun p q => ((f32 p).mul (f32 q)).toF32) ∧
    word (.vfma h d a b) 5 true
      (List.zipWith (fun o p => (((f32 p.1).mul (f32 p.2)).add (f32 o)).toF32) z (x.zip y)) ∧
    word (.vfmax h d a b) 4 false (each maxF) ∧
    word (.vfmin h d a b) 4 false (each minF) ∧
    word (.vfceq h d a b) 4 false (test Machine.Num.eqNum) ∧
    word (.vfclt h d a b) 4 false (test Machine.Num.ltNum) ∧
    word (.vfcle h d a b) 4 false (test fun p q => p.ltNum q || p.eqNum q) ∧
    word (.vbadd h d a b) 4 false (half Machine.Num.add) ∧
    word (.vbsub h d a b) 4 false (half fun p q => p.add q.neg) ∧
    word (.vbmul h d a b) 4 false (half Machine.Num.mul) ∧
    word (.vbfma h d a b) 5 true (List.zipWith (fun o p => bfma o p.1 p.2) z (x.zip y))

/-- R200, R208, R145: the integer lane words, after 2 cycles, 3 for a multiply and for the words that move lanes. -/
def Obligations.IntegerLaneWords : Prop :=
  ∀ (s : State) (h : Hdr) (d a b : Fin 128) (n : Fin 32),
    s.cur.strand = .v → vdst d.val 14 = [] → vsrc a.val 7 = [] → vsrc b.val 0 = [] →
    let x := s.here.vec.lanes a
    let y := s.here.vec.lanes b
    let z := s.here.vec.lanes d
    let word := fun (i : Instr) (n : Nat) (ops : List Acc) (r : List W32) =>
      s.ready ops (some n) = true → exec i s = .next (s.after h ops none fun t => t.writeV s.tok n d r)
    let three := [⟨.vec d, false, true, 14⟩, rdv a 7, rdv b 0]
    let two := [wrv d 14, rdv a 7]
    let each := fun (f : W32 → W32 → W32) => List.zipWith f x y
    let test := fun (f : W32 → W32 → Bool) => each fun p q => if f p q then 0xFFFFFFFF else 0
    word (.vadd h d a b) 2 three (each fun p q => BitVec.ofInt 32 (p.toInt + q.toInt)) ∧
    word (.vsub h d a b) 2 three (each fun p q => BitVec.ofInt 32 (p.toInt - q.toInt)) ∧
    word (.vmul h d a b) 3 three (each fun p q => BitVec.ofInt 32 (p.toInt * q.toInt)) ∧
    word (.vand h d a b) 2 three (each fun p q => p &&& q) ∧
    word (.vor h d a b) 2 three (each fun p q => p ||| q) ∧
    word (.vxor h d a b) 2 three (each fun p q => p ^^^ q) ∧
    word (.vshl h d a b) 2 three (each fun p q => p <<< (q.toNat % 32)) ∧
    word (.vshr h d a b) 2 three (each fun p q => p >>> (q.toNat % 32)) ∧
    word (.vsra h d a b) 2 three (each fun p q => p.sshiftRight (q.toNat % 32)) ∧
    word (.vmax h d a b) 2 three (each fun p q => if p.slt q then q else p) ∧
    word (.vmin h d a b) 2 three (each fun p q => if q.slt p then q else p) ∧
    word (.vceq h d a b) 2 three (test fun p q => p == q) ∧
    word (.vclt h d a b) 2 three (test fun p q => p.slt q) ∧
    word (.vsel h d a b) 2 [⟨.vec d, true, true, 14⟩, rdv a 7, rdv b 0]
      (List.zipWith (fun o p => if o ≠ 0 then p.1 else p.2) z (x.zip y)) ∧
    word (.vperm h d a b) 3 three (y.map fun q => x.getD (q.toNat % 32) 0) ∧
    word (.vshli h d a n) 2 two (x.map fun (p : W32) => p <<< n.val) ∧
    word (.vmov h d a) 2 two x ∧
    word (.vrot h d a n) 3 two ((List.range 32).map fun k => x.getD ((k + n.val) % 32) 0)

/-- R203 to R207, R145: conversions, block encodings, expansions, the four functions and the reductions. Where a rule
leaves its reading open, the clauses follow the model's own (log 54). -/
def Obligations.ConversionWords : Prop :=
  ∀ (s : State) (h : Hdr) (d a b : Fin 128),
    s.cur.strand = .v → vdst d.val 14 = [] → vsrc a.val 7 = [] → vsrc b.val 0 = [] →
    let x := s.here.vec.lanes a
    let y := s.here.vec.lanes b
    let word := fun (i : Instr) (n : Nat) (ops : List Acc) (r : List W32) =>
      s.ready ops (some n) = true → exec i s = .next (s.after h ops none fun t => t.writeV s.tok n d r)
    let three := [⟨.vec d, false, true, 14⟩, rdv a 7, rdv b 0]
    let two := [wrv d 14, rdv a 7]
    let each := fun (f : W32 → W32 → W32) => List.zipWith f x y
    word (.vcvtfb h d a b) 3 three (each fun p q => BitVec.ofNat 32 ((f32 p).toBF16 + 65536 * (f32 q).toBF16)) ∧
    word (.vcvtbf h d a b) 3 three
      (each fun p q => (bf16 (if q.toNat % 2 = 0 then p.toNat % 65536 else p.toNat / 65536 % 65536)).toF32) ∧
    word (.vcvtfi h d a b) 3 three (each fun p q => BitVec.ofInt 32 (((f32 p).scaled (laneScale q)).toInt 32)) ∧
    word (.vcvtif h d a b) 3 three (each fun p q => ((Dy.int p.toInt).num.scaled (laneScale q)).toF32) ∧
    word (.vcvtl8 h d a b) 3 three (lnsBlock 0 (x ++ y)) ∧
    word (.vcvtl6 h d a b) 3 three (lnsBlock 1 (x ++ y)) ∧
    word (.vxl8 h d a b) 3 three (lnsExpand 0 x y) ∧
    word (.vxl6 h d a b) 3 three (lnsExpand 1 x y) ∧
    word (.vexp2 h d a) 8 two (x.map exp2F) ∧
    word (.vlog2 h d a) 8 two (x.map log2F) ∧
    word (.vrcp h d a) 8 two (x.map recipF) ∧
    word (.vrsq h d a) 8 two (x.map rsqrtF) ∧
    word (.vredadd h d a) 6 two (List.replicate 32 (sumNum (x.map f32)).toF32) ∧
    word (.vredmax h d a) 6 two (List.replicate 32 (foldLanes maxF x)) ∧
    word (.vredmin h d a) 6 two (List.replicate 32 (foldLanes minF x)) ∧
    word (.vrediadd h d a) 6 two (List.replicate 32 (x.foldl (fun p q => p + q) 0))

/-- R63, R208 to R213: words between V state, scalars, tiles and accumulators. A load and a store of a tile line go on their way; a
store into a source line of an APPEND under way, which R277 forbids, traps (log 72). An accumulator move is interlocked, and only
the peeking moves do not wait for older work on the accumulator: a row in which a `.z` multiply of an earlier cycle has no
active element shows zeros from that multiply's issue on. -/
def Obligations.VectorMoveWords : Prop :=
  ∀ (s : State) (h : Hdr) (d i : Fin 128) (r n : Fin 32) (t : Fin 512) (c : Fin 4) (g : Fin 8),
    s.cur.strand = .v →
    let v := s.here.vec
    let x := (s.rx r).toNat
    let fixed := fun (n : Nat) (xs : List W32) (t : State) => t.writeV s.tok n d xs
    let held := fun (xs : List W32) (t : State) => t.setHere (t.here.promise .v s.tok [.vec d xs] true)
    let move := [wrv d 14, rdx r 2]
    (vdst d.val 14 = [] → s.ready [wrv d 14] (some 2) = true →
      exec (.vimm h d i) s =
        .next (s.after h [wrv d 14] none (fixed 2 (List.replicate 32 (BitVec.ofInt 32 (BitVec.ofNat 7 i.val).toInt))))) ∧
    (vdst d.val 14 = [] → s.ready [wrv d 14, rdx r 9] (some 2) = true →
      exec (.vbcast h d r) s =
        .next (s.after h [wrv d 14, rdx r 9] none (fixed 2 (List.replicate 32 (BitVec.ofNat 32 x))))) ∧
    (vsrc d.val 14 = [] → s.ready [wrx r 9, rdv d 14] (some 3) = true →
      exec (.vext h d r n) s = .next (s.after h [wrx r 9, rdv d 14] none fun t =>
        t.writeX s.tok 3 r (BitVec.ofNat 64 (v.lane d n).toNat))) ∧
    (vdst d.val 14 = [] → s.ready [wrv d 14] none = true → t.val < s.here.tileCount →
      exec (.vld h d t n) s = .next (s.after h [wrv d 14] none fun u =>
        (u.setHere (u.here.promise .v s.tok [.vec d []] false)).postMop (s.lineMop (.vld d) t n))) ∧
    (vsrc d.val 14 = [] → s.ready [rdv d 14] none = true → t.val < s.here.tileCount →
      s.sourceOffence s.cur.core (4096 * t.val + 128 * n.val) 128 5 = [] →
      exec (.vst h d t n) s = .next (s.after h [rdv d 14] none fun u =>
        u.postMop (s.lineMop (.vst (imageOf (v.lanes d))) t n))) ∧
    (vdst d.val 14 = [] → s.ready move none = true →
      let row := (List.range 32).map fun e => s.here.accElem c x (32 * g.val + e)
      let col := (List.range 32).map fun e => s.here.accElem c (32 * g.val + e) x
      let shown := fun i j => if s.here.zeroedRow c i = true then 0 else s.here.accElem c i j
      (g.val < 6 → x < 128 → exec (.mvaccRowPeek h d c g r) s = .next (s.after h move none
        (held ((List.range 32).map fun e => shown x (32 * g.val + e))))) ∧
      (g.val < 4 → x < 192 → exec (.mvaccColPeek h d c g r) s = .next (s.after h move none
        (held ((List.range 32).map fun e => shown (32 * g.val + e) x)))) ∧
      (s.here.accBusy c = false →
        (g.val < 6 → x < 128 → exec (.mvaccRow h d c g r) s = .next (s.after h move none (held row))) ∧
        (g.val < 4 → x < 192 → exec (.mvaccCol h d c g r) s = .next (s.after h move none (held col)))))

/-- R214, R217 to R219, R221, R222, R61: a weight load or a multiply consumes its tiles, or holds the translations of its handle,
and enters the array queue as it issues; a weight load sets the plane's issue tag, and a multiply needs it and takes its masks. -/
def Obligations.MultiplyWords : Prop :=
  ∀ (s : State) (h : Hdr) (c : Fin 4) (p z : Fin 2) (k : Fin 8) (t : Fin 512) (a : Fin 32),
    s.cur.strand = .m → s.here.arr.length < 8 →
    let core := s.here
    let tiles := fun (fmt rows : Nat) => tilesFrom t (groupTiles fmt rows)
    let full := fun (fmt rows : Nat) =>
      s.ready [] none = true ∧ t.val + groupTiles fmt rows ≤ core.tileCount ∧ core.allFull (tiles fmt rows) = true ∧
      core.firstBad (32 * t.val) (32 * groupTiles fmt rows) = none
    let o := fun (fmt rows : Nat) => s.handleOperand a fmt rows
    let served := fun (fmt rows : Nat) =>
      s.ready [rdx a 8] none = true ∧ a.val ≠ 26 ∧ (o fmt rows).checks = [] ∧ (o fmt rows).fault = none ∧
      (o fmt rows).bits = [] ∧ (o fmt rows).waits = [] ∧ (o fmt rows).accs = [rdx a 8]
    let tagged := fun (fmt : Nat) (x : Core) => x.setPlane p { x.plane p with issueTag := some fmt }
    let wldT := fun (i : Instr) (fmt : Nat) => full fmt 192 → exec i s = .next (s.after h [] none fun u =>
      u.setHere ((tagged fmt (u.here.consume (tiles fmt 192))).enqueue { tok := s.tok, op := .wld fmt p (.tile t) }))
    let wldH := fun (i : Instr) (fmt : Nat) => served fmt 192 → exec i s = .next (s.after h [rdx a 8] none fun t =>
      let u := (o fmt 192).found t
      (u.setHere ((tagged fmt (u.here.consume (o fmt 192).tiles)).enqueue
        { tok := s.tok, op := .wld fmt p (o fmt 192).src, segs := (o fmt 192).segs, geom := (o fmt 192).geom })).spend
        (o fmt 192).draws)
    let may := fun (fmt : Nat) => core.maskBusy k = false ∧ (core.plane p).issueTag = some fmt
    let mmaT := fun (i : Instr) (fmt : Nat) => full fmt 128 → may fmt → exec i s = .next (s.after h [] none fun u =>
      u.setHere ((u.here.consume (tiles fmt 128)).enqueue
        { tok := s.tok, op := .mma fmt c p (sget {} core.masks k) (z.val == 1) (.tile t) }))
    let mmaH := fun (i : Instr) (fmt : Nat) => served fmt 128 → may fmt →
      exec i s = .next (s.after h [rdx a 8] none fun t =>
        let u := (o fmt 128).found t
        (u.setHere ((u.here.consume (o fmt 128).tiles).enqueue
          { tok := s.tok, op := .mma fmt c p (sget {} core.masks k) (z.val == 1) (o fmt 128).src,
            segs := (o fmt 128).segs, geom := (o fmt 128).geom })).spend (o fmt 128).draws)
    wldT (.wldL8Tile h p t) 0 ∧ wldT (.wldL6Tile h p t) 1 ∧ wldT (.wldBf16Tile h p t) 2 ∧ wldT (.wldI8Tile h p t) 3 ∧
    wldH (.wldL8Handle h p a) 0 ∧ wldH (.wldL6Handle h p a) 1 ∧ wldH (.wldBf16Handle h p a) 2 ∧
    wldH (.wldI8Handle h p a) 3 ∧
    mmaT (.mmaL8Tile h c p k z t) 0 ∧ mmaT (.mmaL6Tile h c p k z t) 1 ∧ mmaT (.mmaBf16Tile h c p k z t) 2 ∧
    mmaT (.mmaI8Tile h c p k z t) 3 ∧
    mmaH (.mmaL8Handle h c p k z a) 0 ∧ mmaH (.mmaL6Handle h c p k z a) 1 ∧ mmaH (.mmaBf16Handle h c p k z a) 2 ∧
    mmaH (.mmaI8Handle h c p k z a) 3

/-- R214, R224, R226 to R232, R234 to R237: the other words that enter the array queue, with what they read as they issue. -/
def Obligations.ArrayQueueWords : Prop :=
  ∀ (s : State) (h : Hdr) (c : Fin 4) (k : Fin 8) (t : Fin 512) (a : Fin 32),
    s.cur.strand = .m → s.here.arr.length < 8 →
    let core := s.here
    let x := s.rx a
    let put := fun (op : ArrOp) (u : State) => u.setHere (u.here.enqueue { tok := s.tok, op := op })
    (s.ready [] none = true → exec (.mzero h c) s = .next (s.after h [] none (put (.mzero c)))) ∧
    (s.ready [rdx a 1] none = true → core.maskBusy k = false → t.val + drainTiles (dOfmt x) ≤ core.tileCount →
      t.val < core.tileCount → drainOffences core.tileCount t x 1 id = [] →
      s.drainOffence t x 6 = [] →
      (dScb x = true → core.firstBad (32 * dSbt x) 12 = none) →
      exec (.mdrain h c k t a) s =
        .next (s.after h [rdx a 1] none (put (.mdrain c t (sget {} core.masks k) x)))) ∧
    (s.ready [rdx a 11] none = true → s.storesWait = [] → x.toNat % 128 = 0 →
      (∀ rows, 1 ≤ rows → rows ≤ 128 → (s.blockHere x 16 PR).fault = none →
        num (s.blockHere x 16 PR).bytes 0 2 = rows → zeroOffences (s.blockHere x 16 PR).bytes 2 14 11 = [] →
        (s.blockHere x (16 + 24 * rows) PR).fault = none →
        exec (.mpbld h a) s = .next (s.after h [rdx a 11] none fun u =>
          put (.mpbld (s.blockHere x (16 + 24 * rows) PR).bytes) ((s.blockHere x (16 + 24 * rows) PR).found u))) ∧
      ((s.blockHere x 2048 PR).fault = none →
        exec (.lutld h a) s = .next (s.after h [rdx a 11] none fun u =>
          put (.lutld (s.blockHere x 2048 PR).bytes) ((s.blockHere x 2048 PR).found u))) ∧
      ((s.blockHere x 384 PR).fault = none →
        let b := (s.blockHere x 384 PR).bytes
        (∀ m ∈ tcbMasks b, core.maskBusy m = false) → tcbOffences core.tileCount b 11 = [] → core.tcbPlanes b = false →
        (∀ y ∈ tcbDrains b, s.drainOffence y.2.1 y.2.2 0 = []) →
        exec (.trgo h a) s = .next (s.after h [rdx a 11] none fun u =>
          put (.trgo b ((List.range 8).map fun m => sget {} core.masks m) (field core.tlooka 0 6) (field core.tlookd 0 6))
            ((s.blockHere x 384 PR).found u))))

/-- R224, R225, R244: waits on the array and the treadle, the early end of a run, and the mask words. -/
def Obligations.MaskAndWaitWords : Prop :=
  ∀ (s : State) (h : Hdr) (c : Fin 4) (k : Fin 8) (t : Fin 512) (l a b : Fin 32),
    s.cur.strand = .m →
    let core := s.here
    let x := s.rx a
    let y := s.rx b
    let mask := fun (m : MaskPair) (u : State) => u.setHere (u.here.promise .m s.tok [.mask k m] true)
    (s.ready [] none = true →
      exec (.mwait h c) s = .next (s.after h [] none fun u => u.hold (.accum c core.cycle)) ∧
      exec (.trwait h) s = .next (s.after h [] none fun u => u.hold .treadle) ∧
      ((core.run = none → exec (.trstop h) s = .next (s.after h [] none id)) ∧
        (∀ r, core.run = some r → ∃ u q, exec (.trstop h) s = .next u ∧ u.here.run = some q ∧
          q.stitches = r.shorten.stitches ∧ q.tcb = r.tcb ∧ q.g = r.g ∧ u.mem = s.mem)) ∧
      (core.maskBusy k = false →
        exec (.mkall h k) s = .next (s.after h [] none (mask ⟨BitVec.allOnes 128, BitVec.allOnes 192⟩)) ∧
        (t.val < core.tileCount → exec (.mkld h k t l) s = .next (s.after h [] none fun u =>
          (u.setHere (u.here.promise .m s.tok [.mask k {}] false)).postMop (s.lineMop (.mkld k) t l))))) ∧
    (s.ready [rdx a 11, rdx b 6] none = true → core.maskBusy k = false → x.toNat < 2 ^ 16 → y.toNat < 2 ^ 16 →
      x.toNat % 256 + x.toNat / 256 ≤ 128 → y.toNat % 256 + y.toNat / 256 ≤ 192 →
      ∃ m : MaskPair, exec (.mkrng h k a b) s = .next (s.after h [rdx a 11, rdx b 6] none (mask m)) ∧
        (∀ i < 128, m.row.getLsbD i = decide (x.toNat % 256 ≤ i ∧ i < x.toNat % 256 + x.toNat / 256)) ∧
        (∀ i < 192, m.col.getLsbD i = decide (y.toNat % 256 ≤ i ∧ i < y.toNat % 256 + y.toNat / 256)))

/-- R97, R123, R247 to R249, R251 to R253: a legal load, store, atomic or reduction joins the accesses on their way; a load in space 3
is an aligned 8-byte load, and one at a handle that is no multiple of 8 traps (R97, R248). Where a rule leaves its reading open,
the clauses follow the model's own (log 10, 11, 68, 72). -/
def Obligations.AccessWords : Prop :=
  ∀ (s : State) (h : Hdr) (d a b p : Fin 32) (n : Fin 4) (x z : Fin 2),
    s.cur.strand = .l →
    let pol := s.rx p
    let at_ := s.rx a
    let size := 2 ^ n.val
    let width := if z.val = 0 then 8 else 4
    let legal := fun (bit : Nat) (spaces ords : List Nat) (len : Nat) =>
      policyOffences pol bit = [] ∧ polSpace pol ∈ spaces ∧ polOrd pol ∈ ords ∧
      s.here.accessOffences (polSpace pol) at_ len 11 = []
    let gets := fun (m : MemOp) (t : State) => (t.setHere (t.here.promise .l s.tok [.x d 0] false)).postMop m
    (s.ready [wrx d 16, rdx a 11, rdx p 6] none = true → ¬(x.val = 1 ∧ n.val = 3) →
      legal 6 [0, 1, 2, 3, 4] [0, 1] size → (polSpace pol = 3 → n.val = 3) →
      exec (.ld h d a p n x) s = .next (s.after h [wrx d 16, rdx a 11, rdx p 6] none
        (gets (s.accessMop (.load d (decide (x.val = 1))) PR pol at_ size)))) ∧
    (s.ready [wrx d 16, rdx a 11, rdx p 6] none = true → x.val = 0 → n.val = 3 → policyOffences pol 6 = [] → polSpace pol = 3 →
      polOrd pol ≤ 1 → addressOffences 3 at_ 11 = [] → at_.toNat % 8 ≠ 0 →
      exec (.ld h d a p n x) s = .next { s.trapHere ILLOP 0 (offenceInfo ⟨11, true, none, 5⟩) none false with
        status := .trapped false (popsOf [wrx d 16, rdx a 11, rdx p 6]) (pushesOf [wrx d 16, rdx a 11, rdx p 6]) }) ∧
    (s.ready [rdx d 16, rdx a 11, rdx p 6] none = true → legal 6 [0, 1, 2, 4] [0, 2] size →
      s.storeOffence (polSpace pol) at_ size 11 = [] →
      exec (.st h d a p n) s = .next (s.after h [rdx d 16, rdx a 11, rdx p 6] none fun t =>
        t.postMop (s.accessMop (.store (bytesOf size (s.rx d).toNat)) PW pol at_ size))) ∧
    (let amo := fun (i : Instr) (op : AmoOp) =>
      let ops := [⟨.x d, decide (op = .cas), true, 16⟩, rdx a 11, rdx b 6, rdx p 1]
      s.ready ops none = true → legal 1 [0, 4] [0, 1, 2] width →
      exec i s = .next (s.after h ops none
        (gets (s.accessMop (.amo op d (s.rx b) (if op = .cas then s.rx d else 0)) PATOM pol at_ width)))
     amo (.amoAdd h d a b p z) .add ∧ amo (.amoAnd h d a b p z) .and ∧ amo (.amoOr h d a b p z) .or ∧
     amo (.amoXor h d a b p z) .xor ∧ amo (.amoMax h d a b p z) .max ∧ amo (.amoMin h d a b p z) .min ∧
     amo (.amoSwap h d a b p z) .swap ∧ amo (.amoCas h d a b p z) .cas) ∧
    (let asid := s.here.asid
     let root := s.here.root
     let red := fun (i : Instr) (op : RedOp) =>
      s.ready [rdx a 11, rdx b 6, rdx p 1] none = true → legal 1 [0, 4] [0, 1, 2] 4 →
      (polSpace pol = 0 → s.checkRange asid root PATOM at_.toNat 4 = none) →
      let leaf := s.leafOf asid root at_.toNat
      exec i s = .next (s.after h [rdx a 11, rdx b 6, rdx p 1] none fun t =>
        (if polSpace pol = 0 then t.settleWalk asid root at_.toNat else t).postMop { s.accessMop (.red op (decide (z.val = 1)) ((s.rx b).setWidth 32)) PATOM pol at_ 4 with
          home := if polSpace pol = 0 then some (s.paOf asid root at_.toNat, leafKv leaf, leafRed leaf) else none })
     red (.redAdd h a b p z) .add ∧ red (.redMax h a b p z) .max ∧ red (.redMin h a b p z) .min) ∧
    (s.ready [rdx a 11, rdx p 6] none = true → legal 6 [0] [0] size →
      ∃ t, exec (.pf h a p n) s = .next t ∧ (s.reds = [] → t.mem = s.mem) ∧ t.here.mops = s.here.mops ∧
        (t.here.strand .l).x = (s.here.strand .l).x)

/-- R111, R254, R277: tile control of strand L. A `talloc` acts as it issues; a `tseal` and a `tdrop` go on their way, and a `tseal`
that would write a source line of an APPEND has an offence (log 72). -/
def Obligations.TileWords : Prop :=
  ∀ (s : State) (h : Hdr) (t : Fin 512) (c d : Fin 32),
    s.cur.strand = .l → t.val < s.here.tileCount →
    (s.ready [] none = true →
      ((s.here.tile t).state = 0 → s.here.tileOrder = [] → exec (.talloc h t c) s = .next (s.after h [] none fun u =>
        u.setHere (u.here.setTile t { s.here.tile t with expect := c.val + 1, pres := 0 }))) ∧
      (s.sealOffence t 7 = [] → exec (.tseal h t) s = .next (s.after h [] none (·.postMop (s.tileMop (.tseal t) t)))) ∧
      exec (.tdrop h t) s = .next (s.after h [] none (·.postMop (s.tileMop (.tdrop t) t))) ∧
      (s.here.tileOrder = [] → exec (.twait h t) s = .next (s.after h [] none (·.hold (.tile t))))) ∧
    (s.ready [wrx d 16] (some 2) = true → s.here.tileOrder = [] →
      exec (.tstat h d t) s = .next (s.after h [wrx d 16] none fun u =>
        u.writeX s.tok 2 d (s.here.tile t).word))

/-- R257 to R262: a Welt command that passes its checks joins the core's Welt queue with its descriptor, its completion counter
and the translations that it holds. Where a rule leaves its reading open, the clauses follow the model's own (log 12,
43, 72, 79). -/
def Obligations.CopyWords : Prop :=
  ∀ (s : State) (h : Hdr) (a b c k : Fin 32),
    s.cur.strand = .l → s.here.welt.length < 32 →
    a.val ≠ 27 → b.val ≠ 27 → c.val ≠ 27 → k.val ≠ 27 → s.optHandle k 1 = [] →
    let core := s.here
    let x := s.rx a
    let y := s.rx b
    let d := s.rx c
    let n := cpLen d
    let ops := [rdx a 16, rdx b 11, rdx c 6, rdx k 1]
    let free := fun (g : GlobalSide) => g.checks = [] ∧ g.fault = none
    let put := fun (op : Nat) (extra : Word) (src dst : GlobalSide) (t : State) =>
      let u := (dst.found (src.found t)).spend (src.draws + dst.draws)
      u.setHere { u.here with welt := u.here.welt ++
        [{ tok := s.tok, op := op, a := x, b := y, desc := d, extra := extra, k := s.counterReg k,
           fmt := src.fmt, geom := src.geom, segs := src.segs, dsegs := dst.segs }] }
    let is := fun (i : Instr) (op : Nat) (extra : Word) (src dst : GlobalSide) (tile : List Offence) =>
      copyOffences op d = [] → tile = [] → free src → free dst → s.ready ops none = true →
        exec i s = .next (s.after h ops none (put op extra src dst))
    let gin := s.globalSide (cpPod d) x (copyNeed d PR 4 none) 0
    let gout := s.globalSide (cpPod d) x (copyNeed d PW 5 none) 0
    let gsrc := s.globalSide (cpPod d) x (bytesNeed PR 4 n) 0
    let gdst := s.globalSide (cpPod d) y (bytesNeed PW 5 n) gsrc.draws
    let gver := s.globalSide (cpPod d) x (bytesNeed PATOM 5 (128 + n)) 0
    let gmm := s.globalSide (cpPod d) x (panelNeed d PR 4 (some (followFmt y))) 0
    is (.wcpIn h a b c k) 0x20 0 gin {} ((if cpRemote d then sprOffences y (tileAlign d) 11
      else core.padOffences y (tileAlign d) (tileBytes d gin.fmt) 11) ++
      s.storeOffence (if cpRemote d then 2 else 1) y (tileBytes d gin.fmt) 11) ∧
    is (.wcpOut h a b c k) 0x21 0 { gout with segs := [] } { segs := gout.segs }
      (core.padOffences y (tileAlign d) (tileBytes d gout.fmt) 11) ∧
    is (.wcpRt h a b c k) 0x22 0 {} {} (sprOffences x 128 16 ++ core.padOffences y 128 n 11 ++ s.storeOffence 2 x n 16) ∧
    is (.wcpGg h a b c k) 0x23 0 gsrc gdst (val (meets x.toNat n y.toNat n = true) 11 12) ∧
    is (.wcpMm h a b c k) 0x25 y gmm {} (core.followOffences y ++
      s.sourceOffence s.cur.core (4096 * followTile y) (4096 * groupTiles (followFmt y) 128) 11) ∧
    (copyOffences 0x24 d = [] → c.val % 2 = 0 → c.val ≠ 26 → x.toNat % 128 = 0 → x.toNat % 4096 + 128 + n ≤ 4096 →
      core.padOffences y 128 n 11 = [] → free gver → s.ready [rdx a 16, rdx b 11, rdx c 6, rdx (c.val + 1) 6, rdx k 1] none = true →
      exec (.wcpCond h a b c k) s = .next (s.after h [rdx a 16, rdx b 11, rdx c 6, rdx (c.val + 1) 6, rdx k 1] none
        (put 0x24 (s.rx (c.val + 1)) { gver with segs := [] } { segs := gver.segs })))

/-- R263, R266 to R270, R434: a collective joins those in flight, or ends at once in a broken group; a context command that passes
its checks takes its record's sequence number and goes on its way. Where a rule leaves its reading open, the clauses
follow the model's own (log 12, 45, 46, 72, 80, 88). -/
def Obligations.CommandWords : Prop :=
  ∀ (s : State) (h : Hdr) (a b c k : Fin 32),
    s.cur.strand = .l → s.optHandle k 1 = [] →
    a.val ≠ 27 → b.val ≠ 27 → c.val ≠ 27 → k.val ≠ 27 →
    let core := s.here
    let four := [rdx a 16, rdx b 11, rdx c 6, rdx k 1]
    let three := [rdx a 16, rdx b 11, rdx k 1]
    let kh := s.counterReg k
    let side := fun (op : Nat) (xc : Word) => s.ctxSide s.cur.core core.asid core.root op (s.rx a) (s.rx b) xc
    let fine := fun (x : CtxSide) => x.checks = [] ∧ x.notReady = none ∧ x.fault = none
    let takes := fun (i : Instr) (ops : List Acc) (op : Nat) (xc : Word) =>
      s.ready ops none = true → s.takeWaits = [] → fine (side op xc) →
      exec i s = .next (s.after h ops none fun t =>
        ((side op xc).found t).ctxTake s.cur.core core.asid core.root s.tok op (s.rx a) (s.rx b) xc kh (side op xc))
    takes (.kvapp h a b c k) four 0x28 (s.rx c) ∧ takes (.kvqry h a b c k) four 0x29 (s.rx c) ∧
    takes (.kvfork h a b k) three 0x2A 0 ∧ takes (.kvcan h a b k) three 0x2B 0 ∧
    takes (.kvmig h a b k) three 0x2C 0 ∧ takes (.kvrel h a b k) three 0x2D 0 ∧
    (let g := (s.rx b).toNat
     let d := s.rx c
     let va := s.rx a
     let r := s.groupBlock g
     let n := s.hub.groupCount g
     let len := clSlices d n * clLen d
     s.ready four none = true → g < 256 →
     s.hub.groupDefined g = true → r.fault = none → s.hub.module ∈ memberList r.bytes → collOffences d n = [] →
     va.toNat % 128 = 0 → s.rangeFault false PRW va.toNat len = none → (∀ u ∈ collUnits, s.isReady u = true) →
     exec (.coll h a b c k) s = .next (s.after h four none fun t =>
       if (r.found t).hub.broken.contains g then (r.found t).sendAdd .collective kh (2 ^ 32)
       else (r.found t).beginColl
         { core := s.cur.core, tok := s.tok, group := g, desc := d, k := kh,
            segs := s.rangeSegs false PRW va.toNat len, members := memberList r.bytes, compared := false, since := s.now }))

/-- R303, R304: an Awl word acts on the registers of its run's slot, and the run goes on at the next word; a branch that is taken
goes on at its target; a stop ends the run with 1. -/
def Obligations.AwlArithmetic : Prop :=
  ∀ (s : State) (r : AwlRun) (d a b : Fin 16) (i o : Fin 16384) (w : Fin 262144) (j : Fin 67108864),
    let die := s.cur.die
    (s.kdie die).awl.runOn s.cur.slot = some r → s.cur.format = [] → r.pc + 1 < 8192 →
    let x := (s.kdie die).awl.slot r.req.slot
    let p := x.wr a
    let q := x.wr b
    let f := x.fr a
    let g := x.fr b
    let on := fun (pc : Nat) (y : AwlSlot) =>
      let aw := (s.kdie die).awl
      Host.Outcome.next (s.setAwl die (({ aw with runs := aw.runs.map fun (z : AwlRun) =>
        if z.req.slot = r.req.slot then { z with pc := pc } else z } : Awl).setSlot r.req.slot y))
    let goes := fun (y : AwlSlot) => on (r.pc + 1) y
    let imm := (BitVec.ofNat 14 i.val).toInt
    exec (.awlAdd d a b) s = goes (x.setW d (p + q)) ∧
    exec (.awlSub d a b) s = goes (x.setW d (p - q)) ∧
    exec (.awlAnd d a b) s = goes (x.setW d (p &&& q)) ∧
    exec (.awlShr d a b) s = goes (x.setW d (p >>> (q.toNat % 32))) ∧
    exec (.awlSlt d a b) s = goes (x.setW d (if p.toInt < q.toInt then 1 else 0)) ∧
    exec (.awlAddi d a i) s = goes (x.setW d (p + BitVec.ofInt 32 imm)) ∧
    exec (.awlWli d w) s = goes (x.setW d (BitVec.ofInt 32 (BitVec.ofNat 18 w.val).toInt)) ∧
    (a.val < 8 → exec (.awlFint d a) s = goes (x.setW d (BitVec.ofInt 32 (Num.toInt 32 (f32 f)))) ∧
      exec (.awlWbits d a) s = goes (x.setW d f)) ∧
    (d.val < 8 → exec (.awlFcvt d a) s = goes (x.setF d (intF p.toInt)) ∧
      exec (.awlFbits d a) s = goes (x.setF d p)) ∧
    (d.val < 8 → a.val < 8 →
      exec (.awlFrcp d a) s = goes (x.setF d (recipF f)) ∧
      exec (.awlFexp2 d a) s = goes (x.setF d (exp2F f)) ∧
      exec (.awlFlog2 d a) s = goes (x.setF d (log2F f)) ∧
      (b.val < 8 →
        exec (.awlFadd d a b) s = goes (x.setF d ((f32 f).add (f32 g)).toF32) ∧
        exec (.awlFmul d a b) s = goes (x.setF d ((f32 f).mul (f32 g)).toF32) ∧
        exec (.awlFmax d a b) s = goes (x.setF d (maxF f g)))) ∧
    (∀ t : Nat, (r.pc : Int) + (BitVec.ofNat 14 o.val).toInt = t → t < 8192 →
      let branch := fun (c : Prop) [Decidable c] => if c then on t x else goes x
      exec (.awlBeq a b o) s = branch (p = q) ∧ exec (.awlBne a b o) s = branch (p ≠ q) ∧
      exec (.awlBlt a b o) s = branch (p.toInt < q.toInt)) ∧
    (∀ t : Nat, (r.pc : Int) + (BitVec.ofNat 26 j.val).toInt = t → t < 8192 → exec (.awlJmp j) s = on t x) ∧
    exec .awlStop s = .next (s.endRun die r 1)

/-- R304 to R310: the Awl's memory words, its candidates, draws, penalties and draft trees. Where a rule leaves its
reading open, the clauses follow the model's own (log 49, 92, 93). -/
def Obligations.AwlUnits : Prop :=
  ∀ (s : State) (r : AwlRun) (d a b : Fin 16) (i : Fin 16384),
    let die := s.cur.die
    (s.kdie die).awl.runOn s.cur.slot = some r → s.cur.format = [] → r.pc + 1 < 8192 →
    let x := (s.kdie die).awl.slot r.req.slot
    let p := x.wr a
    let q := x.wr b
    let on := fun (u : State) (y : AwlSlot) =>
      let aw := (u.kdie die).awl
      Host.Outcome.next (u.setAwl die (({ aw with runs := aw.runs.map fun (z : AwlRun) =>
        if z.req.slot = r.req.slot then { z with pc := r.pc + 1 } else z } : Awl).setSlot r.req.slot y))
    let imm := (BitVec.ofNat 14 i.val).toInt
    let read := fun (v : Word) (n : Nat) => s.readBlock 0 r.req.asid r.req.root v.toNat n PR
    let writable := fun (v : Word) (n : Nat) => s.checkRange r.req.asid r.req.root PW v.toNat n = none
    let store := fun (v : Word) (bs : List Byte) => on (s.writeVa (512 + die) r.req.asid r.req.root v.toNat bs) x
    (let v := r.req.arg + p.setWidth 64 + BitVec.ofInt 64 imm
     v.toNat % 4 = 0 →
      ((read v 4).fault = none → exec (.awlLw d a i) s =
        on ((read v 4).found s) (x.setW d (BitVec.ofNat 32 (ofBytes (read v 4).bytes)))) ∧
      (writable v 4 → exec (.awlSw d a i) s = store v (bytesOf 4 (x.wr d).toNat))) ∧
    (let v := r.req.arg + p.setWidth 64
     let n := q.toNat
     p.toNat % 8 = 0 → n ≤ x.cap → (read v (8 * n)).fault = none →
      exec (.awlCld a b) s = on ((read v (8 * n)).found s) { x with
        cands := (List.range n).map fun k =>
          (BitVec.ofNat 32 (num (read v (8 * n)).bytes (8 * k) 4), BitVec.ofNat 32 (num (read v (8 * n)).bytes (8 * k + 4) 4))
        badBlocks := x.badBlocks.filter fun k => n ≤ 512 * k
        scrubbed := x.scrubbed.filter fun k => n ≤ 512 * k }) ∧
    (let v := r.req.arg + q.setWidth 64
     q.toNat % 16 = 0 → v.toNat % 16 = 0 → writable v 16 →
      exec (.awlTok a b) s = store v (tokenRecord p r.req.slot die x.gen x.draw)) ∧
    (x.badBelow x.cands.length = false →
      (1 ≤ p.toNat → p.toNat ≤ 4096 → (∀ c ∈ x.cands, (f32 c.2).isNan = false) →
        exec (.awlCtopk a) s = on s { x with cands := (sortCands x.cands).take p.toNat }) ∧
      (a.val < 8 → b.val < 8 → ∀ n, x.node (x.wr d) = some n →
        let ts := match n with
          | some k => x.pathTokens k
          | none => []
        exec (.awlCpen d a b) s = on s { x with cands := x.cands.map fun c =>
          (c.1, penalLogit c.2 (x.fr a) (x.fr b) (min 65535 (x.base c.1 + ts.count c.1))) })) ∧
    (a.val < 8 → ∀ c, x.cands[q.toNat]? = some c → x.badBlocks.contains (q.toNat / 512) = false →
      exec (.awlCget d a b) s = on s ((x.setW d c.1).setF a c.2)) ∧
    (let v := awlDraw x die r.req.slot
     d.val < 8 → a.val < 4 →
      exec (.awlRdraw d a) s = on s ({ x with g := sput x.g a v, draw := x.draw + 1 }.setF d (drawF v))) ∧
    (a.val < 8 → b.val < 4 → ∀ c l, x.cands = c :: l → x.badBelow (l.length + 1) = false →
      (∀ k ∈ c :: l, (f32 k.2).isNan = false) →
      let m := l.foldl (fun v k => maxF v k.2) c.2
      let sums := pickSums m (x.fr a) 0 (c :: l)
      let target := mulF (drawF (x.gr b)) ((sums.map Prod.snd).getLastD 0)
      let above := fun (k : Nat) => (f32 target).ltNum (f32 (sums.getD k (0, 0)).2) = true
      pickNan m (x.fr a) (c :: l) sums = false → (f32 target).isNan = false →
      ∃ n, exec (.awlCpick d a b) s = on s (x.setW d (BitVec.ofNat 32 n)) ∧
        ((∃ k < sums.length, above k) → n < sums.length ∧ above n ∧ ∀ k < n, ¬above k) ∧
        ((∀ k < sums.length, ¬above k) → (∃ k < sums.length, (sums.getD k (0, 0)).1 ≠ 0) →
          n < sums.length ∧ (sums.getD n (0, 0)).1 ≠ 0 ∧ ∀ k < sums.length, n < k → (sums.getD k (0, 0)).1 = 0)) ∧
    ((∀ n y, x.penalise p (q.toNat % 65536) = (some n, y) → exec (.awlPadd d a b) s = on s (y.setW d (BitVec.ofNat 32 n))) ∧
      (∀ y, x.penalise p (q.toNat % 65536) = (none, y) → exec (.awlPadd d a b) s = on s (y.setW d 0xFFFFFFFF))) ∧
    (∀ n, x.node q = some n → x.tree.length < 64 →
      exec (.awlDnode d a b) s =
        on s ({ x with tree := x.tree ++ [(p, n)] }.setW d (BitVec.ofNat 32 x.tree.length))) ∧
    exec (.awlDbest d a b) s = on s (x.setW d (match x.best (p.toNat + 2 ^ 32 * q.toNat) with
      | some n => BitVec.ofNat 32 n
      | none => 0xFFFFFFFF)) ∧
    ((p = 0xFFFFFFFF → exec (.awlDcommit d a) s = on s ({ x with tree := [] }.setW d 0)) ∧
      (p.toNat < x.tree.length → p ≠ 0xFFFFFFFF →
        exec (.awlDcommit d a) s = on s ({ (x.commit (x.pathTokens p.toNat)).2 with tree := [] }.setW d
          (BitVec.ofNat 32 (x.commit (x.pathTokens p.toNat)).1))))

/-- R107, R117, R120, R247: a store that is performed in space 0: the bytes at the physical addresses of its range change and
no other byte does, the counters stay, and so do the other cores. Before it, its walk and the store itself fold reduce-state
lines (R117), which changes bytes of such lines alone; the addresses are those that the store itself uses. -/
def Obligations.StoreFrame : Prop :=
  ∀ (s : State) (c : CoreIx) (k : StrandId) (m : MemOp) (bs : List Byte),
    (s.core c).nextOrdinary k = some m → m.kind = .store bs → m.space = 0 → bs.length = m.len → bs ≠ [] →
    s.mayPerform c m = true →
    let asid := (s.core c).asid
    let root := (s.core c).root
    s.mopFault c m = none → (m.segs = [] → s.walkSealed asid root m.addr.toNat = false) → Memory.wf s.mem = true →
    let gs := s.mopSegs c m
    (∀ line ∈ segLines gs, s.sealed line = false) →
    let u := (if m.segs = [] then s.settleWalks asid root m.addr.toNat m.len else s).mergeLines (segLines gs)
    let pas := (segPas gs).map Prod.fst
    ∃ t, exec (.loadRetirement c k false) s = .next t ∧
      (∀ pa, pa ∉ pas → t.byte pa = u.byte pa) ∧
      (pas.Nodup → pas.length = bs.length → pas.map t.byte = bs) ∧
      (∀ pa, slook s.reds (lineOf pa) = none → u.byte pa = s.byte pa) ∧
      (s.reds = [] → s.damaged = [] → u = s) ∧
      t.counters = s.counters ∧ t.adds = s.adds ∧ (∀ e, e ≠ c.val → t.core e = s.core e) ∧
      (∀ j, (t.core c).strand j = (s.core c).strand j) ∧ (t.core c).vec = (s.core c).vec ∧ (t.core c).acc = (s.core c).acc ∧
      (t.core c).pad = (s.core c).pad

/-- R98, R112, R119 to R126, R138, R249 to R252, R254, R402, R403, R412: the accesses of a core as they are performed. A load in space
0 returns the bytes at its address and retires; a store changes them; an atomic and a reduction act at one point. A load of a
tile answers the bytes of a present line; a store to a tile writes its bytes and sets presence; `tseal` makes a tile FULL with
zeros in its absent lines, and `tdrop` makes it EMPTY. In spaces 2 and 4 the target checks the access and performs it or answers
the fault. Where a rule leaves its reading open, the clauses follow the model's own (log 11, 52, 61). -/
def Obligations.AccessEvents : Prop :=
  ∀ (s : State) (c : CoreIx) (n : StrandId) (m : MemOp),
    let k := s.core c
    let va := m.addr.toNat
    let gs := s.mopSegs c m
    let ls := segLines gs
    let u := (if m.segs = [] then s.settleWalks k.asid k.root va m.len else s).mergeLines ls
    s.mayPerform c m = true →
    (k.nextOrdinary n = some m →
      (m.space = 0 → s.mopFault c m = none → (m.segs = [] → s.walkSealed k.asid k.root va = false) → (∀ l ∈ ls, s.sealed l = false) →
        (∀ bs, m.kind = .store bs →
          let t := (u.writeAt c gs bs).touchAll c gs (u.classFor c m)
          exec (.loadRetirement c n false) s = .next (t.setCore c ((t.core c).retire m))) ∧
        (u.dataFault (s.mopLines c m) = none →
          (∀ d sx, m.kind = .load d sx →
            exec (.loadRetirement c n false) s = .next (((ls.foldl State.renewLease u).touchAll c gs
              ((ls.foldl State.renewLease u).classFor c m)).finish c m [.x d (loadWord sx m.len (ofBytes (u.readAt gs)))])) ∧
          (∀ op d b e, m.kind = .amo op d b e →
            let r := u.atomicAt gs m.len op b.toNat e.toNat
            exec (.atomicAtHome c n) s = .next (((ls.foldl State.renewLease r.2).touchHome (u.classFor c m) gs).finish c m
              [.x d (BitVec.ofNat 64 r.1)])))) ∧
      (m.space = 1 → k.heldStore m = false →
        let line := va / 128
        let tile := k.tile (line / 32)
        let done := fun (k1 : Core) => exec (.loadRetirement c n false) s = .next (s.setCore c (k1.retire m))
        let answers := fun (r : Result) => exec (.loadRetirement c n false) s = .next (s.finish c m [r])
        (tile.present (line % 32) = true → k.padBad line = false →
          (∀ d sx, m.kind = .load d sx → answers (.x d (loadWord sx m.len (ofBytes (sgets 0 k.pad va m.len))))) ∧
          (∀ d, m.kind = .vld d → answers (.vec d (lanesOf (sgets 0 k.pad va m.len)))) ∧
          (∀ j, m.kind = .mkld j → answers (.mask j (maskBytes (sgets 0 k.pad va m.len))))) ∧
        (tile.present (line % 32) = false → ((∃ d sx, m.kind = .load d sx) ∨ (∃ d, m.kind = .vld d) ∨ ∃ j, m.kind = .mkld j) →
          exec (.loadRetirement c n false) s = .next s) ∧
        (∀ bs, m.kind = .store bs ∨ m.kind = .vst bs → ∃ k1, done k1 ∧
          (∀ i, sget 0 k1.pad i = if va ≤ i ∧ i < va + bs.length then bs.getD (i - va) 0 else sget 0 k.pad i) ∧
          k1.tile (line / 32) = tile.setPresent (line % 32) ∧ ∀ t, t ≠ line / 32 → k1.tile t = k.tile t) ∧
        (∀ t, m.kind = .tseal t → ∃ k1, done k1 ∧ (k1.tile t).state = 2 ∧
          ((k.tile t).state ≠ 2 → (k1.tile t).pres = BitVec.allOnes 32 ∧ (k1.tile t).expect = (k.tile t).expect) ∧
          (∀ i, sget 0 k1.pad i = if i / 4096 = t ∧ (k.tile t).state ≠ 2 ∧ (k.tile t).present (i / 128 % 32) = false then 0
            else sget 0 k.pad i) ∧ ∀ u, u ≠ t → k1.tile u = k.tile u) ∧
        (∀ t, m.kind = .tdrop t → ∃ k1, done k1 ∧ (k1.tile t).state = 0 ∧
          ((k.tile t).state ≠ 0 → (k1.tile t).pres = 0) ∧ k1.pad = k.pad ∧ ∀ u, u ≠ t → k1.tile u = k.tile u)) ∧
      (m.space = 3 → ∀ d sx, m.kind = .load d sx → hModule m.addr = s.hub.module → s.counterDown m.addr = false →
        (s.counterBad m.addr = false → exec (.loadRetirement c n false) s =
          .next (s.finish c m [.x d (BitVec.ofNat 64 (s.counter m.addr))])) ∧
        (s.counterBad m.addr = true → exec (.loadRetirement c n false) s =
          .next (s.faultOf c m (plainFault POISON m.addr (hModule m.addr)))))) ∧
    (∀ i op f x pa kv red, k.mops[i]? = some m → m.space = 0 → m.kind = .red op f x → m.home = some (pa, kv, red) →
      s.sealed (lineOf pa) = false →
      let u := (s.redAt pa red c op f x).touchHome (s.classFor c m) [⟨pa, 4, true⟩]
      exec (.redAtHome c i) s = .next (u.setCore c ((u.core c).retire m))) ∧
    (∀ i, k.mopOf n i = some m → m.module = s.hub.module →
      (m.space = 2 → s.dieDown (dieOf (sprCore m.addr)) = false →
        let t := s.core (sprCore m.addr)
        let o := sprOffset m.addr
        let tile := t.tile (o / 128 / 32)
        (∀ d sx, m.kind = .load d sx →
          (s.bad2 m.addr = none → tile.present (o / 128 % 32) = true → exec (.space2AccessAtTarget (.own c n i)) s =
            .next (s.finish c m [.x d (loadWord sx m.len (ofBytes (sgets 0 t.pad o m.len)))])) ∧
          (s.bad2 m.addr = none → tile.present (o / 128 % 32) = false → exec (.space2AccessAtTarget (.own c n i)) s = .next s) ∧
          (∀ f, s.bad2 m.addr = some f → f.synd = SPREF ∨ f.synd = XLATE →
            exec (.space2AccessAtTarget (.own c n i)) s = .next (s.faultOf c m f))) ∧
        (∀ bs, m.kind = .store bs → s.hub.valid = true → s.refuses2 m.addr = false → tile.state ≠ 3 →
          let u := s.setCore (sprCore m.addr) (t.storeTile o bs)
          exec (.space2AccessAtTarget (.own c n i)) s = .next (u.setCore c ((u.core c).retire m)))) ∧
      (m.space = 4 →
        let event := if m.atomic = true then exec (.podAtomicAtHome (.own c n i)) s else exec (.podAccessAtTarget (.own c n i)) s
        let asid := s.hub.exportAsid
        let root := s.hub.exportRoot
        (∀ f, s.podCheck m.addr m.accNeed.2 = .error f → m.posted = false → event = .next (s.faultOf c m f)) ∧
        (∀ a, s.podCheck m.addr m.accNeed.2 = .ok a → s.podSealed a m.len = false →
          let u := s.settleVa asid root a m.len
          (∀ bs, m.kind = .store bs →
            let v := u.writeAt 0 (homed (u.segs u.hub.exportAsid u.hub.exportRoot a bs.length)) bs
            event = .next (v.setCore c ((v.core c).retire m))) ∧
          (u.dataFault (u.linesOf asid root a m.len) = none →
            (∀ d sx, m.kind = .load d sx → event = .next (u.finish c m [.x d (loadWord sx m.len
              ((BitVec.ofNat 64 (ofBytes (u.readAt (u.segs u.hub.exportAsid u.hub.exportRoot a m.len)))).toNat % 256 ^ m.len))])) ∧
            (∀ op d b e, m.kind = .amo op d b e → m.len = 4 ∨ m.len = 8 →
              let r := u.atomicAt (u.segs u.hub.exportAsid u.hub.exportRoot a m.len) m.len op b.toNat e.toNat
              event = .next ((r.2.contend m.addr s.hub.module).finish c m
                [.x d (BitVec.ofNat 64 ((BitVec.ofNat 64 r.1).toNat % 256 ^ m.len))]))) ∧
          (∀ op g x, m.kind = .red op g x →
            let u := s.settleWalks asid root a m.len
            let red := leafRed (u.leafOf u.hub.exportAsid u.hub.exportRoot a)
            let v := u.redAt (u.paOf u.hub.exportAsid u.hub.exportRoot a) red c op g x
            let w := if red = true then v else v.contend m.addr s.hub.module
            event = .next (w.setCore c ((w.core c).retire m)))))) ∧
    (∀ i v, k.mopOf n i = some m → m.module ≠ s.hub.module → s.hub.sends m.module = true →
      (∀ t : State,
        (∀ d sx, m.kind = .load d sx → t.answer c m v = t.finish c m [.x d (loadWord sx m.len (v.toNat % 256 ^ m.len))]) ∧
        (∀ op d b e, m.kind = .amo op d b e → t.answer c m v = t.finish c m [.x d (BitVec.ofNat 64 (v.toNat % 256 ^ m.len))]) ∧
        (m.posted = true → t.answer c m v = t.setCore c ((t.core c).retire m))) ∧
      (m.space = 2 → exec (.space2AccessAtTarget (.answered c n i v)) s = .next (s.answer c m v)) ∧
      (m.space = 4 → m.atomic = true → exec (.podAtomicAtHome (.answered c n i v)) s =
        .next (if m.kind.isAmo = true then (s.answer c m v).contendFar m.addr else s.answer c m v)) ∧
      (m.space = 4 → m.atomic = false →
        exec (.podAccessAtTarget (.answered c n i v)) s = .next (s.answer c m v)) ∧
      (m.space = 3 → m.atomic = false →
        (v.toNat < k.seenOf m → exec (.podAccessAtTarget (.answered c n i v)) s = .next s) ∧
        (k.seenOf m ≤ v.toNat → exec (.podAccessAtTarget (.answered c n i v)) s = .next ((s.setCore c
          { k with seen := sput k.seen (4 * va + n.index) v.toNat }).answer c m v))) ∧
      (∀ f, m.posted = false → s.mayFail m f = true →
        (m.space = 2 → exec (.space2AccessAtTarget (.failed c n i f)) s = .next (s.faultOf c m (remoteFault m f))) ∧
        (m.space = 4 → m.atomic = true → exec (.podAtomicAtHome (.failed c n i f)) s = .next (s.faultOf c m (remoteFault m f))) ∧
        (m.space = 3 ∨ m.space = 4 → m.atomic = false →
          exec (.podAccessAtTarget (.failed c n i f)) s = .next (s.faultOf c m (remoteFault m f))))) ∧
    (∀ i f, k.mops[i]? = some m → m.posted = true → m.fabric = true → m.module = s.hub.module →
      s.ownFailure m = some (remoteFault m f) →
      let g := remoteFault m f
      let u := s.postedRecord m.space m.addr g (m.info true g)
      exec (.postedAccessFailure c i f) s = .next (u.setCore c
        ((if m.orphan then u.core c
          else (u.core c).defer m.strand (if m.space = 2 then 0 else 1) ⟨g.synd, g.addr, m.info true g⟩).retire m)))

/-- R45, R105, R111, R112, R114, R118, R120, R362, R403, R411: leases, walks, evictions in the order of their classes, write-backs
and arrivals at tiles; and the faults of lines, which leave every byte as it was: a fault that no protection word corrects is
left to the first read or scrub, which marks the line once. Where a rule leaves its reading open, the clauses follow
the model's own (log 37, 48). -/
def Obligations.LineEvents : Prop :=
  ∀ (s : State) (c : CoreIx) (line i va : Nat),
    exec (.leaseRenewal line) s = .next (s.renewLease (lineOf line)) ∧
    (let asid := (s.core c).asid
     let root := (s.core c).root
     va < 2 ^ 57 → s.walkSealed asid root va = false → exec (.tableWalkEnd c va) s = .next
      (((s.settleWalk asid root va).coalesce (dieOf c) asid root va (s.translate asid root va)).cacheWalk asid root va)) ∧
    (let held := fun (t : CacheLine) => t ∈ s.cached ∧ t.line = lineOf line ∧ s.evictable t = true
     ((∀ t, ¬held t) → exec (.lineEviction line) s = .next s) ∧
     ((∃ t, held t) → ∃ t ls u, held t ∧ lineOf line ∈ ls ∧ (∀ l ∈ ls, l / 512 = line / 512) ∧
      exec (.lineEviction line) s = .next u ∧ u.cached = (s.evict t.place ls).cached ∧ u.mem = (s.evict t.place ls).mem ∧
      u.wbs = (s.evict t.place ls).wbs)) ∧
    (∀ w, s.wbs[i]? = some w → s.inFlight i w = true → (s.hub.egress = true → w.dst < 1600) →
      let n := s.bufferRoom w.dst
      let took := ({ s with wbuf := sput s.wbuf w.dst (n + 1) } : State).drew
      let gone := { took with wbs := took.wbs.eraseIdx i }
      let out := Host.Outcome.next (φ := Fault) (ρ := Refusal)
        (if 16 ≤ n then ({ s with wbs := s.wbs.set i { w with refused := true }, wbuf := sput s.wbuf w.dst n } : State).drew
         else if 1024 ≤ w.dst then gone.land w
         else if w.home then
          { took with wbs := took.wbs.set i { w with src := w.dst, dst := llcPlace w.line, refused := false } }
         else gone.landL2 w)
      (w.refused = false → exec (.writeBackArrival i) s = out) ∧ (w.refused = true → exec (.writeBackResend i) s = out)) ∧
    (∀ a, s.arrivals[i]? = some a → a.module = s.hub.module → s.arrivesNowhere a = false → s.dieDown (dieOf a.target) = false →
      s.isReady (coreUnit a.target) = true → a.line / 32 < (s.core a.target).tileCount →
      let out := Host.Outcome.next (φ := Fault) (ρ := Refusal) (match (s.core a.target).arrive a.line a.lines with
        | some k => (s.setCore a.target k).landed i a
        | none => { s with arrivals := s.arrivals.set i { a with refused := some (a.refused.getD s.now) } })
      (a.refused = none → exec (.arrival i) s = out) ∧ (a.refused ≠ none → exec (.arrivalRetry i) s = out)) ∧
    (∀ a t w, s.arrivals[i]? = some a → a.refused = some t → s.sender a = some w → a.logged = false → t + 1000000 ≤ s.now →
      exec (.arrivalWaitRecord i) s = .next (({ s with arrivals := s.arrivals.set i { a with logged := true } } : State).coreRecord
        a.core ARRWAIT 1 false false (sprAddr a.module a.target (128 * a.line)) (if w.k = noCounter then 0 else w.k))) ∧
    (∃ t, exec (.patrolScrub (.line line)) s = .next t ∧ t.mem = s.mem ∧ lineOf line ∉ t.damaged ∧
      (lineOf line ∈ s.damaged → lineOf line ∈ t.poison) ∧
      (∀ l, l ≠ lineOf line → (l ∈ t.damaged ↔ l ∈ s.damaged) ∧ (l ∈ t.poison ↔ l ∈ s.poison))) ∧
    (∃ t, exec (.patrolScrub (.tile c line)) s = .next t ∧ t.mem = s.mem ∧ (t.core c).pad = (s.core c).pad ∧
      line ∉ (t.core c).padDamaged ∧ (line ∈ (s.core c).padDamaged → line ∈ (t.core c).padPoison)) ∧
    (∀ d : Fin 8, (∃ t, exec (.patrolScrub (.heapEntry d i)) s = .next t ∧ t.mem = s.mem ∧
      (((s.kdie d).heap[i]?).any (·.bad) = true → ∀ e ∈ (t.kdie d).heap, e.bad = false)) ∧
      (∃ t, exec (.patrolScrub (.candidate d i)) s = .next t ∧ t.mem = s.mem ∧ (t.kdie d).heap = (s.kdie d).heap)) ∧
    (∀ p ok, ∃ t, exec (.singleFault (.line line p ok)) s = .next t ∧ t.mem = s.mem ∧ t.poison = s.poison ∧
      (ok = true → t.damaged = s.damaged) ∧
      (ok = false → line < 2 ^ 47 → (homePa s.hub.expanders (lineOf line)).isSome = true →
        lineOf line ∉ s.poison → lineOf line ∈ t.damaged)) ∧
    (∀ ok, ∃ t, exec (.singleFault (.tile c line ok)) s = .next t ∧ t.mem = s.mem ∧
      (t.core c).pad = (s.core c).pad ∧ (ok = false → line < 10240 → line ∉ (s.core c).padPoison → line ∈ (t.core c).padDamaged))

/-- R35, R389, R392, R418 to R420: traps that no word of their own raises. A reserved OP and a program counter past instruction
memory trap at the word; a held engine trap is taken at the strand's next word; a deadlocked rendezvous traps one
participant. Where a rule leaves its reading open, the clauses follow the model's own (log 10, 60, 62). -/
def Obligations.TrapEvents : Prop :=
  ∀ (s : State) (c : CoreIx) (w : W32),
    let k := s.core c
    (s.here.fetch s.cur.strand = w → s.me.pc < 24576 → decode (.strand s.cur.strand) w.toNat = .reserved →
      exec (.rsvopTrap w) s = .next (s.earlyTrap RSVOP)) ∧
    (24576 ≤ s.me.pc → exec .irangeTrap s = .next (s.earlyTrap IRANGE)) ∧
    (∀ t, s.nextEngineTrap c = some t → k.frozen = none →
      exec (.engineTrap c) s = .next ((s.setCore c { k with
        traps := dropTrap t k.traps
        trapLog := if k.olderMop t.strand k.seq then k.trapLog ++ [(k.seq, t)] else k.trapLog }).trapWith c t.strand t.synd t.addr t.info
        (some t.addr) (k.strand t.strand).pc false (k.fetch t.strand))) ∧
    (k.deadlocked = true → ∀ p ps, k.participants = p :: ps →
      exec (.rendezvousDeadlock c) s = .next (s.trapWith c p RDVDL 0
        (BitVec.ofNat 64 (strandBits (p :: ps) + 16 * strandBits ((p :: ps).filter k.popsOnly) +
          256 * strandBits ((p :: ps).filter k.pushesOnly)))
        none (k.strand p).pc false (k.fetch p)))

/-- R71, R145, R199, R359: results that land, events that reach their queue, and the end of a freeze. Where a rule
leaves its reading open, the clauses follow the model's own (log 53). -/
def Obligations.ResultEvents : Prop :=
  ∀ (s : State) (c : CoreIx) (n : StrandId) (i : Nat),
    let k := s.core c
    (∀ w l, k.fixed = w :: l → w.land ≤ k.cycle →
      exec (.fixedLatencyWrite c) s = .next (s.setCore c (({ k with fixed := l }).landFixed w))) ∧
    (∀ v, k.varOf n i = some v → v.known = true →
      (v.res = [] → s.wbs.all (fun w => w.src ≠ c.val) = true) →
      (∀ w ∈ k.fixed, w.strand = n → w.tok < v.tok → k.cycle < w.land) →
      let k1 := ({ k with vars := k.vars.filter fun x => !(x.strand == n && x.tok == v.tok) } : Core).landSnaps n v.tok v.res
      exec (.variableLatencyResult c n i) s =
        .next (s.setCore c (if v.res.isEmpty then k1.landSplit n else k1.landResults n v.tok v.res))) ∧
    (let q := sget [] k.demands n.index
     ∀ e l, sget [] k.demandNet n.index = e :: l → q.length < 32 →
      exec (.demandDelivery c n) s = .next (s.setCore c { k with
        demands := sput k.demands n.index (q ++ [e]), demandNet := sput k.demandNet n.index l })) ∧
    (∀ w x, k.frozen = some (w, i, x) →
      (x < 3 → ∀ sq, (sq = true → w = .q) → exec (.coreFreezeEnd c false sq i) s =
        .next ((s.setCore c { k with frozen := none }).corrected (dieOf c) 0 (c % 64))) ∧
      (3 ≤ x → ∀ sq, (sq = true → w = .q) → exec (.coreFreezeEnd c true sq i) s =
        .next (s.fenceCore c (if sq then SEQF else RESID) (BitVec.ofNat 64 i))))

/-- R66, R67, R127, R129, R175, R406: counter adds that arrive, and remote waits; an engine's add to a poisoned counter is dropped with
a record of the engine. Where a rule leaves its reading open, the clauses follow the model's own (log 38, 89). -/
def Obligations.CounterEvents : Prop :=
  ∀ (s : State) (c : CoreIx) (n : StrandId) (i : Nat) (r : Word),
    (∀ d, s.adds[i]? = some d → s.addReady d = true → s.addNext i d = true → s.counterDown d.handle = false →
      let u := { s with adds := s.adds.eraseIdx i }
      (hModule d.handle = s.hub.module →
        (u.counterBad d.handle = false ∨ d.src ≠ none → exec (.counterAddArrival (.own i r)) s =
          .next ((u.performAdd d.handle d.value).barReturns d ((u.performAdd d.handle d.value).counter d.handle))) ∧
        (let p := d.sender.place
         u.counterBad d.handle = true → d.src = none → u.silent p.1 p.2.1 p.2.2 = false →
          exec (.counterAddArrival (.own i r)) s = .next (u.record p.1 p.1 p.2.1 p.2.2 POISON 2 true false d.handle d.handle))) ∧
      (hModule d.handle ≠ s.hub.module → s.hub.sends (hModule d.handle) = true →
        exec (.counterAddArrival (.own i r)) s = .next (u.barReturns d r.toNat))) ∧
    (∀ h, handleOk h = true → hModule h = s.hub.module → s.hub.valid = true → s.counterDown h = false →
      exec (.counterAddArrival (.incoming h r)) s = .next (s.performAdd h r.toNat)) ∧
    (let t := (s.core c).strand n
     ∀ h v pc ls, t.block = .remote h v true pc ls → s.hub.sends (hModule h) = true →
      (∀ w, v ≤ w → exec (.remoteWaitAnswer c n (.value w)) s = .next (s.setCore c ((s.core c).setStrand n
        { t with block := .none, asideBlock := t.asideBlock.answered }))) ∧
      exec (.remoteWaitAnswer c n .poisoned) s = .next (s.trapAt c n POISON h (counterInfo h) pc ls)) ∧
    (let t := (s.core c).strand n
     ∀ h v pc ls a, t.block = .remote h v false pc ls → s.hub.sends (hModule h) = true →
      exec (.remoteWaitResend c n a) s = .next (s.setCore c ((s.core c).setStrand n
        { t with block := .remote h v a pc ls, asideBlock := t.asideBlock.register a })))

/-- R60, R82 to R85, R215 to R224: the array's entries at work: weight loads and multiplies row by row, once the fetcher has read
the lines of their operands. Where a rule leaves its reading open, the clauses follow the model's own (log 40, 70). -/
def Obligations.MultiplyEvents : Prop :=
  ∀ (s : State) (c : CoreIx) (i : Nat) (e : ArrEntry) (before : List ArrEntry),
    let k := s.core c
    (k.startable i = some (e, before) →
      (∀ f p src, e.op = .wld f p src → (k.plane p).state = 0 ∨ (k.plane p).state = 2 →
        exec (.weightLoadStart c i) s = .next (s.setCore c
          ((k.setPlane p { k.plane p with state := 1, tag := f, bytes := [] }).setEntry { e with started := true }))) ∧
      (∀ f a p mk z src, e.op = .mma f a p mk z src → (k.plane p).state = 2 ∨ (k.plane p).state = 3 →
        (∀ x ∈ before, x.op.bars a = false) →
        exec (.multiplyStart c i) s = .next (s.setCore c
          ((k.setPlane p { k.plane p with state := 3 }).setEntry { e with started := true }))) ∧
      (∀ a, e.op = .mzero a → (∀ x ∈ before, x.op.targets a = false) →
        exec (.mzeroRetire c i) s = .next (s.setCore c
          ({ k with acc := k.acc.filter fun p => p.1 / 128 ≠ a }.retireEntry e))) ∧
      ((∀ x ∈ before, x.op.isDrain = false) →
        (∀ b, e.op = .mpbld b → exec (.tableInstall c i) s = .next (s.setCore c
          ({ k with mpRows := num b 0 2, mpBytes := b.drop 16 }.retireEntry e))) ∧
        (∀ b, e.op = .lutld b → exec (.tableInstall c i) s = .next (s.setCore c ({ k with lut := b }.retireEntry e))))) ∧
    (k.moving i = some (e, before) →
      (∀ f p src, e.op = .wld f p src →
        let ends := fun (u : State) (bs : List Byte) => Host.Outcome.next (φ := Fault) (ρ := Refusal)
          (u.setCore c (((((u.core c).release e.op.tiles).setPlane p { (u.core c).plane p with
            state := 2, bytes := sputs [] 0 bs }).clearProg e).retireEntry e))
        (e.wanted ≠ [] → exec (.weightLoadEnd c i) s = .next (s.fetch c e)) ∧
        (e.wanted = [] →
          (∀ t, src = .tile t →
            let u := s.readTileBytes c t (List.range (groupBytes f 192))
            exec (.weightLoadEnd c i) s = ends u ((u.core c).padRead (4096 * t) (groupBytes f 192))) ∧
          (∀ h, src = .handle h → exec (.weightLoadEnd c i) s = ends s (e.canonBytes f 192)))) ∧
      (∀ f a p mk z src, e.op = .mma f a p mk z src →
        (128 ≤ e.beat → (∀ x ∈ before, x.op.isMma = false) →
          let u := s.setCore c ((((k.release e.op.tiles).clearProg e).retireEntry e).leavePlane p)
          exec (.multiplyRetire c i) s = .next (match e.follow with
            | some h => u.sendAdd (.welt c) h 1
            | none => u)) ∧
        (e.beat < 128 → k.run = none → k.unstopped = true → (∀ x ∈ before, x.op.isMma = true → e.beat < x.beat) →
          e.wanted = [] → e.nextLines = [] →
          (let u := match src with
             | .tile t => s.readTileBytes c t (rowOffsets f 128 64 e.beat)
             | .handle _ => s
           let q := u.core c
           exec (.multiplyRowComplete c i false) s = .next (u.setCore c ((q.setAccRow a e.beat (mmaRow (q.plane p) f mk z e.beat
            (q.operandRow e src f 128 e.beat) (q.accRow a e.beat))).setEntry { e with beat := e.beat + 1, fails := 0 }))) ∧
          (e.fails < 2 → exec (.multiplyRowComplete c i true) s =
            .next ((s.setCore c (k.setEntry { e with fails := e.fails + 1 })).corrected (dieOf c) 0 (c % 64))) ∧
          (2 ≤ e.fails → k.acted = false → exec (.multiplyRowComplete c i true) s = .next (s.fenceCore c ACHK (BitVec.ofNat 64 e.beat))))))

/-- R215, R227 to R229, R421 to R423: drains, which read the accumulator row by row (with CLR a row is cleared as it is read) and
write the lines whose bytes are known, and the stop at an operand line that cannot be delivered. Where a rule leaves
its reading open, the clauses follow the model's own (log 42, 70). -/
def Obligations.DrainEvents : Prop :=
  ∀ (s : State) (c : CoreIx) (i : Nat) (e : ArrEntry) (before : List ArrEntry),
    let k := s.core c
    (∀ a t mk d, e.op = .mdrain a t mk d →
      let n := drainTiles (dOfmt d)
      (k.startable i = some (e, before) → (∀ x ∈ before, x.op.targets a = false ∧ x.op.isTable = false) →
        (∀ x ∈ tilesFrom t n, (k.tile x).state = 0) → k.sbReady d = true →
        let u := s.findSb c d
        let k1 := (List.range n).foldl (fun k j => k.expectTile t j (dOfmt d)) (u.core c)
        exec (.drainStart c i) s = .next (u.setCore c
          (k1.setEntry { e with
            started := true, sb := if dScb d then k1.readSb (dSbt d) else []
            sbBad := dScb d && (k1.firstBad (32 * dSbt d) 12).isSome }))) ∧
      (k.moving i = some (e, before) →
        (e.beat < 128 → e.linesDue (dOfmt d) = [] →
          let row := k.accRow a e.beat
          let k1 := if dClr d && mk.row.getLsbD e.beat then k.setAccRow a e.beat (clearRow mk e.beat row) else k
          exec (.drainLineWrite c i) s = .next (s.drew.setCore c
            (k1.setEntry { e with beat := e.beat + 1, image := sput e.image e.beat row }))) ∧
        (128 ≤ e.beat → e.linesDue (dOfmt d) ≠ [] →
          ∃ j, j < drainLines (dOfmt d) ∧ e.wrote.contains j = false ∧
            let line := drainLine (dOfmt d) j fun r => k.drainRow d mk e.sb r (sget [] e.image r)
            (∀ k1, k.arrive (32 * t + j) [(line, e.sbBad)] = some k1 → exec (.drainLineWrite c i) s =
              .next (s.drew.setCore c (k1.setEntry { e with wrote := e.wrote ++ [j] })))) ∧
        (128 ≤ e.beat → e.linesDue (dOfmt d) = [] →
          exec (.drainEnd c i) s = .next (s.setCore c (k.retireEntry e))))) ∧
    (k.moving i = some (e, []) → ∀ h, e.handle? = some h → (e.op.isMma = true → e.beat < 128) →
      s.handleModule h = s.hub.module → ∀ (cause : Fin 3) o, s.failedLine e h cause = some o →
      let u := s.findNext e h
      exec (.operandLineTimeout c i cause) s = .next (u.setCore c
        { ((u.core c).setEntry { e with stopped := true, noted := true, since := none }).engineTrap .m OPND (BitVec.ofNat 64 (handleBase h + o))
            (opndInfo e cause (s.handleModule h)) with
          mprog := BitVec.ofNat 64 (e.beat + 256) }))

/-- R234, R238 to R244, R424, R425: a treadle run starts, takes its beats and ends. Where a rule leaves its reading
open, the clauses follow the model's own (log 41). -/
def Obligations.TreadleEvents : Prop :=
  ∀ (s : State) (c : CoreIx) (i : Nat),
    let k := s.core c
    (∀ e tcb mk la ld, k.startable i = some (e, []) → e.op = .trgo tcb mk la ld → k.planesLoaded tcb = true →
      let r : Run := ⟨e.tok, e.entered, tcb, mk, la, ld, num tcb 0 4, 0, k.cycle, [], 0⟩
      exec (.treadleRunStart c i) s = .next ((s.setCore c { (k.setPlanes tcb 3).setEntry { e with started := true } with
        run := some r }).demandAll c
        (r.demands (-64) 0))) ∧
    (∀ r, k.run = some r → k.arrayRuns = true →
      (r.due ≤ k.cycle → r.g < r.beats →
        (k.beatWaits r r.g = none → k.beatPoison r r.g = none → exec (.treadleBeat c) s = .next (s.enterBeat c r)) ∧
        (k.beatWaits r r.g = none → ∀ line n, k.beatPoison r r.g = some (line, n) →
          let f := plainFault (if k.padDamaged.contains line then UCE else POISON) (BitVec.ofNat 64 (128 * line)) s.hub.module
          let info := memInfo 8 1 false 0 (4096 * n) f
          exec (.treadleBeat c) s = .next ((s.findLine c line info).stopRun c r POISON f.addr info)) ∧
        (∀ why tile, k.beatWaits r r.g = some (why, tile) →
          (bitOf (num r.tcb 6 1) 0 = true →
            exec (.treadleBeat c) s = .next (s.stopRun c r STRICT 0 (strictInfo r why tile))) ∧
          (bitOf (num r.tcb 6 1) 0 = false → ∃ q, exec (.treadleBeat c) s = .next (s.setCore c { (k.retryLines r).1 with
            run := some q, tmiss := BitVec.ofNat 64 (min (k.tmiss.toNat + 1) (2 ^ 32 - 1)) }) ∧
            q.due = r.due + max (num r.tcb 4 1) 1 ∧ q.g = (k.retryLines r).2.g))) ∧
      (r.beats ≤ r.g → (k.retryLines r).2.slots = [] →
        exec (.treadleRunEnd c) s = .next ((s.setCore c ((k.retryLines r).1.endRun r)).postAdd (coreUnit c) r.endH 1)))

/-- R129, R132, R133, R257 to R261: the lines of a Welt command, its ends, the conditional commit, which writes its bytes and the next
version behind the compare, and the follow-on word, which enters the array queue as its group becomes whole. Where a rule leaves
its reading open, the clauses follow the model's own (log 43). -/
def Obligations.WeltEvents : Prop :=
  ∀ (s : State) (c : CoreIx) (i j : Nat) (w : WeltCmd),
    let k := s.core c
    k.welt[i]? = some w →
    (j < w.units → w.done.contains j = false → w.sent.contains j = false →
      (slook w.held j = none → k.weltMayRead w = true → exec (.weltLine c i j) s = .next (s.loadUnit c w j)) ∧
      (w.toTiles = false → w.op ≠ 0x24 → ∀ bs p, slook w.held j = some (bs, p) →
        exec (.weltLine c i j) s = .next (s.storeUnit c w j bs p) ∧
        (let o := (w.extent j).1
         s.globalModule w w.target = s.hub.module → w.matrix = false →
          s.dieDown (homeOf (segPa w.dsegs o)) = false → s.sealed (lineOf (segPa w.dsegs o)) = false →
          s.storeUnit c w j bs p = ((s.writeLine c w.dsegs o bs p).touchWelt c w [⟨segPa w.dsegs o, bs.length, false⟩]
            (w.lineAddr j)).setWelt c { w with held := sdel w.held j, done := w.done ++ [j], since := none }))) ∧
    (w.units ≤ w.done.length →
      (w.op ≠ 0x24 → w.op ≠ 0x25 → k.weltMayRead w = true →
        exec (.weltCommandComplete c i) s = .next ((s.dropWelt c w.tok).sendAdd (.welt c) w.k 1)) ∧
      (w.op = 0x25 →
        let f := followFmt w.extra
        let t := followTile w.extra
        let p := field w.extra 18 1
        let mk := field w.extra 15 3
        let ts := tilesFrom t (groupTiles f 128)
        let enters := fun (s : State) (m : MaskPair) =>
          let u := s.dropWelt c w.tok
          u.setCore c (((u.core c).consume ts).enqueue
            { tok := w.tok, follow := some w.k,
              op := .mma f (field w.extra 19 2) p m (field w.extra 14 1 == 1) (.tile t) })
        (w.follow = none → exec (.followOnEntry c i) s = .next (s.followNow c w) ∧
          ((k.plane p).issueTag = some f → k.firstBad (32 * t) (32 * groupTiles f 128) = none → k.maskBusy mk = false →
            let m := sget {} k.masks mk
            let u := s.setWelt c { w with follow := some m }
            (k.arr.length < 8 → k.allFull ts = true → s.followNow c w = enters u m) ∧
            (8 ≤ k.arr.length ∨ k.allFull ts = false → s.followNow c w = u))) ∧
        (∀ m, w.follow = some m → k.arr.length < 8 → k.allFull ts = true → exec (.followOnEntry c i) s = .next (enters s m)))) ∧
    (w.op = 0x24 → w.units ≤ w.held.length → k.weltMayRead w = true → s.globalModule w w.a = s.hub.module →
      s.dieDown (homeOf (segPa w.dsegs 0)) = false → s.sealed (lineOf (segPa w.dsegs 0)) = false →
      exec (.conditionalCopyCommit c i) s = .next (((s.commit w).2.dropWelt c w.tok).sendAdd (.welt c) w.k (s.commit w).1) ∧
      let u := s.mergeLine (lineOf (segPa w.dsegs 0))
      let same := ofBytes ((List.range 8).map fun i => u.byte (segPa w.dsegs i)) = w.extra.toNat
      (¬same → s.commit w = (2 ^ 32, u)) ∧
      (same → (s.commit w).1 = 1 ∧
        ∀ pa kv, let n := cpLen w.desc
          w.dsegs = [⟨pa, 128 + n, kv⟩] → pa % 128 = 0 → Memory.wf s.mem = true → w.matrix = false →
          (∀ j, j < w.units → ∃ p, slook w.held j = some p ∧ p.1.length = 128) →
          let t := (s.commit w).2
          (∀ o, o < 8 → t.byte (pa + o) = (bytesOf 8 (w.extra + 1).toNat).getD o 0) ∧
          (∀ o, o < n → t.byte (pa + 128 + o) = (sget ([], false) w.held (o / 128)).1.getD (o % 128) 0) ∧
          (∀ a, ¬(pa ≤ a ∧ a < pa + 8) → ¬(pa + 128 ≤ a ∧ a < pa + 128 + n) → slook s.reds (lineOf a) = none →
            t.byte a = s.byte a)))

/-- R66, R181, R264, R434, R447: collectives, the end of an overlay load, and requests that a fabric port withdraws.
Where a rule leaves its reading open, the clauses follow the model's own (log 44, 45, 71, 88). -/
def Obligations.EngineEvents : Prop :=
  ∀ (s : State) (c : CoreIx) (i : Nat) (n : StrandId) (others : List (Nat × List Byte)),
    (∀ x, s.oldestColl i = some x →
      (x.compared = false → s.collReleased x = true →
        let broken := fun (t : State) =>
          (t.breakGroup x.group).record 16 16 19 0 COLLF 3 true false 0 (BitVec.ofNat 64 x.group)
        (s.allReached x = true → exec (.collectiveCompare i true) s =
          .next { s with colls := s.colls.set i { x with compared := true, since := s.now } }) ∧
        (1 < x.members.length →
          (s.allReached x = true ∨ x.members.any s.hub.absent = true → exec (.collectiveCompare i false) s = .next (broken s)) ∧
          (s.allReached x = false → x.members.any s.hub.absent = false → s.late x.since = true →
            exec (.collectiveCompare i false) s = .next (broken (s.collDown x))))) ∧
      (x.compared = true →
        let r := x.rank s.hub.module
        let own := x.lines (x.reads r).1 (x.reads r).2
        let u := own.foldl (fun t l => t.markDamaged l 0) (s.mergeLines (x.lines 0 (clSlices x.desc x.members.length * clLen x.desc)))
        let v : State := { u with colls := u.colls.eraseIdx i }
        (u.collPoisoned x own = false → x.supplied r others = true →
          exec (.collectiveComplete i false others) s =
            .next (((u.collResult x r others).foldl (fun t p => t.collWrite x own p.1 p.2) v).sendAdd .collective x.k 1)) ∧
        (1 < x.members.length → s.late x.since = true →
          (x.supplied r others = false → exec (.collectiveComplete i true others) s =
            .next ((v.collDown x).sendAdd .collective x.k (2 ^ 32))) ∧
          (x.supplied r others = true → exec (.collectiveComplete i true others) s =
            .next ((((u.collResult x r others).foldl (fun t p => t.collMixed x p.1 p.2) v).collDown x).sendAdd .collective x.k
              (2 ^ 32)))))) ∧
    (∀ o rest, (s.core c).ovl = o :: rest →
      let k := s.core c
      let ls := (segLines o.segs).map fun l => (o.src, l)
      (s.badLines ls = false →
        let u := s.mergeLines (segLines o.segs)
        exec (.overlayLoadEnd c) s = .next (u.setCore c { (u.core c).fulfil .q o.tok [.x o.d 0] with
          imem := putWords k.imem o.dest (u.readAt o.segs), ovl := rest }.forget)) ∧
      (s.ovlFault c o = true →
        let u := s.markAll ls (memInfo 0 0 false PX (4 * o.count))
        let v := (u.setCore c { u.core c with ovl := rest.filter fun x => x.tok < o.tok }).discard c o.mop
        exec (.overlayLoadEnd c) s = .next ((v.scrambleWords c o.dest o.count).trapWith c .q LOADF 0 0 (some 0) o.snap.strand.pc
          false (sget 0 k.imem o.snap.strand.pc)))) ∧
    (∀ m, (s.core c).mops[i]? = some m → exec (.fabricRequestWithdrawal c (.access i)) s = .next (s.withdrawAccess c m) ∧
      let info := fun defer => memInfo m.accNeed.1 m.space defer 0 m.len (plainFault LDOWN m.addr m.module)
      (2 ≤ m.space →
        ((m.module ≠ s.hub.module ∧ (m.space = 3 ∨ s.hub.absent m.module = false)) ∨
          (m.space = 2 ∧ m.module = s.hub.module ∧ s.dieDown (dieOf (sprCore m.addr)) = true) ∨
          (m.space = 3 ∧ s.counterDown m.addr = true)) →
        s.late m.sent = true → s.mayPerform c m = true →
        (m.posted = true → m.orphan = false → s.withdrawAccess c m = (s.act1 c m ((s.core c).defer m.strand 1 ⟨LDOWN, m.addr, info true⟩)).ldown
          c m.module false m.addr (info true)) ∧
        (m.posted = false → (s.core c).retires m = true → s.withdrawAccess c m =
          (s.ldown c m.module true m.addr (info false)).faultAt c m LDOWN m.addr (info false) none))) ∧
    exec (.fabricRequestWithdrawal c (.wait n)) s = .next (s.withdrawWait c n) ∧
    (∀ a, s.adds[i]? = some a → exec (.fabricRequestWithdrawal c (.add i)) s = .next (s.withdrawAdd i a)) ∧
    (∀ a, s.arrivals[i]? = some a → exec (.fabricRequestWithdrawal c (.line i)) s = .next (s.withdrawLine c i a))

/-- R268 to R273, R281, R286 to R292: what happens to a context command: it reaches the T-dies of its set, executes there in the
order of its context's sequence values, and completes once. Where a rule leaves its reading open, the clauses follow
the model's own (log 46, 47, 72, 90). -/
def Obligations.ContextEvents : Prop :=
  ∀ (s : State) (n : Fin 22) (i : Nat) (k : CtxCmd),
    let t := s.tdie n
    (∀ m, s.ctxMsgs[i]? = some m → s.cmdOf m.cmd = some k →
      (8 ≤ m.die → k.op ≠ 0x2B → (18 ≤ m.die → s.hub.egress = false ∧ s.linkOpen m.die 0 = true) → ∀ k1 u, s.loadSource k = some (k1, u) →
        (m.refused = false → s.inOrder i m k.core = true →
          exec (.contextEntryArrival i) s = .next ((u.setCmd k1).enterEntry i m.die k1)) ∧
        (m.refused = true → exec (.contextEntryResend i) s = .next ((u.setCmd k1).enterEntry i m.die k1))) ∧
      (m.die = n.val → 8 ≤ n.val → k.op = 0x2B → (18 ≤ n.val → s.hub.egress = false ∧ s.linkOpen n 0 = true) → s.inOrder i m k.core = true →
        let u : State := { s with ctxMsgs := s.ctxMsgs.eraseIdx i }
        (s.isReady (ccuUnit n) = true → exec (.cancelArrivalTdie n i) s =
          .next ((((u.cancelAt n (cbLin k.block)).cancelNote n k).admitHeld n).partDone k.id n 1)) ∧
        (s.isReady (ccuUnit n) = false → exec (.cancelArrivalTdie n i) s = .next (u.partDone k.id n 1)))) ∧
    (∀ e, t.entries[i]? = some e → s.linked n = true → t.reached e = true → e.op = 0 → exec (.noteComplete n i) s = .next (s.entryDone n i 1)) ∧
    (∀ e, s.entryOf n i = some (e, k) → ∀ c, slook t.ctxs e.ctx = some c →
      (e.op = 0x28 → t.mayStart e = true → (t.foreign n e k = false ∨ t.reached e = true) →
        exec (.appendExecute n i) s = .next (s.appendRun n i e k)) ∧
      (e.op = 0x2A → t.reached e = true →
        let child := num k.block 0x2C 3
        let lin := childLineage c.lin (k.block.getD 0x0C 0)
        (coveredBy t.prefixes lin = true → exec (.forkExecute n i) s = .next (s.entryDone n i (2 ^ 48))) ∧
        (coveredBy t.prefixes lin = false →
          (slook t.ctxs child ≠ none → exec (.forkExecute n i) s =
            .next ((s.ctxFail n e.ctx e.seq 5 2 false k.blockVa).entryDone n i (2 ^ 32))) ∧
          (slook t.ctxs child = none → t.roomy = true →
            let r := s.shareGroups n child c.groups
            let u := r.2.2.setTdie n ((r.2.2.tdie n).create ⟨child, lin, c.set, 0, r.1⟩)
            (r.2.1 = false → exec (.forkExecute n i) s = .next (u.entryDone n i 1)) ∧
            (r.2.1 = true → exec (.forkExecute n i) s =
              .next ((u.ctxFail n e.ctx e.seq 4 2 true k.blockVa).entryDone n i (2 ^ 32)))))) ∧
      (e.op = 0x2D → t.reached e = true → exec (.relabelExecute n i) s =
        .next ((s.setTdie n { t with ctxs := sput t.ctxs e.ctx { c with lin := cbLin k.block } }).entryDone n i 1)) ∧
      (e.op = 0x2C → t.mayStart e = true →
        let med := num k.block 0x0C 4
        let pool := if med = 0 then t.freeH else t.freeL
        (c.find (cbLayer k.block) (cbGroup k.block) = none → exec (.migrateExecute n i) s = .next (s.entryDone n i 1)) ∧
        (∀ g, c.find (cbLayer k.block) (cbGroup k.block) = some g →
          cbCount k.block < pageCount g.n (pageTokens g.heads g.hdim) →
          ∀ id d, slook g.table (cbCount k.block) = some id → slook t.descs id = some d → d.poisoned = false →
          (d.med = med → exec (.migrateExecute n i) s = .next (s.entryDone n i 1)) ∧
          (d.med ≠ med → (pool = [] → exec (.migrateExecute n i) s = .next (if t.reached e then
              (s.ctxFail n e.ctx e.seq 6 1 false k.blockVa).entryDone n i (2 ^ 32) else s)) ∧
            (pool ≠ [] → ∃ o ∈ pool, exec (.migrateExecute n i) s = .next ((s.drew.movePage n id d med o).entryDone n i 1)))))) ∧
    (s.cmds[i]? = some k → k.pending = [] →
      (k.results = true → k.merged = false → s.isReady (.cinch (Fin.ofNat 8 (dieOf k.core))) = true →
        exec (.cinchMerge i) s = .next ((s.setCmd { k with merged := true }).sendResult k)) ∧
      (k.kpending = [] → (k.results = true → k.merged = true) → (k.op = 0x29 → ∀ a ∈ s.arrivals, a.core = k.core → a.cmd ≠ some k.tok) →
        let u : State := { s with cmds := s.cmds.eraseIdx i, ctxMsgs := s.ctxMsgs.filter fun (m : CtxMsg) => m.cmd ≠ k.id }
        let v := if k.op = 0x2A ∧ k.failed = false ∧ k.dropped = false ∧ k.lost = false then
          u.writeLine k.core k.child 0 k.childRecord false else u
        exec (.contextCommandCompletion i) s = .next (match k.add with
          | some x => v.sendAdd (.context k.core (k.set.foldl min 21)) k.k x
          | none => v)))

/-- R278 to R285, R271, R284, R293, R294, R417, R435: queries, the holds of entries, waves and the reduction tree.
Where a rule leaves its reading open, the clauses follow the model's own (log 47). -/
def Obligations.QueryEvents : Prop :=
  ∀ (s : State) (n : Fin 22) (i : Nat) (e : TEntry) (k : CtxCmd),
    let t := s.tdie n
    (s.entryOf n i = some (e, k) →
      (e.op = 0x29 → e.running = false → e.complete = false →
        (e.started = false → t.mayStart e = true → ∀ c, slook t.ctxs e.ctx = some c →
          (∀ g, c.find (cbLayer k.block) (cbGroup k.block) = some g → (g.heads != cbHeads k.block || g.hdim != cbHdim k.block) = true →
            exec (.queryExecute n i) s = .next (if t.reached e then
              (s.ctxFail n e.ctx e.seq 3 2 false k.blockVa).entryDone n i (2 ^ 32) else s)) ∧
          ((∀ g, c.find (cbLayer k.block) (cbGroup k.block) = some g → g.heads = cbHeads k.block ∧ g.hdim = cbHdim k.block) →
          ∃ u x, exec (.queryExecute n i) s = .next (s.setTdie n u) ∧ u.entries = t.entries.set i x ∧
            x.started = true ∧ x.running = true ∧
            x.n = ((c.find (cbLayer k.block) (cbGroup k.block)).map KvGroup.n).getD 0 ∧ x.wsig = 0)) ∧
        (e.started = true → ∃ u x, exec (.queryExecute n i) s = .next (s.setTdie n u) ∧ u.entries = t.entries.set i x ∧
          x.running = true ∧ x.n = e.n ∧ x.wsig = 0)) ∧
      (e.running = true →
        let v := if e.holding then s else s.mergeLines (s.executionLines n e k)
        let x := (v.tdie n).entries.getD i e
        x.running = true →
        (x.rsig &&& x.wsig ≠ 0 → x.holding = false → exec (.queryExecutionEnd n i) s = .next (v.setTdie n
          { (v.tdie n).setEntry i { x with running := false, conflicts := x.conflicts + 1 } with
            reexec := ((v.tdie n).reexec + 1) % 2 ^ 32 })) ∧
        (x.rsig &&& x.wsig = 0 ∨ x.holding = true → exec (.queryExecutionEnd n i) s = .next (v.commitQuery n i x k))) ∧
      (e.held = true → e.seq ≠ 0 → e.since + 1000000 ≤ s.now → exec (.contextHoldTimeout n i) s =
        let u := s.ctxFail n e.ctx e.seq 2 2 true k.blockVa
        .next ((u.setTdie n { t with entries := t.entries.eraseIdx i }).partDone e.cmd n (2 ^ 32))) ∧
      (e.held = true → e.seq = 0 → e.logged = false → e.since + 1000000 < s.now → exec (.tableFullHoldTimeout n i) s =
        .next ((s.setTdie n (t.setEntry i { e with logged := true })).ctxFail n e.ctx e.seq 1 1 true k.blockVa))) ∧
    (let late := fun (w : Nat × Nat × Bool) => !w.2.2 && decide (w.2.1 + 100000 < s.now)
      ∀ x w, (t.entries.find? fun y => y.running && y.waits.any late) = some x → x.waits.find? late = some w →
      let x1 := { x with waits := x.waits.map fun y => if y = w then (y.1, y.2.1, true) else y }
      exec (.writeHoldTimeout n) s = .next ((s.setTdie n { t with
        entries := t.entries.map fun (y : TEntry) => if y = x then x1 else y }).ctxFail
        n x.ctx x.seq 7 1 false (BitVec.ofNat 64 w.1))) ∧
    (tdieOk s.hub.expanders n = true →
      exec (.activationWave n) s = .next (s.setTdie n { t with waveLim := t.actlim }) ∧
      (∀ m, t.actlim < m → m ≤ 1024 → m % 16 = 0 →
        exec (.activeBankLimitRaise n m) s = .next (s.setTdie n { t with actlim := m })) ∧
      (∀ shape map, (∀ y ∈ t.entries, y.running = false) → (∀ p ∈ map, p.1 < 64 ∧ p.2 < 64) →
        exec (.reductionTreeShapeChange n shape map) s = .next (s.setTdie n
          { t with shape := shape, phys := map.foldl (fun m p => sput m p.1 p.2) t.phys })))

/-- R299 to R302, R428, R429: the Awl starts a run, admits and retires a slot, and its window is written. Where a rule
leaves its reading open, the clauses follow the model's own (log 49). -/
def Obligations.AwlEvents : Prop :=
  ∀ (s : State) (d : Fin 8) (i : Nat) (r : AwlReq),
    let p := awlPlace i
    let u := s.dropRun d p.1 p.2
    let a := (u.kdie d).awl
    let x := a.slot r.slot
    let run : AwlRun := ⟨r, awlSource d p.1, r.entry⟩
    (s.startable d i = some r →
      (r.entry < 8192 →
        (r.gen = x.gen → x.occ = true → exec (.awlRunStart d i) s = .next (u.setAwl d { a with runs := a.runs ++ [run] })) ∧
        (r.gen ≠ x.gen ∨ x.occ = false → exec (.awlRunStart d i) s = .next u)) ∧
      (8192 ≤ r.entry → r.entry < 0xFFFE → r.gen = x.gen → exec (.awlRunStart d i) s = .next (u.awlFault d run 1 r.arg)) ∧
      (r.entry = 0xFFFF →
        (r.gen ≠ x.gen → exec (.awlAdmit d i) s = .next u) ∧
        (r.gen = x.gen → r.arg.toNat % 64 = 0 → ∀ v b, u.awlRead run r.arg 64 = (v, .ok b) → admissionBad b = false →
          let n := num b 32 1
          let e := (v.kdie d).awl
          (x.occ = false → n ≤ e.freeBlk → exec (.awlAdmit d i) s = .next ((v.setAwl d ({ e with freeBlk := e.freeBlk - n }.setSlot
            r.slot { occ := true, gen := (x.gen + 1) % 65536, key := b.take 32, draw := BitVec.ofNat 64 (num b 40 8),
                     nblk := n })).postAdd (.awl d) r.k 1)) ∧
          (x.occ = true ∨ e.freeBlk < n → exec (.awlAdmit d i) s = .next (v.postAdd (.awl d) r.k (2 ^ 32))))) ∧
      (r.entry = 0xFFFE →
        (r.gen ≠ x.gen → exec (.awlRetire d i) s = .next u) ∧
        (r.gen = x.gen → exec (.awlRetire d i) s =
          .next ((u.setAwl d ({ a with freeBlk := a.freeBlk + x.nblk }.setSlot r.slot { gen := x.gen })).postAdd (.awl d) r.k 1)))) ∧
    (∀ w : W32, i < 8192 → s.hostReach = true →
      let e := (s.kdie d).awl
      (e.hold = true → e.runs = [] → exec (.awlProgramWordWrite d i w) s = .next (s.setAwl d { e with prog := sput e.prog i w })) ∧
      (e.hold = false ∨ e.runs ≠ [] → exec (.awlProgramWordWrite d i w) s = .next (s.record d d 6 0xFFFF AWLF 3 true false
        (BitVec.ofNat 64 (0x40000 + d.val * 0x10000 + 4 * i)) (BitVec.ofNat 64 (i + 7 * 2 ^ 40))))) ∧
    (∀ w : Word, s.hostReach = true → exec (.awlctlWrite d w) s = .next (s.setAwl d { (s.kdie d).awl with hold := bitOf w.toNat 0 }))

/-- R311 to R314, R430 to R432: the command graph latches a record, dispatches its nodes and ends its replays. Where a
rule leaves its reading open, the clauses follow the model's own (log 50). -/
def Obligations.GraphEvents : Prop :=
  ∀ (s : State) (i : Nat) (w : Word),
    let g := s.hub.graph
    let put := fun (g : Graph) => ({ s with hub := { s.hub with graph := g } } : State)
    (s.hostReach = true → g.replays = [] → exec (.grecWrite w) s = .next (put { g with grec := BitVec.ofNat 64 (field w 0 57) })) ∧
    (g.replays ≠ [] → exec (.grecWrite w) s = .next s) ∧
    (s.isReady graphUnit = true →
      (s.hostReach = true → 2 ≤ g.replays.length → exec .gctlGo s = .next (put { g with drop := true })) ∧
      (s.hostReach = true → g.replays.length < 2 →
        let gen := (g.gen + 1) % 2 ^ 32
        let r := s.readGraph g.grec
        let u := r.found (put { g with gen := gen })
        let h := u.hub.graph
        (r.synd ≠ 0 → exec .gctlGo s = .next (u.graphFault 0x1FFF r.synd r.reason gen g.grec)) ∧
        (r.synd = 0 → exec .gctlGo s = .next (u.setGraph { h with
          replays := h.replays ++ [{ gen := gen, recVa := g.grec, done := r.done, nodes := r.nodes, snapshot := h.gp,
                                     since := s.now }],
          gnode := if h.replays.any Replay.busy then h.gnode else 0 }))) ∧
      (∀ r b, g.current = some (r, b) →
        (r.refused = none →
          (s.nodeReady b = true →
            exec .graphNodeDispatch s = .next ((s.drew.dispatchNode r b).2.nodeDone r (s.drew.dispatchNode r b).1)) ∧
          (s.nodeReady b = false → exec .graphNodeDispatch s = .next s.drew)) ∧
        (∀ t, r.refused = some t →
          ((s.dispatchNode r b).1 ≠ .refused →
            exec .graphNodeRedispatch s = .next ((s.dispatchNode r b).2.nodeDone r (s.dispatchNode r b).1)) ∧
          ((s.dispatchNode r b).1 = .refused →
            (r.logged = true ∨ s.now < t + 1000000 →
              exec .graphNodeRedispatch s = .next ((s.dispatchNode r b).2.nodeDone r .refused)) ∧
            (r.logged = false → t + 1000000 ≤ s.now →
              exec .graphNodeRedispatch s = .next (((s.dispatchNode r b).2.nodeDone { r with logged := true } .refused).record
                (gnDie b) (gnDie b) 3 0 HEAPF 1 false false 0 (BitVec.ofNat 64 (s.nodeContext r b)))))))) ∧
    (∀ r b, g.current = some (r, b) → s.nodeUnmet b = true → r.refused = none → r.logged = false → r.since + 100000000 ≤ s.now →
      exec .graphWaitRecord s = .next ((put { g with replays := replaceBusy { r with logged := true } g.replays }).record
        16 16 18 0 GRAPHF 1 false false (gnWait b) (BitVec.ofNat 64 r.next))) ∧
    (∀ r, g.replays[i]? = some r → r.busy = false → (∀ t ∈ r.openRuns, s.runOpen t = false) →
      (∀ c ∈ r.openCmds, s.cmdOf c = none) → (∀ a ∈ s.adds, a.sender ≠ .graph r.gen) →
      exec (.graphReplayEnd i) s = .next ((put { g with replays := g.replays.eraseIdx i }).sendAdd .replay r.done
        (if r.faulted then 2 ^ 32 else 1)))

/-- R36 to R41, R184, R316, R408, R420: launches by the boot mailbox, and iterations that the walker dispatches, with
their ends. A GO on a core that is not ready ends in STATE 4, one on a core that does the walker's work in STATE 6 with REF, and
one while this mailbox's launch is loading or running sets REF alone. Where a rule leaves its reading open, the clauses follow
the model's own (log 37, 39, 63, 64, 65, 87). -/
def Obligations.LaunchEvents : Prop :=
  ∀ (s : State) (c : CoreIx),
    let k := s.core c
    let m := k.mbox
    let stopped := ∀ n : StrandId, (k.strand n).running = false
    (s.hostReach = true → s.isReady (coreUnit c) = false →
      exec (.bootMailboxGo c) s = .next (s.setCore c { k with mbox := { m with go := false, state := 4, synd := 0 } })) ∧
    (s.hostReach = true → s.isReady (coreUnit c) = true →
      (k.loading = false → m.state ≠ 1 → m.state ≠ 2 → k.work.ofWalker = false →
        exec (.bootMailboxGo c) s = .next (s.setCore c { k with
          loading := true
          mbox := { m with go := false, state := 1, ref := false, synd := 0, latchedImage := m.image, latchedArg := m.arg } })) ∧
      (k.loading = true ∨ m.state = 1 ∨ m.state = 2 →
        exec (.bootMailboxGo c) s = .next (s.setCore c { k with mbox := { m with go := false, ref := true } })) ∧
      (k.loading = false → m.state ≠ 1 → m.state ≠ 2 → k.work.ofWalker = true →
        exec (.bootMailboxGo c) s = .next (s.setCore c { k with mbox := { m with go := false, state := 6, ref := true, synd := 0 } }))) ∧
    (k.loading = true → s.drained c = true → k.work.ofWalker = false →
      let r := s.readImage k.asid k.root m.latchedImage
      (r.synd = 0 → exec (.imageLoadEnd c) s = .next (((r.found (s.released c)).setCore c { k.fresh with
        q := { k.fresh.q with running := true, pc := r.entry, readyAt := k.cycle, x := [(6, m.latchedArg)] }
        imem := putWords k.imem 0 r.words, spsplit := 2, loaded := true, header := some m.latchedImage, loading := false, work := .launch
        mbox := { m with state := 2 } }).clearCounters c)) ∧
      (r.synd ≠ 0 → ∃ t, exec (.imageLoadEnd c) s = .next t ∧
        (t.core c).mbox = { m with state := 5, synd := r.synd } ∧ (t.core c).work = .idle ∧ (t.core c).loaded = false)) ∧
    (k.work = .launch → stopped → k.lost = none →
      (k.leftOver = none → (s.setCore c k.dropStuck).drained c = true →
        exec (.launchEnd c) s = .next (s.setCore c { k.dropStuck with work := .idle, mbox := { m with state := 3 } })) ∧
      (∀ synd, k.leftOver = some synd → exec (.launchEnd c) s = .next ((s.leftRecord c).abandon c synd))) ∧
    (let d := dieOf c
     let q := s.kdie d
     (s.firstServed c = true → ∀ r, s.search c = some (r, false) →
      let xs := sputs [] 1 ([r.loopValue r.next 0, r.loopValue r.next 1, r.loopValue r.next 2, r.loopValue r.next 3,
        BitVec.ofNat 64 r.next, r.arg])
      exec (.nestIterationDispatch c) s = .next ((((s.setCore c { k.fresh with
        q := { k.fresh.q with running := true, pc := r.entry, readyAt := k.cycle, x := xs }
        spsplit := k.spsplit, ctx := ctxWord r.ctx r.flags r.lin.depth, lineageLo := r.lin.lo, lineageHi := r.lin.hi
        work := .iteration r.id r.next, dispatched := q.dispatches }).clearCounters c).setKdie d
          { q.setRec { r with next := r.next + 1, running := r.running ++ [(c.val, r.next)] } with
            last := sput q.last r.cls r.id, dispatches := q.dispatches + 1 }).released c)) ∧
     (stopped → k.settledMops = true → k.lost = none →
      (∀ id n, k.work = .iteration id n →
        (k.leftOver = none → exec (.iterationEnd c) s =
          .next ((s.setCore c { k.dropStuck with work := .idle, preq := none, yielded := false }).setKdie d
            (q.loseIteration (some c.val) id n false false))) ∧
        (∀ synd, k.leftOver = some synd → exec (.iterationEnd c) s = .next ((s.leftRecord c).abandon c synd))) ∧
      (k.work = .idle ∨ k.work = .draining → s.drained c = true → exec (.iterationEnd c) s = .next (s.released c))))

/-- R316 to R320, R325 to R327: pre-emption, saves, resumption and cancellation at a K-die. Where a rule leaves its
reading open, the clauses follow the model's own (log 21, 39, 66, 86, 91). -/
def Obligations.ScheduleEvents : Prop :=
  ∀ (s : State) (d : Fin 8) (c : CoreIx) (i : Nat),
    let k := s.core c
    let kd := dieOf c
    let t := s.kdie kd
    (∀ r x, (s.kdie d).recs[i]? = some r →
      let cores := ((List.range 64).filter fun j => bitOf r.cores.toNat j).map fun j => 64 * d.val + j
      coveredBy (s.kdie d).prefixes r.lin = false → (r.saved ≠ [] ∨ r.next < r.total) → (∀ y ∈ cores, s.isFree y = false) →
      (s.kdie d).areas.length < 64 → (∀ j < 64, ∀ p, (s.core (64 * d.val + j)).preq = some p → p.record ≠ r.id) → s.isReady (.nest d) = true →
      cores.foldl (s.lowerOf r.cls) none = some x →
      exec (.preemptionRequest d i) s = .next (s.setCore x { s.core x with preq := some ⟨r.id, (s.core x).cycle, s.stubborn x⟩ })) ∧
    (∀ id n, k.work = .iteration id n →
      (∀ p a, k.preq = some p → p.atYield = false → k.allStopped = false → k.acted = false → k.lost = none → k.frozen = none →
        t.areas.length < 64 → s.nextEngineTrap c = none → k.deadlocked = false →
        ((List.range 64).find? fun a => !t.areas.contains a) = some a →
        exec (.preemptionService c) s = .next ((s.setCore c { k.landPushes with
          work := .saving id n a, preq := none, yielded := false }).setKdie kd { t with areas := t.areas ++ [a] })) ∧
      (k.acted = false → ∀ j ∈ t.cancels, s.matched c j.lin = true → exec (.cancelCoreStop c) s = .next (s.cancelWork c id n none))) ∧
    (∀ id n a, k.work = .restoring id n a →
      (areaDigest kd (s.poolGet kd a) = ((s.poolGet kd a).drop 0x30).take 32 →
        exec (.restoreEnd c) s = .next ((s.setKdie kd { t with areas := t.areas.filter (· ≠ a) }).setCore c
          { k with work := .iteration id n })) ∧
      (k.acted = false → ∀ j ∈ t.cancels, s.matched c j.lin = true → exec (.cancelCoreStop c) s = .next (s.cancelWork c id n (some a)))) ∧
    (∀ id n a, k.work = .saving id n a → s.saveSettled c = true →
      let u := s.saveForced c n a
      let mine := fun (x : Add) => x.src.any fun p => p.1 == c.val
      let p := u.core c
      let v := ({ u with adds := u.adds.filter fun x => !mine x } : State).setCore c p.fresh
      let e := v.kdie kd
      ∀ r, e.rec? id = some r →
      (coveredBy e.prefixes p.lineage = false → coveredBy e.prefixes r.lin = false →
        exec (.saveEnd c) s = .next (v.setKdie kd (e.setRec { r with
          running := r.running.filter (fun p => p.2 ≠ n)
          saved := r.saved ++ [⟨n, a, p.packed, s.coreCounters c, u.adds.filter mine⟩] }))) ∧
      (coveredBy e.prefixes p.lineage = true ∨ coveredBy e.prefixes r.lin = true →
        exec (.saveEnd c) s = .next ((v.setKdie kd
          ({ e with areas := e.areas.filter (· ≠ a) }.loseIteration none id n false true)).settleRecs kd))) ∧
    (s.firstServed c = true → ∀ r it, s.search c = some (r, true) → r.firstSaved = some it →
      ∃ u : State, exec (.iterationResume c) s = .next (u.released c) ∧
        u.core c = { it.core with
          mbox := k.mbox, asid := k.asid, root := k.root, loaded := k.loaded
          work := .restoring r.id it.linear it.area, dispatched := t.dispatches } ∧
        u.kdie kd = { t.setRec { r with saved := r.saved.filter (fun x => x.linear ≠ it.linear),
                                        running := r.running ++ [(c.val, it.linear)] } with
          last := sput t.last r.cls r.id, dispatches := t.dispatches + 1 }) ∧
    (∀ m q, s.ctxMsgs[i]? = some m → s.cmdOf m.cmd = some q → m.die = d.val → q.op = 0x2B → s.inOrder i m q.core = true →
      let p := lineageAt q.block 0x18 (num q.block 0x28 1)
      let e := s.kdie d
      exec (.cancelArrivalKdie d i) s = .next (({ s with ctxMsgs := s.ctxMsgs.eraseIdx i } : State).setKdie d { e with
        recv := (e.recv + 1) % 2 ^ 32, prefixes := (p :: e.prefixes).take 1024, cancels := e.cancels ++ [CancelJob.mk q.id p] })) ∧
    (∀ j, (s.kdie d).cancels[i]? = some j → (∀ x < 64, s.matched (64 * d.val + x) j.lin = false) →
      let u := s.purge d j.lin
      let e := u.kdie d
      exec (.cancelEffectsDone d i) s = .next { u.setKdie d { e with done := (e.done + 1) % 2 ^ 32, cancels := e.cancels.eraseIdx i } with
        cmds := u.cmds.map fun k => if k.id = j.cmd then { k with kpending := k.kpending.filter (· ≠ d.val) } else k })

/-- R22 to R25, R27, R374, R376: power, and the verification of an image; with the image that comes to run, both hubs derive their
identity keys anew. In IMG 3 the host writes the staging window and the doorbell over the primary link. Where a rule
leaves its reading open, the clauses follow the model's own (log 24, 27, 74). -/
def Obligations.BootEvents : Prop :=
  ∀ (s : State) (off : Nat) (bytes : List Byte),
    let b := s.hub.boot
    let keys := fun (v : Nat) => [identityKeys v 0, identityKeys v 1]
    let booted := fun (x : Boot) => ({ s with hub := { s.hub with boot := x } } : State)
    (s.powered = true → b.img = 0 → exec .powerGood s = .next (booted { b with img := 1 })) ∧
    (s.powered = false ∨ b.img ≠ 0 → ∃ t, exec .powerGood s = .next t ∧ t.powered = true ∧ t.hub.boot = { flash := b.flash } ∧
      t.hub.tele = s.hub.tele ∧ t.hub.telePend = [(8, 1)] ∧ t.hub.ready = [] ∧ t.hub.histat = 0 ∧
      t.mem = State.reset.mem ∧ t.cores = State.reset.cores ∧ t.counters = [] ∧ t.now = 0) ∧
    (b.img = 1 →
      (∀ uce, ∃ t, exec (.flashImageVerificationEnd uce false) s = .next t ∧ t.hub.boot.img = 6 ∧ t.hub.boot.reason = 8) ∧
      (∃ t r, exec (.flashImageVerificationEnd true true) s = .next t ∧ t.hub.boot = r ∧ r.img = 3 ∧ r.reason = 7 ∧
        r.tries = min (b.tries + 1) 255) ∧
      (verifyReasons Config.flashSize b.flash = [] → ∃ t, exec (.flashImageVerificationEnd false true) s = .next t ∧
        t.hub.boot = { b with img := 2, go := false, secver := num b.flash 8 4, keys := keys (num b.flash 8 4) }) ∧
      (verifyReasons Config.flashSize b.flash ≠ [] → ∃ t, exec (.flashImageVerificationEnd false true) s = .next t ∧
        t.hub.boot.img = 3 ∧ t.hub.boot.reason ∈ verifyReasons Config.flashSize b.flash)) ∧
    (b.img = 3 → s.hostReach = true →
      exec .bdoorGo s = .next (booted { b with img := 4, go := true }) ∧
      exec (.stagingWindowWrite off bytes) s =
        .next (booted { b with staging := sputs b.staging off (bytes.take (4194304 - off)) })) ∧
    (b.img = 4 →
      let image := sgets 0 b.staging 0 (min b.blen 4194304)
      let wrong := verifyReasons (min b.blen 4194304) image
      (∃ t, exec (.hostImageVerificationEnd false) s = .next t ∧ t.hub.boot.img = 6 ∧ t.hub.boot.reason = 8) ∧
      (wrong = [] → ∃ t, exec (.hostImageVerificationEnd true) s = .next t ∧
        t.hub.boot = { b with img := 5, go := false, secver := num image 8 4, keys := keys (num image 8 4) }) ∧
      (wrong ≠ [] → ∃ t, exec (.hostImageVerificationEnd true) s = .next t ∧ t.hub.boot.img = 3 ∧
        t.hub.boot.go = false ∧ t.hub.boot.reason ∈ wrong)) ∧
    (∃ t, exec .lossOfSupply s = .next t ∧ t.powered = false ∧ t.hub.tele = s.hub.tele ∧ t.hub.telePend = []) ∧
    (∃ t, exec .orderlyPowerDown s = .next t ∧ t.powered = false ∧ t.hub.telePend = [] ∧
      (s.isReady (.tele 0) = true → t.hub.tele =
        s.hub.telePend.foldl (fun m p => sput m p.1 (sat64 (sget 0 m p.1 + p.2))) s.hub.tele))

/-- R26: the firmware's functions for the host. A request ends with STATUS 2 and its result in FRES; another function, or a
request while no firmware runs, ends with STATUS 3. A new module number renames the module's counters and keeps what
they hold. Where a rule leaves its reading open, the clauses follow the model's own (log 25, 28, 73). -/
def Obligations.FirmwareRequests : Prop :=
  ∀ (s : State),
    let b := s.hub.boot
    let ends := fun (u : State) (r : Word) (st : Nat) => Host.Outcome.next (φ := Fault) (ρ := Refusal)
      ({ u with hub := { u.hub with boot := { u.hub.boot with fres := r, fstat := st, fgo := false } } } : State)
    let f := field b.fcmd 0 16
    b.fgo = true →
    (b.img = 2 ∨ b.img = 5 →
      (f = 1 → exec .readPowerLimit s = ends s (BitVec.ofNat 64 b.limit) 2) ∧
      (f = 2 →
        let n := min (max b.farg0.toNat 1200) 3600
        exec .setPowerLimit s = ends { s with hub := { s.hub with boot := { b with limit := n } } } (BitVec.ofNat 64 n) 2) ∧
      (f = 3 → ∀ reachable, exec (.counterReset reachable) s =
        ends (s.resetCounter b.farg0 reachable).2 (BitVec.ofNat 64 (s.resetCounter b.farg0 reachable).1) 2) ∧
      (f = 4 → let n := b.farg0.toNat
        (22 ≤ n → exec .sizeKvPools s = ends s 1 2) ∧
        (n < 22 → exec .sizeKvPools s = ends (s.sizePools n (field b.farg1 0 32) (field b.farg1 32 32)).2
          (s.sizePools n (field b.farg1 0 32) (field b.farg1 32 32)).1 2)) ∧
      (f = 5 → exec .clearFenceList s = ends { s with hub := { s.hub with fenceList := [] } } 0 2) ∧
      (f = 6 → (s.hub.valid = true → exec .setModuleNumber s = ends s 1 2) ∧
        (s.hub.valid = false → let n := b.farg0.toNat % 4096
          ∃ t, exec .setModuleNumber s = .next t ∧ t.hub.module = n ∧ t.hub.valid = true ∧ t.mem = s.mem ∧
            t.hub.boot = { b with fres := 0, fstat := 2, fgo := false } ∧
            t.counters = s.counters.map (fun p => (p.1 - s.hub.module * 2 ^ 23 + n * 2 ^ 23, p.2)) ∧
            t.hub.rowmap.getLsbD (n % 64) = true ∧ t.hub.colmap.getLsbD (n / 64) = true)) ∧
      (f = 0 ∨ 6 < f → exec .undefinedFirmwareFunction s = ends s (BitVec.allOnes 64) 3)) ∧
    (b.img ≠ 2 → b.img ≠ 5 → exec .undefinedFirmwareFunction s = ends s (BitVec.allOnes 64) 3)

/-- R13 to R16, R19, R24, R374, R375: functions that become ready, operating points, temperatures and the flush of the
telemetry. Where a rule leaves its reading open, the clauses follow the model's own (log 20, 29, 30). -/
def Obligations.PlatformEvents : Prop :=
  ∀ (s : State) (u : UnitId) (i : Fin 26) (n : Fin 22) (mhz mv : Nat) (pwr hot : Bool) (points : List (Nat × Nat)) (actlim : Nat)
      (temps : List Nat),
    let b := s.hub.boot
    (b.img = 2 ∨ b.img = 5 →
      (s.mayReady u = true → s.isReady u = false →
        exec (.functionReady u) s = .next ((s.broughtUp u).setReady u)) ∧
      (0 < mhz → mhz ≤ (nominal i.val).1 → mv ≤ trimmed i.val → (hot = true → (sget {} s.hub.islands i.val).hot = true) →
        (pwr || hot) = decide (mhz < (nominal i.val).1 ∨ mv < trimmed i.val) →
        ∃ t, exec (.operatingPointChange i mhz mv pwr hot) s = .next t ∧
          t.islandWord i.val = BitVec.ofNat 64 (mhz + 2 ^ 16 * mv + (if pwr then 2 ^ 32 else 0) + (if hot then 2 ^ 33 else 0)) ∧
          (16 ≤ i.val → i.val < 24 → t.isReady (.pres (Fin.ofNat 22 (i.val - 8))) = true)) ∧
      (s.lowers (dieIslands n) points = true →
        (n.val < 18 ∨ s.hub.expanders.contains n.val = true) →
        (tdieOk s.hub.expanders n = true → 16 ≤ actlim ∧ actlim % 16 = 0 ∧ actlim < (s.tdie n).actlim) →
        ∃ t, exec (.dieReaches95c n points actlim) s = .next t ∧
          (tdieOk s.hub.expanders n = true → (t.tdie n).actlim = actlim) ∧ bitOf t.hub.histat.toNat 23 = true ∧
          t.mem = s.mem)) ∧
    (∃ t, exec (.dieReaches110c n) s = .next t ∧ t.powered = false) ∧
    (let sec := (s.now - s.hub.flushed) / 1000000000
     (sec = 0 → exec .telemetryFlush s = .next s) ∧
     (sec ≠ 0 → ∃ t, exec .telemetryFlush s = .next t ∧ t.hub.flushed = s.hub.flushed + sec * 1000000000 ∧
       (s.isReady (.tele 0) = true → t.hub.telePend = []))) ∧
    (s.hub.sampled + 1000000 ≤ s.now → exec (.thermalSample temps) s =
      .next (({ s with hub := { s.hub with sampled := s.now / 1000000 * 1000000 } } : State).sampleDies 0 temps))

/-- R331, R336, R438 to R449: messages, flits, retrains, optical channels and expander ports. Where a rule leaves its
reading open, the clauses follow the model's own (log 31, 32, 33). -/
def Obligations.LinkEvents : Prop :=
  ∀ (s : State) (n : Fin 22) (m : Fin 12) (i : Nat),
    (∀ x l, s.msgs[i]? = some x → linkTo x.via x.dst = some l → s.linkOpen x.via l = true → s.roomy x.via l = true →
      exec (.messageForward i) s =
        .next (({ s with msgs := s.msgs.eraseIdx i } : State).setLink x.via l (Link.send x))) ∧
    (s.hub.valid = true → s.hub.egress = false →
      (i < 32 → i ∈ s.routes 16 17 → exec (.podForward i) s = .next ((s.keep (s.newMsg 16 17 i)).sendTo 16 i (s.newMsg 16 17 i))) ∧
      (32 ≤ i → i < 64 → i - 32 ∈ s.routes 17 16 → exec (.podForward i) s =
        .next ((s.keep (s.newMsg 17 16 (i - 32))).sendTo 17 (i - 32) (s.newMsg 17 16 (i - 32))))) ∧
    (∀ a b, peerEnd n m = some (a, b) → s.linkOpen n m = true →
      let here := if n.val < 18 then n.val else if m = 0 then n.val else 16 + (n.val - 18) / 2
      (∀ crcOk room q x rest, (s.linkAt a b).buffer = (q, x) :: rest →
        ∃ t, exec (.flitReceive n m crcOk room) s = .next t ∧ t.mem = s.mem ∧
          ((s.linkAt n m).discard = true → (t.linkAt a b).buffer = (q, x) :: rest ∧ t.msgs = s.msgs) ∧
          ((s.linkAt n m).discard = false →
            (crcOk = false ∨ q ≠ (s.linkAt n m).expect → (t.linkAt n m).discard = true ∧ (t.linkAt a b).buffer = (q, x) :: rest ∧
              t.msgs = s.msgs) ∧
            (crcOk = true → q = (s.linkAt n m).expect → (t.linkAt n m).discard = false ∧ (t.linkAt a b).buffer = rest ∧
              (t.linkAt n m).expect = (q + 1) % 256 ∧ (room = false → x ∈ (t.linkAt a b).refused ∧ t.msgs = s.msgs) ∧
              (room = true → t.msgs = (if x.dst = here then s.msgs else s.msgs ++ [x]) ∧
                t.hub.accepted = if x.dst = here then (s.hub.accept x).accepted else s.hub.accepted)))) ∧
      (∀ crcOk room, (s.linkAt a b).buffer = [] → ∃ t, exec (.flitReceive n m crcOk room) s = .next t ∧ t.mem = s.mem) ∧
      ((s.linkAt a b).discard = true →
        let u := s.setLink n m fun l => l.roll s.now
        let l := s.linkAt n m
        (l.row < 4 → l.crcs < 64 → exec (.flitReplay n m) s =
          .next ((u.setLink n m fun l => { l with reps := l.reps + 1 }).setLink a b fun l => { l with discard := false })) ∧
        (4 ≤ l.row ∨ 64 ≤ l.crcs → exec (.flitReplay n m) s = .next ((u.linkRecord a b LCRC 1 false
          (((l.buffer.map Prod.fst).headD 0) + 256 * l.row)).retrain n m))) ∧
      exec (.linkLossOfLock n m) s = .next (s.setEnds n m fun l => { l with train := true, fails := 0, attempt := 0, row := 0, crcs := 0 })) ∧
    (∀ x, (s.linkAt n m).refused[i]? = some x → s.linkOpen n m = true → s.roomy n m = true →
      exec (.flitRefusalResend n m i) s = .next
        ((s.setLink n m fun l => { l with refused := l.refused.eraseIdx i }).setLink n m (Link.send x))) ∧
    ((s.linkAt n m).train = true → s.linkUp n m = true →
      let l := s.linkAt n m
      let u := s.countAttempt n m
      let trained := fun (w r : Nat) => u.setEnds n m fun l => { l with width := w, rate := r, train := false, fails := 0, discard := false }
      let stopped := u.setEnds n m fun l =>
        { l with width := 0, train := false, fails := 3, buffer := [], refused := [], discard := false }
      (l.attempt < 2 → exec (.retrainAttemptEnd n m false) s =
        .next (u.setEnds n m fun l => { l with fails := l.fails + 1, attempt := l.attempt + 1 })) ∧
      (2 ≤ l.attempt →
        (n.val < 18 → exec (.retrainAttemptEnd n m false) s = .next (u.linkDown n m)) ∧
        (18 ≤ n.val → exec (.retrainAttemptEnd n m false) s = .next stopped)) ∧
      (l.attempt = 0 → l.width = 2 → l.rate = 0 → exec (.retrainAttemptEnd n m true) s =
        .next (if 18 ≤ n.val then (trained 2 0).portBack n else trained 2 0)) ∧
      (∀ a b, peerEnd n m = some (a, b) → l.attempt = 1 → l.width = 2 → l.rate = 0 → n.val < 18 →
        exec (.retrainAttemptEnd n m true) s =
          .next (((trained 1 0).linkRecord n m LDEG 1 true 0x0201).linkRecord a b LDEG 1 true 0x0201))) ∧
    (∀ (plane : Fin 2) (q : Fin 512), s.hub.lost.contains (512 * plane.val + q.val) = false →
      s.isReady (.fibre (Fin.ofNat 256 (128 * plane.val + q.val / 8))) = true →
      let key := 512 * plane.val + q.val
      let l := sget {} s.hub.channels key
      (∃ t, exec (.opticalRetrainAttemptEnd plane q true) s = .next t ∧ t.hub.lost = s.hub.lost ∧
        (sget {} t.hub.channels key).train = false ∧ (sget {} t.hub.channels key).fails = 0) ∧
      (l.train = false ∨ l.fails < 2 → ∃ t, exec (.opticalRetrainAttemptEnd plane q false) s = .next t ∧ t.hub.lost = s.hub.lost ∧
        (sget {} t.hub.channels key).train = true ∧
        (sget {} t.hub.channels key).fails = (if l.train then l.fails else 0) + 1) ∧
      (l.train = true → l.fails = 2 → ∃ t, exec (.opticalRetrainAttemptEnd plane q false) s = .next t ∧ key ∈ t.hub.lost)) ∧
    (∀ t, 18 ≤ n.val → s.hub.expanders.contains n.val = true → s.isReady (portOf n) = true → s.unacked n = some t → t + 1000000 ≤ s.now →
      slook s.hub.xsince n = none →
      let u : State := { s with hub := { s.hub with xsince := sput s.hub.xsince n t } }
      exec (.expanderAckTimeout n) s = .next (if u.linkOpen n 0 then u.retrain n 0 else u)) ∧
    (∀ t, slook s.hub.xsince n = some t → 18 ≤ n.val → t + 10000000 ≤ s.now → s.linkOpen n 0 = false →
      exec (.expanderFenceTimeout n) s = .next (s.fenceExpander n))

/-- R5, R25, R26, R36, R312, R339, R341, R342, R355 to R368, R405, R406, R433, R434, R450, R451: what the host writes and reads,
what its links come to, and single faults of what is no line. Where a rule leaves its reading open, the clauses follow
the model's own (log 35, 36, 75, 76). -/
def Obligations.HostEvents : Prop :=
  ∀ (s : State) (n : Fin 22) (h : Fin 2) (g k : Fin 256) (c : CoreIx) (off : Nat) (w : Word),
    let link := 16 + h.val
    let logged := fun (t : State) (synd : Nat) (addr : Word) =>
      let l := sget {} s.hub.logs link
      let l1 := sget {} t.hub.logs link
      (l.head - l.tail ≠ 256 → l1.head = l.head + 1 ∧
        ∃ r, slook l1.ring (l.head % 256) = some r ∧ r.synd = synd ∧ r.die = link ∧ r.addr = addr ∧ r.time = s.now) ∧
      (l.head - l.tail = 256 → l1.head = l.head ∧ l1.lost = min (l.lost + 1) (2 ^ 32 - 1))
    let writes := fun (o : Nat) (p : State → Prop) =>
      ∃ t, exec (.registerWrite o w) s = .next t ∧ t.mem = s.mem ∧ t.counters = s.counters ∧ t.reds = s.reds ∧ p t
    (s.hostReach = true →
      writes off (fun _ => True) ∧
      writes (0xE0008 + 16 * g) (fun t => t.bar0 (0xE0008 + 16 * g) = BitVec.ofNat 64 (field w 0 57) ∧
        (k ≠ g → t.bar0 (0xE0008 + 16 * k) = s.bar0 (0xE0008 + 16 * k)) ∧ t.bar0 (0xE0000 + 16 * k) = s.bar0 (0xE0000 + 16 * k)) ∧
      writes 0x170000 (fun t => t.bar0 0x170000 = s.bar0 0x170000 &&& ~~~w ∧ t.bar0 0x170008 = s.bar0 0x170008) ∧
      writes 0x170008 (fun t => t.bar0 0x170008 = w &&& 0x3FFFFFF ∧ t.bar0 0x170000 = s.bar0 0x170000) ∧
      writes (0x20000 + 64 * c) (fun t => t.bar0 (0x20000 + 64 * c) = w ∧ t.bar0 (0x20008 + 64 * c) = s.bar0 (0x20008 + 64 * c)) ∧
      writes (0x20008 + 64 * c) (fun t => t.bar0 (0x20008 + 64 * c) = w ∧ t.bar0 (0x20000 + 64 * c) = s.bar0 (0x20000 + 64 * c)) ∧
      writes (0xC0800 + 8 * g) (fun t => t.bar0 (0xC0800 + 8 * g) = w ∧
        (k ≠ g → t.bar0 (0xC0800 + 8 * k) = s.bar0 (0xC0800 + 8 * k))) ∧
      writes 0xC0010 (fun t => (t.hub.graph.drop = true ↔ s.hub.graph.drop = true ∧ bitOf w.toNat 34 = false) ∧
        (t.hub.graph.fault = true ↔ s.hub.graph.fault = true ∧ bitOf w.toNat 35 = false)) ∧
      writes 0xA18 (fun t => s.bar0 0xA18 = 0 → bitOf w.toNat 0 = true →
        (s.hub.boot.img = 2 ∨ s.hub.boot.img = 5 → t.bar0 0xA18 = 1 ∧ t.bar0 0xA28 = 1) ∧
        (s.hub.boot.img ≠ 2 → s.hub.boot.img ≠ 5 → t.bar0 0xA18 = 0 ∧ t.bar0 0xA28 = 3 ∧ t.bar0 0xA20 = BitVec.allOnes 64)) ∧
      (off % 8 ≠ 0 ∨ (0x1000 ≤ off ∧ off < 0x20000) ∨ (0xD0000 ≤ off ∧ off < 0xE0000) ∨ (0xF0000 ≤ off ∧ off < 0x170000) ∨
        0x170010 ≤ off → exec (.registerWrite off w) s = .next s) ∧
      (∃ t, exec (.gdefWrite g w) s = .next t ∧ t.mem = s.mem ∧ t.bar0 (0xE0000 + 16 * g) = BitVec.ofNat 64 (field w 0 14) ∧
        (k ≠ g → t.bar0 (0xE0000 + 16 * k) = s.bar0 (0xE0000 + 16 * k)) ∧
        t.bar0 (0xE0008 + 16 * k) = s.bar0 (0xE0008 + 16 * k) ∧
        (g.val ∈ t.hub.broken ↔ g.val ∈ s.hub.broken ∧ bitOf w.toNat 13 = false) ∧
        (k ≠ g → (k.val ∈ t.hub.broken ↔ k.val ∈ s.hub.broken))) ∧
      (∃ t, exec (.logtailWrite n w) s = .next t ∧
        let head := s.bar0 (0x102000 + 0x4000 * n)
        t.bar0 (0x102000 + 0x4000 * n) = head ∧
        ((head - w).toNat % 2 ^ 32 ≤ 256 → t.bar0 (0x102008 + 0x4000 * n) = BitVec.ofNat 64 (field w 0 32)) ∧
        (256 < (head - w).toNat % 2 ^ 32 → t = s))) ∧
    (∀ bs, s.hostWindow 16 (off + bs.length) = true ∨ s.hostWindow 17 (off + bs.length) = true →
      ∃ t, exec (.hostMemoryAccess (.store off bs)) s = .next t ∧
        (Memory.wf s.mem = true →
          (∀ i a, i < bs.length → homePa [] (2 ^ 47 + off + i) = some a → slook s.reds (lineOf a) = none) →
          (∀ i a b, bs[i]? = some b → homePa [] (2 ^ 47 + off + i) = some a → t.byte a = b ∧ t.homeByte a = b) ∧
          (∀ a, (∀ i < bs.length, homePa [] (2 ^ 47 + off + i) ≠ some a) → t.byte a = s.byte a ∧ t.homeByte a = s.homeByte a))) ∧
    (∀ m, s.hostWindow 16 (off + m) = true ∨ s.hostWindow 17 (off + m) = true → s.hub.egress = false →
      ∃ t, exec (.hostMemoryAccess (.load off m)) s = .next t ∧
        ((∀ i a, i < m → homePa [] (2 ^ 47 + off + i) = some a → slook s.reds (lineOf a) = none) →
          t.mem = s.mem ∧
          ((∃ i a, i < m ∧ homePa [] (2 ^ 47 + off + i) = some a ∧ (lineOf a ∈ s.damaged ∨ lineOf a ∈ s.poison)) →
            t.hub.hostRead = none) ∧
          ((∀ i a, i < m → homePa [] (2 ^ 47 + off + i) = some a → lineOf a ∉ s.damaged ∧ lineOf a ∉ s.poison) →
            t.hub.hostRead = some ((List.range m).map fun i => s.byte ((homePa [] (2 ^ 47 + off + i)).getD 0))))) ∧
    (∃ t, exec (.hostTlpReceive h off false) s = .next s ∧ exec (.hostTlpReceive h off true) s = .next t ∧ t.mem = s.mem ∧
      (link ∈ s.hub.hostDown → t = s) ∧ (link ∉ s.hub.hostDown → logged t HOSTL (BitVec.ofNat 64 off))) ∧
    (∃ t, exec (.hostLinkDown h) s = .next t ∧ t.mem = s.mem ∧ (link ∈ s.hub.hostDown → t = s) ∧
      (link ∉ s.hub.hostDown → h = 0 ∨ Config.secondLink = true →
        link ∈ t.hub.hostDown ∧ t.linkIn link = false ∧ logged t HOSTL 0 ∧ bitOf (t.bar0 0x170000).toNat link = true)) ∧
    (∀ narrow, ∃ t, exec (.hostLinkReturn h narrow) s = .next t ∧ t.mem = s.mem ∧
      (link ∉ s.hub.hostDown → (narrow = false → t = s) ∧ (narrow = true → s.isReady (.host h) = true → logged t LDEG 0)) ∧
      (link ∈ s.hub.hostDown → link ∉ t.hub.hostDown ∧ (narrow = true → logged t LDEG 0) ∧
        (narrow = false → t.hub.interrupts =
          if h = 0 ∧ s.bar0 0x170000 &&& s.bar0 0x170008 ≠ 0 then s.hub.interrupts + 1 else s.hub.interrupts))) ∧
    (∀ f, ∃ t, exec (.singleFault f) s = .next t ∧ match f with
      | .counter a ok => (ok = false → handleOk a = true → hModule a = s.hub.module →
          (let u := counterUnit a; s.silent u.1 u.2.1 u.2.2 = false) → t.counterBad a = true ∧ t.counters = s.counters)
      | .coreState x _ ok => (ok = true → t.cores = s.cores ∧ t.mem = s.mem) ∧
          (ok = false → s.silent (dieOf x) 0 (x % 64) = false → (s.core x).acted = false →
            ∀ y, ((t.core x).strand y).running = false)
      | .heapEntry d i ok => (ok = false → ∀ e, (s.kdie d).heap[i]? = some e → ∃ e', (t.kdie d).heap[i]? = some e' ∧ e'.bad = true)
      | .logic x => (t.core x).mops = (s.core x).mops ∧ ((s.core x).frozen = none → (∃ y, ((s.core x).strand y).running = true) →
          ∃ y, ((s.core x).strand y).running = true ∧ (t.core x).frozen = some (y, ((s.core x).strand y).pc, 1)) ∧
          (∀ y i m, (s.core x).frozen = some (y, i, m) → (t.core x).frozen = some (y, i, m + 1))
      | .attention d => (tdieOk s.hub.expanders d = true → ∀ e ∈ (t.tdie d).entries, e.running = false)
      | .signature d i ok => (ok = false → ∀ e, (s.tdie d).entries[i]? = some e → e.running = true →
          ∃ e', (t.tdie d).entries[i]? = some e' ∧ e'.rsig &&& e'.wsig ≠ 0)
      | .reducePartial pa ok => (ok = false → ∀ r, slook s.reds (lineOf pa) = some r →
          ∃ r', slook t.reds (lineOf pa) = some r' ∧ r'.bad = true ∧ r'.parts = r.parts)
      | .compare u again => (sequenced u = true → s.isReady u = true →
          (again = true → s.hub.mismatched u = 2 → t.isReady u = false) ∧ (again = false → t.hub.mismatched u = 1))
      | .egress _ => t.hub.egress = true ∧ bitOf (t.bar0 0x170000).toNat 24 = true ∧ t.mem = s.mem
      | .cacheTag .. => t.mem = s.mem ∧ t.cores = s.cores ∧ t.damaged = s.damaged ∧ t.poison = s.poison
      | .channelFlit .. => t.mem = s.mem ∧ t.cores = s.cores
      | .hostFlit _ => t.mem = s.mem ∧ t.cores = s.cores
      | .flit .. => t.mem = s.mem ∧ t.cores = s.cores
      | .line .. => t.mem = s.mem
      | .tile .. => t.mem = s.mem
      | .candidate d _ _ => (t.kdie d).heap = (s.kdie d).heap ∧ t.mem = s.mem
      | .contextEntry .. => t.mem = s.mem ∧ t.cores = s.cores)
end

