-- ==== Sys2Proof/Laws/State.lean ====
section
/-! SUPPORT. The named updates of the state, field by field: what each leaves and what it changes. -/

namespace Sys2Proof.Machine

/-! ## Sparse tables -/

@[simp] theorem slook_sput_self {α : Type} (m : SMap α) (k : Nat) (v : α) : slook (sput m k v) k = some v := by
  induction m with
  | nil => simp [sput, slook]
  | cons p r ih =>
    simp only [sput]
    split
    · simp [slook]
    · split
      · simp [slook]
      · rename_i h _
        simp [slook, h, ih]

theorem slook_sput_of_ne {α : Type} (m : SMap α) {k j : Nat} (v : α) (h : j ≠ k) : slook (sput m k v) j = slook m j := by
  induction m with
  | nil => simp [sput, slook, Ne.symm h]
  | cons p r ih =>
    simp only [sput]
    split
    · rename_i e
      simp [slook, e, Ne.symm h]
    · split
      · simp [slook, Ne.symm h]
      · simp [slook, ih]

@[simp] theorem sget_sput_self {α : Type} (d : α) (m : SMap α) (k : Nat) (v : α) : sget d (sput m k v) k = v := by
  simp [sget]

theorem sget_sput_of_ne {α : Type} (d : α) (m : SMap α) {k j : Nat} (v : α) (h : j ≠ k) :
    sget d (sput m k v) j = sget d m j := by
  simp [sget, slook_sput_of_ne m v h]

/-! ## Cores and dies -/

@[simp] theorem core_setCore (s : State) (c : Nat) (k : Core) : (s.setCore c k).core c = k := by
  simp [State.core, State.setCore]

theorem core_setCore_of_ne (s : State) {c e : Nat} (k : Core) (h : e ≠ c) : (s.setCore c k).core e = s.core e := by
  simp [State.core, State.setCore, sget_sput_of_ne _ _ _ h]

@[simp] theorem here_setHere (s : State) (k : Core) : (s.setHere k).here = k := by
  simp [State.here, State.setHere, State.core, State.setCore]

@[simp] theorem kdie_setKdie (s : State) (d : Nat) (k : KDie) : (s.setKdie d k).kdie d = k := by
  simp [State.kdie, State.setKdie]

theorem kdie_setKdie_of_ne (s : State) {d e : Nat} (k : KDie) (h : e ≠ d) : (s.setKdie d k).kdie e = s.kdie e := by
  simp [State.kdie, State.setKdie, sget_sput_of_ne _ _ _ h]

@[simp] theorem tdie_setTdie (s : State) (n : Nat) (t : TDie) : (s.setTdie n t).tdie n = t := by
  simp [State.tdie, State.setTdie]

theorem tdie_setTdie_of_ne (s : State) {n e : Nat} (t : TDie) (h : e ≠ n) : (s.setTdie n t).tdie e = s.tdie e := by
  simp [State.tdie, State.setTdie, sget_sput_of_ne _ _ _ h]

@[simp] theorem strand_setStrand (c : Core) (k : StrandId) (t : Strand) : (c.setStrand k t).strand k = t := by
  cases k <;> rfl

theorem strand_setStrand_of_ne (c : Core) {k j : StrandId} (t : Strand) (h : j ≠ k) :
    (c.setStrand k t).strand j = c.strand j := by
  cases k <;> cases j <;> first | rfl | exact absurd rfl h

/-! ## State.setCore -/

@[simp] theorem setCore_agenda (s : State) (c : Nat) (k : Core) : (s.setCore c k).agenda = s.agenda := rfl
@[simp] theorem setCore_tick (s : State) (c : Nat) (k : Core) : (s.setCore c k).tick = s.tick := rfl
@[simp] theorem setCore_draws (s : State) (c : Nat) (k : Core) : (s.setCore c k).draws = s.draws := rfl
@[simp] theorem setCore_cur (s : State) (c : Nat) (k : Core) : (s.setCore c k).cur = s.cur := rfl
@[simp] theorem setCore_status (s : State) (c : Nat) (k : Core) : (s.setCore c k).status = s.status := rfl
@[simp] theorem setCore_powered (s : State) (c : Nat) (k : Core) : (s.setCore c k).powered = s.powered := rfl
@[simp] theorem setCore_now (s : State) (c : Nat) (k : Core) : (s.setCore c k).now = s.now := rfl
@[simp] theorem setCore_kdies (s : State) (c : Nat) (k : Core) : (s.setCore c k).kdies = s.kdies := rfl
@[simp] theorem setCore_tdies (s : State) (c : Nat) (k : Core) : (s.setCore c k).tdies = s.tdies := rfl
@[simp] theorem setCore_hub (s : State) (c : Nat) (k : Core) : (s.setCore c k).hub = s.hub := rfl
@[simp] theorem setCore_mem (s : State) (c : Nat) (k : Core) : (s.setCore c k).mem = s.mem := rfl
@[simp] theorem setCore_poison (s : State) (c : Nat) (k : Core) : (s.setCore c k).poison = s.poison := rfl
@[simp] theorem setCore_damaged (s : State) (c : Nat) (k : Core) : (s.setCore c k).damaged = s.damaged := rfl
@[simp] theorem setCore_damagedBy (s : State) (c : Nat) (k : Core) : (s.setCore c k).damagedBy = s.damagedBy := rfl
@[simp] theorem setCore_dirty (s : State) (c : Nat) (k : Core) : (s.setCore c k).dirty = s.dirty := rfl
@[simp] theorem setCore_dirtyAt (s : State) (c : Nat) (k : Core) : (s.setCore c k).dirtyAt = s.dirtyAt := rfl
@[simp] theorem setCore_cached (s : State) (c : Nat) (k : Core) : (s.setCore c k).cached = s.cached := rfl
@[simp] theorem setCore_heldWrite (s : State) (c : Nat) (k : Core) : (s.setCore c k).heldWrite = s.heldWrite := rfl
@[simp] theorem setCore_leases (s : State) (c : Nat) (k : Core) : (s.setCore c k).leases = s.leases := rfl
@[simp] theorem setCore_ltime (s : State) (c : Nat) (k : Core) : (s.setCore c k).ltime = s.ltime := rfl
@[simp] theorem setCore_reds (s : State) (c : Nat) (k : Core) : (s.setCore c k).reds = s.reds := rfl
@[simp] theorem setCore_wbs (s : State) (c : Nat) (k : Core) : (s.setCore c k).wbs = s.wbs := rfl
@[simp] theorem setCore_wbuf (s : State) (c : Nat) (k : Core) : (s.setCore c k).wbuf = s.wbuf := rfl
@[simp] theorem setCore_tlb (s : State) (c : Nat) (k : Core) : (s.setCore c k).tlb = s.tlb := rfl
@[simp] theorem setCore_counters (s : State) (c : Nat) (k : Core) : (s.setCore c k).counters = s.counters := rfl
@[simp] theorem setCore_badCounters (s : State) (c : Nat) (k : Core) : (s.setCore c k).badCounters = s.badCounters := rfl
@[simp] theorem setCore_satCounters (s : State) (c : Nat) (k : Core) : (s.setCore c k).satCounters = s.satCounters := rfl
@[simp] theorem setCore_adds (s : State) (c : Nat) (k : Core) : (s.setCore c k).adds = s.adds := rfl
@[simp] theorem setCore_arrivals (s : State) (c : Nat) (k : Core) : (s.setCore c k).arrivals = s.arrivals := rfl
@[simp] theorem setCore_cmds (s : State) (c : Nat) (k : Core) : (s.setCore c k).cmds = s.cmds := rfl
@[simp] theorem setCore_nextCmd (s : State) (c : Nat) (k : Core) : (s.setCore c k).nextCmd = s.nextCmd := rfl
@[simp] theorem setCore_ctxMsgs (s : State) (c : Nat) (k : Core) : (s.setCore c k).ctxMsgs = s.ctxMsgs := rfl
@[simp] theorem setCore_colls (s : State) (c : Nat) (k : Core) : (s.setCore c k).colls = s.colls := rfl
@[simp] theorem setCore_msgs (s : State) (c : Nat) (k : Core) : (s.setCore c k).msgs = s.msgs := rfl

/-! ## State.setHere -/

@[simp] theorem setHere_agenda (s : State) (k : Core) : (s.setHere k).agenda = s.agenda := rfl
@[simp] theorem setHere_tick (s : State) (k : Core) : (s.setHere k).tick = s.tick := rfl
@[simp] theorem setHere_draws (s : State) (k : Core) : (s.setHere k).draws = s.draws := rfl
@[simp] theorem setHere_cur (s : State) (k : Core) : (s.setHere k).cur = s.cur := rfl
@[simp] theorem setHere_status (s : State) (k : Core) : (s.setHere k).status = s.status := rfl
@[simp] theorem setHere_powered (s : State) (k : Core) : (s.setHere k).powered = s.powered := rfl
@[simp] theorem setHere_now (s : State) (k : Core) : (s.setHere k).now = s.now := rfl
@[simp] theorem setHere_kdies (s : State) (k : Core) : (s.setHere k).kdies = s.kdies := rfl
@[simp] theorem setHere_tdies (s : State) (k : Core) : (s.setHere k).tdies = s.tdies := rfl
@[simp] theorem setHere_hub (s : State) (k : Core) : (s.setHere k).hub = s.hub := rfl
@[simp] theorem setHere_mem (s : State) (k : Core) : (s.setHere k).mem = s.mem := rfl
@[simp] theorem setHere_poison (s : State) (k : Core) : (s.setHere k).poison = s.poison := rfl
@[simp] theorem setHere_damaged (s : State) (k : Core) : (s.setHere k).damaged = s.damaged := rfl
@[simp] theorem setHere_damagedBy (s : State) (k : Core) : (s.setHere k).damagedBy = s.damagedBy := rfl
@[simp] theorem setHere_dirty (s : State) (k : Core) : (s.setHere k).dirty = s.dirty := rfl
@[simp] theorem setHere_dirtyAt (s : State) (k : Core) : (s.setHere k).dirtyAt = s.dirtyAt := rfl
@[simp] theorem setHere_cached (s : State) (k : Core) : (s.setHere k).cached = s.cached := rfl
@[simp] theorem setHere_heldWrite (s : State) (k : Core) : (s.setHere k).heldWrite = s.heldWrite := rfl
@[simp] theorem setHere_leases (s : State) (k : Core) : (s.setHere k).leases = s.leases := rfl
@[simp] theorem setHere_ltime (s : State) (k : Core) : (s.setHere k).ltime = s.ltime := rfl
@[simp] theorem setHere_reds (s : State) (k : Core) : (s.setHere k).reds = s.reds := rfl
@[simp] theorem setHere_wbs (s : State) (k : Core) : (s.setHere k).wbs = s.wbs := rfl
@[simp] theorem setHere_wbuf (s : State) (k : Core) : (s.setHere k).wbuf = s.wbuf := rfl
@[simp] theorem setHere_tlb (s : State) (k : Core) : (s.setHere k).tlb = s.tlb := rfl
@[simp] theorem setHere_counters (s : State) (k : Core) : (s.setHere k).counters = s.counters := rfl
@[simp] theorem setHere_badCounters (s : State) (k : Core) : (s.setHere k).badCounters = s.badCounters := rfl
@[simp] theorem setHere_satCounters (s : State) (k : Core) : (s.setHere k).satCounters = s.satCounters := rfl
@[simp] theorem setHere_adds (s : State) (k : Core) : (s.setHere k).adds = s.adds := rfl
@[simp] theorem setHere_arrivals (s : State) (k : Core) : (s.setHere k).arrivals = s.arrivals := rfl
@[simp] theorem setHere_cmds (s : State) (k : Core) : (s.setHere k).cmds = s.cmds := rfl
@[simp] theorem setHere_nextCmd (s : State) (k : Core) : (s.setHere k).nextCmd = s.nextCmd := rfl
@[simp] theorem setHere_ctxMsgs (s : State) (k : Core) : (s.setHere k).ctxMsgs = s.ctxMsgs := rfl
@[simp] theorem setHere_colls (s : State) (k : Core) : (s.setHere k).colls = s.colls := rfl
@[simp] theorem setHere_msgs (s : State) (k : Core) : (s.setHere k).msgs = s.msgs := rfl

/-! ## State.setKdie -/

@[simp] theorem setKdie_agenda (s : State) (d : Nat) (k : KDie) : (s.setKdie d k).agenda = s.agenda := rfl
@[simp] theorem setKdie_tick (s : State) (d : Nat) (k : KDie) : (s.setKdie d k).tick = s.tick := rfl
@[simp] theorem setKdie_draws (s : State) (d : Nat) (k : KDie) : (s.setKdie d k).draws = s.draws := rfl
@[simp] theorem setKdie_cur (s : State) (d : Nat) (k : KDie) : (s.setKdie d k).cur = s.cur := rfl
@[simp] theorem setKdie_status (s : State) (d : Nat) (k : KDie) : (s.setKdie d k).status = s.status := rfl
@[simp] theorem setKdie_powered (s : State) (d : Nat) (k : KDie) : (s.setKdie d k).powered = s.powered := rfl
@[simp] theorem setKdie_now (s : State) (d : Nat) (k : KDie) : (s.setKdie d k).now = s.now := rfl
@[simp] theorem setKdie_cores (s : State) (d : Nat) (k : KDie) : (s.setKdie d k).cores = s.cores := rfl
@[simp] theorem setKdie_tdies (s : State) (d : Nat) (k : KDie) : (s.setKdie d k).tdies = s.tdies := rfl
@[simp] theorem setKdie_hub (s : State) (d : Nat) (k : KDie) : (s.setKdie d k).hub = s.hub := rfl
@[simp] theorem setKdie_mem (s : State) (d : Nat) (k : KDie) : (s.setKdie d k).mem = s.mem := rfl
@[simp] theorem setKdie_poison (s : State) (d : Nat) (k : KDie) : (s.setKdie d k).poison = s.poison := rfl
@[simp] theorem setKdie_damaged (s : State) (d : Nat) (k : KDie) : (s.setKdie d k).damaged = s.damaged := rfl
@[simp] theorem setKdie_damagedBy (s : State) (d : Nat) (k : KDie) : (s.setKdie d k).damagedBy = s.damagedBy := rfl
@[simp] theorem setKdie_dirty (s : State) (d : Nat) (k : KDie) : (s.setKdie d k).dirty = s.dirty := rfl
@[simp] theorem setKdie_dirtyAt (s : State) (d : Nat) (k : KDie) : (s.setKdie d k).dirtyAt = s.dirtyAt := rfl
@[simp] theorem setKdie_cached (s : State) (d : Nat) (k : KDie) : (s.setKdie d k).cached = s.cached := rfl
@[simp] theorem setKdie_heldWrite (s : State) (d : Nat) (k : KDie) : (s.setKdie d k).heldWrite = s.heldWrite := rfl
@[simp] theorem setKdie_leases (s : State) (d : Nat) (k : KDie) : (s.setKdie d k).leases = s.leases := rfl
@[simp] theorem setKdie_ltime (s : State) (d : Nat) (k : KDie) : (s.setKdie d k).ltime = s.ltime := rfl
@[simp] theorem setKdie_reds (s : State) (d : Nat) (k : KDie) : (s.setKdie d k).reds = s.reds := rfl
@[simp] theorem setKdie_wbs (s : State) (d : Nat) (k : KDie) : (s.setKdie d k).wbs = s.wbs := rfl
@[simp] theorem setKdie_wbuf (s : State) (d : Nat) (k : KDie) : (s.setKdie d k).wbuf = s.wbuf := rfl
@[simp] theorem setKdie_tlb (s : State) (d : Nat) (k : KDie) : (s.setKdie d k).tlb = s.tlb := rfl
@[simp] theorem setKdie_counters (s : State) (d : Nat) (k : KDie) : (s.setKdie d k).counters = s.counters := rfl
@[simp] theorem setKdie_badCounters (s : State) (d : Nat) (k : KDie) : (s.setKdie d k).badCounters = s.badCounters := rfl
@[simp] theorem setKdie_satCounters (s : State) (d : Nat) (k : KDie) : (s.setKdie d k).satCounters = s.satCounters := rfl
@[simp] theorem setKdie_adds (s : State) (d : Nat) (k : KDie) : (s.setKdie d k).adds = s.adds := rfl
@[simp] theorem setKdie_arrivals (s : State) (d : Nat) (k : KDie) : (s.setKdie d k).arrivals = s.arrivals := rfl
@[simp] theorem setKdie_cmds (s : State) (d : Nat) (k : KDie) : (s.setKdie d k).cmds = s.cmds := rfl
@[simp] theorem setKdie_nextCmd (s : State) (d : Nat) (k : KDie) : (s.setKdie d k).nextCmd = s.nextCmd := rfl
@[simp] theorem setKdie_ctxMsgs (s : State) (d : Nat) (k : KDie) : (s.setKdie d k).ctxMsgs = s.ctxMsgs := rfl
@[simp] theorem setKdie_colls (s : State) (d : Nat) (k : KDie) : (s.setKdie d k).colls = s.colls := rfl
@[simp] theorem setKdie_msgs (s : State) (d : Nat) (k : KDie) : (s.setKdie d k).msgs = s.msgs := rfl

/-! ## State.setTdie -/

@[simp] theorem setTdie_agenda (s : State) (n : Nat) (t : TDie) : (s.setTdie n t).agenda = s.agenda := rfl
@[simp] theorem setTdie_tick (s : State) (n : Nat) (t : TDie) : (s.setTdie n t).tick = s.tick := rfl
@[simp] theorem setTdie_draws (s : State) (n : Nat) (t : TDie) : (s.setTdie n t).draws = s.draws := rfl
@[simp] theorem setTdie_cur (s : State) (n : Nat) (t : TDie) : (s.setTdie n t).cur = s.cur := rfl
@[simp] theorem setTdie_status (s : State) (n : Nat) (t : TDie) : (s.setTdie n t).status = s.status := rfl
@[simp] theorem setTdie_powered (s : State) (n : Nat) (t : TDie) : (s.setTdie n t).powered = s.powered := rfl
@[simp] theorem setTdie_now (s : State) (n : Nat) (t : TDie) : (s.setTdie n t).now = s.now := rfl
@[simp] theorem setTdie_cores (s : State) (n : Nat) (t : TDie) : (s.setTdie n t).cores = s.cores := rfl
@[simp] theorem setTdie_kdies (s : State) (n : Nat) (t : TDie) : (s.setTdie n t).kdies = s.kdies := rfl
@[simp] theorem setTdie_hub (s : State) (n : Nat) (t : TDie) : (s.setTdie n t).hub = s.hub := rfl
@[simp] theorem setTdie_mem (s : State) (n : Nat) (t : TDie) : (s.setTdie n t).mem = s.mem := rfl
@[simp] theorem setTdie_poison (s : State) (n : Nat) (t : TDie) : (s.setTdie n t).poison = s.poison := rfl
@[simp] theorem setTdie_damaged (s : State) (n : Nat) (t : TDie) : (s.setTdie n t).damaged = s.damaged := rfl
@[simp] theorem setTdie_damagedBy (s : State) (n : Nat) (t : TDie) : (s.setTdie n t).damagedBy = s.damagedBy := rfl
@[simp] theorem setTdie_dirty (s : State) (n : Nat) (t : TDie) : (s.setTdie n t).dirty = s.dirty := rfl
@[simp] theorem setTdie_dirtyAt (s : State) (n : Nat) (t : TDie) : (s.setTdie n t).dirtyAt = s.dirtyAt := rfl
@[simp] theorem setTdie_cached (s : State) (n : Nat) (t : TDie) : (s.setTdie n t).cached = s.cached := rfl
@[simp] theorem setTdie_heldWrite (s : State) (n : Nat) (t : TDie) : (s.setTdie n t).heldWrite = s.heldWrite := rfl
@[simp] theorem setTdie_leases (s : State) (n : Nat) (t : TDie) : (s.setTdie n t).leases = s.leases := rfl
@[simp] theorem setTdie_ltime (s : State) (n : Nat) (t : TDie) : (s.setTdie n t).ltime = s.ltime := rfl
@[simp] theorem setTdie_reds (s : State) (n : Nat) (t : TDie) : (s.setTdie n t).reds = s.reds := rfl
@[simp] theorem setTdie_wbs (s : State) (n : Nat) (t : TDie) : (s.setTdie n t).wbs = s.wbs := rfl
@[simp] theorem setTdie_wbuf (s : State) (n : Nat) (t : TDie) : (s.setTdie n t).wbuf = s.wbuf := rfl
@[simp] theorem setTdie_tlb (s : State) (n : Nat) (t : TDie) : (s.setTdie n t).tlb = s.tlb := rfl
@[simp] theorem setTdie_counters (s : State) (n : Nat) (t : TDie) : (s.setTdie n t).counters = s.counters := rfl
@[simp] theorem setTdie_badCounters (s : State) (n : Nat) (t : TDie) : (s.setTdie n t).badCounters = s.badCounters := rfl
@[simp] theorem setTdie_satCounters (s : State) (n : Nat) (t : TDie) : (s.setTdie n t).satCounters = s.satCounters := rfl
@[simp] theorem setTdie_adds (s : State) (n : Nat) (t : TDie) : (s.setTdie n t).adds = s.adds := rfl
@[simp] theorem setTdie_arrivals (s : State) (n : Nat) (t : TDie) : (s.setTdie n t).arrivals = s.arrivals := rfl
@[simp] theorem setTdie_cmds (s : State) (n : Nat) (t : TDie) : (s.setTdie n t).cmds = s.cmds := rfl
@[simp] theorem setTdie_nextCmd (s : State) (n : Nat) (t : TDie) : (s.setTdie n t).nextCmd = s.nextCmd := rfl
@[simp] theorem setTdie_ctxMsgs (s : State) (n : Nat) (t : TDie) : (s.setTdie n t).ctxMsgs = s.ctxMsgs := rfl
@[simp] theorem setTdie_colls (s : State) (n : Nat) (t : TDie) : (s.setTdie n t).colls = s.colls := rfl
@[simp] theorem setTdie_msgs (s : State) (n : Nat) (t : TDie) : (s.setTdie n t).msgs = s.msgs := rfl

/-! ## State.drew -/

@[simp] theorem drew_agenda (s : State) : (s.drew).agenda = s.agenda := rfl
@[simp] theorem drew_tick (s : State) : (s.drew).tick = s.tick := rfl
@[simp] theorem drew_cur (s : State) : (s.drew).cur = s.cur := rfl
@[simp] theorem drew_status (s : State) : (s.drew).status = s.status := rfl
@[simp] theorem drew_powered (s : State) : (s.drew).powered = s.powered := rfl
@[simp] theorem drew_now (s : State) : (s.drew).now = s.now := rfl
@[simp] theorem drew_cores (s : State) : (s.drew).cores = s.cores := rfl
@[simp] theorem drew_kdies (s : State) : (s.drew).kdies = s.kdies := rfl
@[simp] theorem drew_tdies (s : State) : (s.drew).tdies = s.tdies := rfl
@[simp] theorem drew_hub (s : State) : (s.drew).hub = s.hub := rfl
@[simp] theorem drew_mem (s : State) : (s.drew).mem = s.mem := rfl
@[simp] theorem drew_poison (s : State) : (s.drew).poison = s.poison := rfl
@[simp] theorem drew_damaged (s : State) : (s.drew).damaged = s.damaged := rfl
@[simp] theorem drew_damagedBy (s : State) : (s.drew).damagedBy = s.damagedBy := rfl
@[simp] theorem drew_dirty (s : State) : (s.drew).dirty = s.dirty := rfl
@[simp] theorem drew_dirtyAt (s : State) : (s.drew).dirtyAt = s.dirtyAt := rfl
@[simp] theorem drew_cached (s : State) : (s.drew).cached = s.cached := rfl
@[simp] theorem drew_heldWrite (s : State) : (s.drew).heldWrite = s.heldWrite := rfl
@[simp] theorem drew_leases (s : State) : (s.drew).leases = s.leases := rfl
@[simp] theorem drew_ltime (s : State) : (s.drew).ltime = s.ltime := rfl
@[simp] theorem drew_reds (s : State) : (s.drew).reds = s.reds := rfl
@[simp] theorem drew_wbs (s : State) : (s.drew).wbs = s.wbs := rfl
@[simp] theorem drew_wbuf (s : State) : (s.drew).wbuf = s.wbuf := rfl
@[simp] theorem drew_tlb (s : State) : (s.drew).tlb = s.tlb := rfl
@[simp] theorem drew_counters (s : State) : (s.drew).counters = s.counters := rfl
@[simp] theorem drew_badCounters (s : State) : (s.drew).badCounters = s.badCounters := rfl
@[simp] theorem drew_satCounters (s : State) : (s.drew).satCounters = s.satCounters := rfl
@[simp] theorem drew_adds (s : State) : (s.drew).adds = s.adds := rfl
@[simp] theorem drew_arrivals (s : State) : (s.drew).arrivals = s.arrivals := rfl
@[simp] theorem drew_cmds (s : State) : (s.drew).cmds = s.cmds := rfl
@[simp] theorem drew_nextCmd (s : State) : (s.drew).nextCmd = s.nextCmd := rfl
@[simp] theorem drew_ctxMsgs (s : State) : (s.drew).ctxMsgs = s.ctxMsgs := rfl
@[simp] theorem drew_colls (s : State) : (s.drew).colls = s.colls := rfl
@[simp] theorem drew_msgs (s : State) : (s.drew).msgs = s.msgs := rfl

@[simp] theorem drew_draws (s : State) : s.drew.draws = s.draws + 1 := rfl

@[simp] theorem setKdie_core (s : State) (d : Nat) (k : KDie) (c : Nat) : (s.setKdie d k).core c = s.core c := rfl
@[simp] theorem setTdie_core (s : State) (n : Nat) (t : TDie) (c : Nat) : (s.setTdie n t).core c = s.core c := rfl
@[simp] theorem setCore_kdie (s : State) (c : Nat) (k : Core) (d : Nat) : (s.setCore c k).kdie d = s.kdie d := rfl
@[simp] theorem setCore_tdie (s : State) (c : Nat) (k : Core) (n : Nat) : (s.setCore c k).tdie n = s.tdie n := rfl
@[simp] theorem drew_core (s : State) (c : Nat) : s.drew.core c = s.core c := rfl

/-! ## Core.setStrand -/

@[simp] theorem setStrand_cycle (c : Core) (k : StrandId) (t : Strand) : (c.setStrand k t).cycle = c.cycle := by cases k <;> rfl
@[simp] theorem setStrand_seq (c : Core) (k : StrandId) (t : Strand) : (c.setStrand k t).seq = c.seq := by cases k <;> rfl
@[simp] theorem setStrand_queues (c : Core) (k : StrandId) (t : Strand) : (c.setStrand k t).queues = c.queues := by cases k <;> rfl
@[simp] theorem setStrand_joinmask (c : Core) (k : StrandId) (t : Strand) : (c.setStrand k t).joinmask = c.joinmask := by cases k <;> rfl
@[simp] theorem setStrand_sbcheck (c : Core) (k : StrandId) (t : Strand) : (c.setStrand k t).sbcheck = c.sbcheck := by cases k <;> rfl
@[simp] theorem setStrand_spsplit (c : Core) (k : StrandId) (t : Strand) : (c.setStrand k t).spsplit = c.spsplit := by cases k <;> rfl
@[simp] theorem setStrand_cyc (c : Core) (k : StrandId) (t : Strand) : (c.setStrand k t).cyc = c.cyc := by cases k <;> rfl
@[simp] theorem setStrand_ctx (c : Core) (k : StrandId) (t : Strand) : (c.setStrand k t).ctx = c.ctx := by cases k <;> rfl
@[simp] theorem setStrand_lineageLo (c : Core) (k : StrandId) (t : Strand) : (c.setStrand k t).lineageLo = c.lineageLo := by cases k <;> rfl
@[simp] theorem setStrand_lineageHi (c : Core) (k : StrandId) (t : Strand) : (c.setStrand k t).lineageHi = c.lineageHi := by cases k <;> rfl
@[simp] theorem setStrand_mprog (c : Core) (k : StrandId) (t : Strand) : (c.setStrand k t).mprog = c.mprog := by cases k <;> rfl
@[simp] theorem setStrand_tmiss (c : Core) (k : StrandId) (t : Strand) : (c.setStrand k t).tmiss = c.tmiss := by cases k <;> rfl
@[simp] theorem setStrand_tlooka (c : Core) (k : StrandId) (t : Strand) : (c.setStrand k t).tlooka = c.tlooka := by cases k <;> rfl
@[simp] theorem setStrand_tlookd (c : Core) (k : StrandId) (t : Strand) : (c.setStrand k t).tlookd = c.tlookd := by cases k <;> rfl
@[simp] theorem setStrand_demands (c : Core) (k : StrandId) (t : Strand) : (c.setStrand k t).demands = c.demands := by cases k <;> rfl
@[simp] theorem setStrand_demandNet (c : Core) (k : StrandId) (t : Strand) : (c.setStrand k t).demandNet = c.demandNet := by cases k <;> rfl
@[simp] theorem setStrand_vec (c : Core) (k : StrandId) (t : Strand) : (c.setStrand k t).vec = c.vec := by cases k <;> rfl
@[simp] theorem setStrand_fixed (c : Core) (k : StrandId) (t : Strand) : (c.setStrand k t).fixed = c.fixed := by cases k <;> rfl
@[simp] theorem setStrand_vars (c : Core) (k : StrandId) (t : Strand) : (c.setStrand k t).vars = c.vars := by cases k <;> rfl
@[simp] theorem setStrand_sprs (c : Core) (k : StrandId) (t : Strand) : (c.setStrand k t).sprs = c.sprs := by cases k <;> rfl
@[simp] theorem setStrand_mops (c : Core) (k : StrandId) (t : Strand) : (c.setStrand k t).mops = c.mops := by cases k <;> rfl
@[simp] theorem setStrand_popLog (c : Core) (k : StrandId) (t : Strand) : (c.setStrand k t).popLog = c.popLog := by cases k <;> rfl
@[simp] theorem setStrand_trapLog (c : Core) (k : StrandId) (t : Strand) : (c.setStrand k t).trapLog = c.trapLog := by cases k <;> rfl
@[simp] theorem setStrand_barrier (c : Core) (k : StrandId) (t : Strand) : (c.setStrand k t).barrier = c.barrier := by cases k <;> rfl
@[simp] theorem setStrand_gave (c : Core) (k : StrandId) (t : Strand) : (c.setStrand k t).gave = c.gave := by cases k <;> rfl
@[simp] theorem setStrand_replays (c : Core) (k : StrandId) (t : Strand) : (c.setStrand k t).replays = c.replays := by cases k <;> rfl
@[simp] theorem setStrand_seen (c : Core) (k : StrandId) (t : Strand) : (c.setStrand k t).seen = c.seen := by cases k <;> rfl
@[simp] theorem setStrand_latBy (c : Core) (k : StrandId) (t : Strand) : (c.setStrand k t).latBy = c.latBy := by cases k <;> rfl
@[simp] theorem setStrand_acc (c : Core) (k : StrandId) (t : Strand) : (c.setStrand k t).acc = c.acc := by cases k <;> rfl
@[simp] theorem setStrand_w0 (c : Core) (k : StrandId) (t : Strand) : (c.setStrand k t).w0 = c.w0 := by cases k <;> rfl
@[simp] theorem setStrand_w1 (c : Core) (k : StrandId) (t : Strand) : (c.setStrand k t).w1 = c.w1 := by cases k <;> rfl
@[simp] theorem setStrand_masks (c : Core) (k : StrandId) (t : Strand) : (c.setStrand k t).masks = c.masks := by cases k <;> rfl
@[simp] theorem setStrand_mpRows (c : Core) (k : StrandId) (t : Strand) : (c.setStrand k t).mpRows = c.mpRows := by cases k <;> rfl
@[simp] theorem setStrand_mpBytes (c : Core) (k : StrandId) (t : Strand) : (c.setStrand k t).mpBytes = c.mpBytes := by cases k <;> rfl
@[simp] theorem setStrand_lut (c : Core) (k : StrandId) (t : Strand) : (c.setStrand k t).lut = c.lut := by cases k <;> rfl
@[simp] theorem setStrand_arr (c : Core) (k : StrandId) (t : Strand) : (c.setStrand k t).arr = c.arr := by cases k <;> rfl
@[simp] theorem setStrand_run (c : Core) (k : StrandId) (t : Strand) : (c.setStrand k t).run = c.run := by cases k <;> rfl
@[simp] theorem setStrand_tiles (c : Core) (k : StrandId) (t : Strand) : (c.setStrand k t).tiles = c.tiles := by cases k <;> rfl
@[simp] theorem setStrand_pad (c : Core) (k : StrandId) (t : Strand) : (c.setStrand k t).pad = c.pad := by cases k <;> rfl
@[simp] theorem setStrand_padPoison (c : Core) (k : StrandId) (t : Strand) : (c.setStrand k t).padPoison = c.padPoison := by cases k <;> rfl
@[simp] theorem setStrand_padDamaged (c : Core) (k : StrandId) (t : Strand) : (c.setStrand k t).padDamaged = c.padDamaged := by cases k <;> rfl
@[simp] theorem setStrand_imem (c : Core) (k : StrandId) (t : Strand) : (c.setStrand k t).imem = c.imem := by cases k <;> rfl
@[simp] theorem setStrand_loaded (c : Core) (k : StrandId) (t : Strand) : (c.setStrand k t).loaded = c.loaded := by cases k <;> rfl
@[simp] theorem setStrand_header (c : Core) (k : StrandId) (t : Strand) : (c.setStrand k t).header = c.header := by cases k <;> rfl
@[simp] theorem setStrand_ovl (c : Core) (k : StrandId) (t : Strand) : (c.setStrand k t).ovl = c.ovl := by cases k <;> rfl
@[simp] theorem setStrand_mbox (c : Core) (k : StrandId) (t : Strand) : (c.setStrand k t).mbox = c.mbox := by cases k <;> rfl
@[simp] theorem setStrand_work (c : Core) (k : StrandId) (t : Strand) : (c.setStrand k t).work = c.work := by cases k <;> rfl
@[simp] theorem setStrand_loading (c : Core) (k : StrandId) (t : Strand) : (c.setStrand k t).loading = c.loading := by cases k <;> rfl
@[simp] theorem setStrand_welt (c : Core) (k : StrandId) (t : Strand) : (c.setStrand k t).welt = c.welt := by cases k <;> rfl
@[simp] theorem setStrand_awlq (c : Core) (k : StrandId) (t : Strand) : (c.setStrand k t).awlq = c.awlq := by cases k <;> rfl
@[simp] theorem setStrand_deferred (c : Core) (k : StrandId) (t : Strand) : (c.setStrand k t).deferred = c.deferred := by cases k <;> rfl
@[simp] theorem setStrand_traps (c : Core) (k : StrandId) (t : Strand) : (c.setStrand k t).traps = c.traps := by cases k <;> rfl
@[simp] theorem setStrand_asid (c : Core) (k : StrandId) (t : Strand) : (c.setStrand k t).asid = c.asid := by cases k <;> rfl
@[simp] theorem setStrand_root (c : Core) (k : StrandId) (t : Strand) : (c.setStrand k t).root = c.root := by cases k <;> rfl
@[simp] theorem setStrand_preq (c : Core) (k : StrandId) (t : Strand) : (c.setStrand k t).preq = c.preq := by cases k <;> rfl
@[simp] theorem setStrand_acted (c : Core) (k : StrandId) (t : Strand) : (c.setStrand k t).acted = c.acted := by cases k <;> rfl
@[simp] theorem setStrand_lost (c : Core) (k : StrandId) (t : Strand) : (c.setStrand k t).lost = c.lost := by cases k <;> rfl
@[simp] theorem setStrand_yielded (c : Core) (k : StrandId) (t : Strand) : (c.setStrand k t).yielded = c.yielded := by cases k <;> rfl
@[simp] theorem setStrand_frozen (c : Core) (k : StrandId) (t : Strand) : (c.setStrand k t).frozen = c.frozen := by cases k <;> rfl
@[simp] theorem setStrand_dispatched (c : Core) (k : StrandId) (t : Strand) : (c.setStrand k t).dispatched = c.dispatched := by cases k <;> rfl

end Sys2Proof.Machine
end

