-- ==== Sys2Proof/Laws/Moved.lean ====
section
/-! SUPPORT. What moving past a word leaves: only queues, the pop log, the token count and the strand itself change. -/

namespace Sys2Proof.Machine

/-- A pop changes a core's queues, its pop log and what its strands have given away. -/
theorem popQueue_shape (k : StrandId) (n : Nat) (x : StrandId) (c : Core) :
    ∃ q p g, c.popQueue k n x = { c with queues := q, popLog := p, gave := g } := by
  unfold Core.popQueue
  dsimp only
  split
  · exact ⟨c.queues, c.popLog, c.gave, rfl⟩
  · split
    · exact ⟨_, _, _, rfl⟩
    · exact ⟨_, c.popLog, _, rfl⟩

/-- Pops change a core's queues, its pop log and what its strands have given away. -/
theorem pops_shape (k : StrandId) (n : Nat) (l : List StrandId) (c : Core) :
    ∃ q p g, l.foldl (fun c u => c.popQueue k n u) c = { c with queues := q, popLog := p, gave := g } := by
  induction l generalizing c with
  | nil => exact ⟨c.queues, c.popLog, c.gave, rfl⟩
  | cons x r ih =>
    obtain ⟨q, p, g, e⟩ := popQueue_shape k n x c
    obtain ⟨q', p', g', e'⟩ := ih (c.popQueue k n x)
    exact ⟨q', p', g', by rw [List.foldl_cons, e', e]⟩

/-- Reservations change a core's queues only. -/
theorem reserves_shape (k : StrandId) (n : Nat) (l : List StrandId) (c : Core) :
    ∃ q, l.foldl (fun c u => c.reserve k n u) c = { c with queues := q } := by
  induction l generalizing c with
  | nil => exact ⟨c.queues, rfl⟩
  | cons x r ih =>
    obtain ⟨q, e⟩ := ih (c.reserve k n x)
    exact ⟨q, by rw [List.foldl_cons, e]; rfl⟩

/-- What moving past a word does to its core. -/
theorem moved_here (s : State) (h : Hdr) (l : List Acc) (t : Option Nat) :
    ∃ q p g, (s.moved h l t).here =
      ({ s.here with queues := q, popLog := p, gave := g } : Core).advance s.cur.strand h.wc.val t := by
  obtain ⟨q, p, g, e⟩ := pops_shape s.cur.strand s.here.seq (popsOf l) s.here
  obtain ⟨q', e'⟩ :=
    reserves_shape s.cur.strand s.here.seq (pushesOf l) { s.here with queues := q, popLog := p, gave := g }
  exact ⟨q', p, g, by simp only [State.moved, here_setHere, e, e']⟩

@[simp] theorem advance_cycle (c : Core) (k : StrandId) (n : Nat) (t : Option Nat) : (c.advance k n t).cycle = c.cycle := by
  unfold Core.advance; dsimp only; split <;> simp
@[simp] theorem advance_queues (c : Core) (k : StrandId) (n : Nat) (t : Option Nat) : (c.advance k n t).queues = c.queues := by
  unfold Core.advance; dsimp only; split <;> simp
@[simp] theorem advance_joinmask (c : Core) (k : StrandId) (n : Nat) (t : Option Nat) : (c.advance k n t).joinmask = c.joinmask := by
  unfold Core.advance; dsimp only; split <;> simp
@[simp] theorem advance_sbcheck (c : Core) (k : StrandId) (n : Nat) (t : Option Nat) : (c.advance k n t).sbcheck = c.sbcheck := by
  unfold Core.advance; dsimp only; split <;> simp
@[simp] theorem advance_spsplit (c : Core) (k : StrandId) (n : Nat) (t : Option Nat) : (c.advance k n t).spsplit = c.spsplit := by
  unfold Core.advance; dsimp only; split <;> simp
@[simp] theorem advance_cyc (c : Core) (k : StrandId) (n : Nat) (t : Option Nat) : (c.advance k n t).cyc = c.cyc := by
  unfold Core.advance; dsimp only; split <;> simp
@[simp] theorem advance_ctx (c : Core) (k : StrandId) (n : Nat) (t : Option Nat) : (c.advance k n t).ctx = c.ctx := by
  unfold Core.advance; dsimp only; split <;> simp
@[simp] theorem advance_lineageLo (c : Core) (k : StrandId) (n : Nat) (t : Option Nat) : (c.advance k n t).lineageLo = c.lineageLo := by
  unfold Core.advance; dsimp only; split <;> simp
@[simp] theorem advance_lineageHi (c : Core) (k : StrandId) (n : Nat) (t : Option Nat) : (c.advance k n t).lineageHi = c.lineageHi := by
  unfold Core.advance; dsimp only; split <;> simp
@[simp] theorem advance_mprog (c : Core) (k : StrandId) (n : Nat) (t : Option Nat) : (c.advance k n t).mprog = c.mprog := by
  unfold Core.advance; dsimp only; split <;> simp
@[simp] theorem advance_tmiss (c : Core) (k : StrandId) (n : Nat) (t : Option Nat) : (c.advance k n t).tmiss = c.tmiss := by
  unfold Core.advance; dsimp only; split <;> simp
@[simp] theorem advance_tlooka (c : Core) (k : StrandId) (n : Nat) (t : Option Nat) : (c.advance k n t).tlooka = c.tlooka := by
  unfold Core.advance; dsimp only; split <;> simp
@[simp] theorem advance_tlookd (c : Core) (k : StrandId) (n : Nat) (t : Option Nat) : (c.advance k n t).tlookd = c.tlookd := by
  unfold Core.advance; dsimp only; split <;> simp
@[simp] theorem advance_demands (c : Core) (k : StrandId) (n : Nat) (t : Option Nat) : (c.advance k n t).demands = c.demands := by
  unfold Core.advance; dsimp only; split <;> simp
@[simp] theorem advance_demandNet (c : Core) (k : StrandId) (n : Nat) (t : Option Nat) : (c.advance k n t).demandNet = c.demandNet := by
  unfold Core.advance; dsimp only; split <;> simp
@[simp] theorem advance_vec (c : Core) (k : StrandId) (n : Nat) (t : Option Nat) : (c.advance k n t).vec = c.vec := by
  unfold Core.advance; dsimp only; split <;> simp
@[simp] theorem advance_fixed (c : Core) (k : StrandId) (n : Nat) (t : Option Nat) : (c.advance k n t).fixed = c.fixed := by
  unfold Core.advance; dsimp only; split <;> simp
@[simp] theorem advance_vars (c : Core) (k : StrandId) (n : Nat) (t : Option Nat) : (c.advance k n t).vars = c.vars := by
  unfold Core.advance; dsimp only; split <;> simp
@[simp] theorem advance_sprs (c : Core) (k : StrandId) (n : Nat) (t : Option Nat) : (c.advance k n t).sprs = c.sprs := by
  unfold Core.advance; dsimp only; split <;> simp
@[simp] theorem advance_mops (c : Core) (k : StrandId) (n : Nat) (t : Option Nat) : (c.advance k n t).mops = c.mops := by
  unfold Core.advance; dsimp only; split <;> simp
@[simp] theorem advance_popLog (c : Core) (k : StrandId) (n : Nat) (t : Option Nat) : (c.advance k n t).popLog = c.popLog := by
  unfold Core.advance; dsimp only; split <;> simp
@[simp] theorem advance_trapLog (c : Core) (k : StrandId) (n : Nat) (t : Option Nat) : (c.advance k n t).trapLog = c.trapLog := by
  unfold Core.advance; dsimp only; split <;> simp
@[simp] theorem advance_barrier (c : Core) (k : StrandId) (n : Nat) (t : Option Nat) : (c.advance k n t).barrier = c.barrier := by
  unfold Core.advance; dsimp only; split <;> simp
@[simp] theorem advance_gave (c : Core) (k : StrandId) (n : Nat) (t : Option Nat) : (c.advance k n t).gave = c.gave := by
  unfold Core.advance; dsimp only; split <;> simp
@[simp] theorem advance_replays (c : Core) (k : StrandId) (n : Nat) (t : Option Nat) : (c.advance k n t).replays = c.replays := by
  unfold Core.advance; dsimp only; split <;> simp
@[simp] theorem advance_seen (c : Core) (k : StrandId) (n : Nat) (t : Option Nat) : (c.advance k n t).seen = c.seen := by
  unfold Core.advance; dsimp only; split <;> simp
@[simp] theorem advance_latBy (c : Core) (k : StrandId) (n : Nat) (t : Option Nat) : (c.advance k n t).latBy = c.latBy := by
  unfold Core.advance; dsimp only; split <;> simp
@[simp] theorem advance_acc (c : Core) (k : StrandId) (n : Nat) (t : Option Nat) : (c.advance k n t).acc = c.acc := by
  unfold Core.advance; dsimp only; split <;> simp
@[simp] theorem advance_w0 (c : Core) (k : StrandId) (n : Nat) (t : Option Nat) : (c.advance k n t).w0 = c.w0 := by
  unfold Core.advance; dsimp only; split <;> simp
@[simp] theorem advance_w1 (c : Core) (k : StrandId) (n : Nat) (t : Option Nat) : (c.advance k n t).w1 = c.w1 := by
  unfold Core.advance; dsimp only; split <;> simp
@[simp] theorem advance_masks (c : Core) (k : StrandId) (n : Nat) (t : Option Nat) : (c.advance k n t).masks = c.masks := by
  unfold Core.advance; dsimp only; split <;> simp
@[simp] theorem advance_mpRows (c : Core) (k : StrandId) (n : Nat) (t : Option Nat) : (c.advance k n t).mpRows = c.mpRows := by
  unfold Core.advance; dsimp only; split <;> simp
@[simp] theorem advance_mpBytes (c : Core) (k : StrandId) (n : Nat) (t : Option Nat) : (c.advance k n t).mpBytes = c.mpBytes := by
  unfold Core.advance; dsimp only; split <;> simp
@[simp] theorem advance_lut (c : Core) (k : StrandId) (n : Nat) (t : Option Nat) : (c.advance k n t).lut = c.lut := by
  unfold Core.advance; dsimp only; split <;> simp
@[simp] theorem advance_arr (c : Core) (k : StrandId) (n : Nat) (t : Option Nat) : (c.advance k n t).arr = c.arr := by
  unfold Core.advance; dsimp only; split <;> simp
@[simp] theorem advance_run (c : Core) (k : StrandId) (n : Nat) (t : Option Nat) : (c.advance k n t).run = c.run := by
  unfold Core.advance; dsimp only; split <;> simp
@[simp] theorem advance_tiles (c : Core) (k : StrandId) (n : Nat) (t : Option Nat) : (c.advance k n t).tiles = c.tiles := by
  unfold Core.advance; dsimp only; split <;> simp
@[simp] theorem advance_pad (c : Core) (k : StrandId) (n : Nat) (t : Option Nat) : (c.advance k n t).pad = c.pad := by
  unfold Core.advance; dsimp only; split <;> simp
@[simp] theorem advance_padPoison (c : Core) (k : StrandId) (n : Nat) (t : Option Nat) : (c.advance k n t).padPoison = c.padPoison := by
  unfold Core.advance; dsimp only; split <;> simp
@[simp] theorem advance_padDamaged (c : Core) (k : StrandId) (n : Nat) (t : Option Nat) : (c.advance k n t).padDamaged = c.padDamaged := by
  unfold Core.advance; dsimp only; split <;> simp
@[simp] theorem advance_imem (c : Core) (k : StrandId) (n : Nat) (t : Option Nat) : (c.advance k n t).imem = c.imem := by
  unfold Core.advance; dsimp only; split <;> simp
@[simp] theorem advance_loaded (c : Core) (k : StrandId) (n : Nat) (t : Option Nat) : (c.advance k n t).loaded = c.loaded := by
  unfold Core.advance; dsimp only; split <;> simp
@[simp] theorem advance_header (c : Core) (k : StrandId) (n : Nat) (t : Option Nat) : (c.advance k n t).header = c.header := by
  unfold Core.advance; dsimp only; split <;> simp
@[simp] theorem advance_ovl (c : Core) (k : StrandId) (n : Nat) (t : Option Nat) : (c.advance k n t).ovl = c.ovl := by
  unfold Core.advance; dsimp only; split <;> simp
@[simp] theorem advance_mbox (c : Core) (k : StrandId) (n : Nat) (t : Option Nat) : (c.advance k n t).mbox = c.mbox := by
  unfold Core.advance; dsimp only; split <;> simp
@[simp] theorem advance_work (c : Core) (k : StrandId) (n : Nat) (t : Option Nat) : (c.advance k n t).work = c.work := by
  unfold Core.advance; dsimp only; split <;> simp
@[simp] theorem advance_loading (c : Core) (k : StrandId) (n : Nat) (t : Option Nat) : (c.advance k n t).loading = c.loading := by
  unfold Core.advance; dsimp only; split <;> simp
@[simp] theorem advance_welt (c : Core) (k : StrandId) (n : Nat) (t : Option Nat) : (c.advance k n t).welt = c.welt := by
  unfold Core.advance; dsimp only; split <;> simp
@[simp] theorem advance_awlq (c : Core) (k : StrandId) (n : Nat) (t : Option Nat) : (c.advance k n t).awlq = c.awlq := by
  unfold Core.advance; dsimp only; split <;> simp
@[simp] theorem advance_deferred (c : Core) (k : StrandId) (n : Nat) (t : Option Nat) : (c.advance k n t).deferred = c.deferred := by
  unfold Core.advance; dsimp only; split <;> simp
@[simp] theorem advance_traps (c : Core) (k : StrandId) (n : Nat) (t : Option Nat) : (c.advance k n t).traps = c.traps := by
  unfold Core.advance; dsimp only; split <;> simp
@[simp] theorem advance_asid (c : Core) (k : StrandId) (n : Nat) (t : Option Nat) : (c.advance k n t).asid = c.asid := by
  unfold Core.advance; dsimp only; split <;> simp
@[simp] theorem advance_root (c : Core) (k : StrandId) (n : Nat) (t : Option Nat) : (c.advance k n t).root = c.root := by
  unfold Core.advance; dsimp only; split <;> simp
@[simp] theorem advance_preq (c : Core) (k : StrandId) (n : Nat) (t : Option Nat) : (c.advance k n t).preq = c.preq := by
  unfold Core.advance; dsimp only; split <;> simp
@[simp] theorem advance_lost (c : Core) (k : StrandId) (n : Nat) (t : Option Nat) : (c.advance k n t).lost = c.lost := by
  unfold Core.advance; dsimp only; split <;> simp
@[simp] theorem advance_yielded (c : Core) (k : StrandId) (n : Nat) (t : Option Nat) : (c.advance k n t).yielded = c.yielded := by
  unfold Core.advance; dsimp only; split <;> simp
@[simp] theorem advance_acted (c : Core) (k : StrandId) (n : Nat) (t : Option Nat) : (c.advance k n t).acted = true := by
  unfold Core.advance; dsimp only; split <;> simp
@[simp] theorem advance_seq (c : Core) (k : StrandId) (n : Nat) (t : Option Nat) : (c.advance k n t).seq = c.seq + 1 := by
  unfold Core.advance; dsimp only; split <;> simp
@[simp] theorem advance_frozen (c : Core) (k : StrandId) (n : Nat) (t : Option Nat) : (c.advance k n t).frozen = c.frozen := by
  unfold Core.advance; dsimp only; split <;> simp
@[simp] theorem advance_dispatched (c : Core) (k : StrandId) (n : Nat) (t : Option Nat) : (c.advance k n t).dispatched = c.dispatched := by
  unfold Core.advance; dsimp only; split <;> simp

@[simp] theorem moved_here_cycle (s : State) (h : Hdr) (l : List Acc) (t : Option Nat) :
    (s.moved h l t).here.cycle = s.here.cycle := by
  obtain ⟨q, p, g, e⟩ := moved_here s h l t; simp [e]
@[simp] theorem moved_here_joinmask (s : State) (h : Hdr) (l : List Acc) (t : Option Nat) :
    (s.moved h l t).here.joinmask = s.here.joinmask := by
  obtain ⟨q, p, g, e⟩ := moved_here s h l t; simp [e]
@[simp] theorem moved_here_sbcheck (s : State) (h : Hdr) (l : List Acc) (t : Option Nat) :
    (s.moved h l t).here.sbcheck = s.here.sbcheck := by
  obtain ⟨q, p, g, e⟩ := moved_here s h l t; simp [e]
@[simp] theorem moved_here_spsplit (s : State) (h : Hdr) (l : List Acc) (t : Option Nat) :
    (s.moved h l t).here.spsplit = s.here.spsplit := by
  obtain ⟨q, p, g, e⟩ := moved_here s h l t; simp [e]
@[simp] theorem moved_here_cyc (s : State) (h : Hdr) (l : List Acc) (t : Option Nat) :
    (s.moved h l t).here.cyc = s.here.cyc := by
  obtain ⟨q, p, g, e⟩ := moved_here s h l t; simp [e]
@[simp] theorem moved_here_ctx (s : State) (h : Hdr) (l : List Acc) (t : Option Nat) :
    (s.moved h l t).here.ctx = s.here.ctx := by
  obtain ⟨q, p, g, e⟩ := moved_here s h l t; simp [e]
@[simp] theorem moved_here_lineageLo (s : State) (h : Hdr) (l : List Acc) (t : Option Nat) :
    (s.moved h l t).here.lineageLo = s.here.lineageLo := by
  obtain ⟨q, p, g, e⟩ := moved_here s h l t; simp [e]
@[simp] theorem moved_here_lineageHi (s : State) (h : Hdr) (l : List Acc) (t : Option Nat) :
    (s.moved h l t).here.lineageHi = s.here.lineageHi := by
  obtain ⟨q, p, g, e⟩ := moved_here s h l t; simp [e]
@[simp] theorem moved_here_mprog (s : State) (h : Hdr) (l : List Acc) (t : Option Nat) :
    (s.moved h l t).here.mprog = s.here.mprog := by
  obtain ⟨q, p, g, e⟩ := moved_here s h l t; simp [e]
@[simp] theorem moved_here_tmiss (s : State) (h : Hdr) (l : List Acc) (t : Option Nat) :
    (s.moved h l t).here.tmiss = s.here.tmiss := by
  obtain ⟨q, p, g, e⟩ := moved_here s h l t; simp [e]
@[simp] theorem moved_here_tlooka (s : State) (h : Hdr) (l : List Acc) (t : Option Nat) :
    (s.moved h l t).here.tlooka = s.here.tlooka := by
  obtain ⟨q, p, g, e⟩ := moved_here s h l t; simp [e]
@[simp] theorem moved_here_tlookd (s : State) (h : Hdr) (l : List Acc) (t : Option Nat) :
    (s.moved h l t).here.tlookd = s.here.tlookd := by
  obtain ⟨q, p, g, e⟩ := moved_here s h l t; simp [e]
@[simp] theorem moved_here_demands (s : State) (h : Hdr) (l : List Acc) (t : Option Nat) :
    (s.moved h l t).here.demands = s.here.demands := by
  obtain ⟨q, p, g, e⟩ := moved_here s h l t; simp [e]
@[simp] theorem moved_here_demandNet (s : State) (h : Hdr) (l : List Acc) (t : Option Nat) :
    (s.moved h l t).here.demandNet = s.here.demandNet := by
  obtain ⟨q, p, g, e⟩ := moved_here s h l t; simp [e]
@[simp] theorem moved_here_vec (s : State) (h : Hdr) (l : List Acc) (t : Option Nat) :
    (s.moved h l t).here.vec = s.here.vec := by
  obtain ⟨q, p, g, e⟩ := moved_here s h l t; simp [e]
@[simp] theorem moved_here_fixed (s : State) (h : Hdr) (l : List Acc) (t : Option Nat) :
    (s.moved h l t).here.fixed = s.here.fixed := by
  obtain ⟨q, p, g, e⟩ := moved_here s h l t; simp [e]
@[simp] theorem moved_here_vars (s : State) (h : Hdr) (l : List Acc) (t : Option Nat) :
    (s.moved h l t).here.vars = s.here.vars := by
  obtain ⟨q, p, g, e⟩ := moved_here s h l t; simp [e]
@[simp] theorem moved_here_sprs (s : State) (h : Hdr) (l : List Acc) (t : Option Nat) :
    (s.moved h l t).here.sprs = s.here.sprs := by
  obtain ⟨q, p, g, e⟩ := moved_here s h l t; simp [e]
@[simp] theorem moved_here_mops (s : State) (h : Hdr) (l : List Acc) (t : Option Nat) :
    (s.moved h l t).here.mops = s.here.mops := by
  obtain ⟨q, p, g, e⟩ := moved_here s h l t; simp [e]
@[simp] theorem moved_here_trapLog (s : State) (h : Hdr) (l : List Acc) (t : Option Nat) :
    (s.moved h l t).here.trapLog = s.here.trapLog := by
  obtain ⟨q, p, g, e⟩ := moved_here s h l t; simp [e]
@[simp] theorem moved_here_barrier (s : State) (h : Hdr) (l : List Acc) (t : Option Nat) :
    (s.moved h l t).here.barrier = s.here.barrier := by
  obtain ⟨q, p, g, e⟩ := moved_here s h l t; simp [e]
@[simp] theorem moved_here_seen (s : State) (h : Hdr) (l : List Acc) (t : Option Nat) :
    (s.moved h l t).here.seen = s.here.seen := by
  obtain ⟨q, p, g, e⟩ := moved_here s h l t; simp [e]
@[simp] theorem moved_here_latBy (s : State) (h : Hdr) (l : List Acc) (t : Option Nat) :
    (s.moved h l t).here.latBy = s.here.latBy := by
  obtain ⟨q, p, g, e⟩ := moved_here s h l t; simp [e]
@[simp] theorem moved_here_acc (s : State) (h : Hdr) (l : List Acc) (t : Option Nat) :
    (s.moved h l t).here.acc = s.here.acc := by
  obtain ⟨q, p, g, e⟩ := moved_here s h l t; simp [e]
@[simp] theorem moved_here_w0 (s : State) (h : Hdr) (l : List Acc) (t : Option Nat) :
    (s.moved h l t).here.w0 = s.here.w0 := by
  obtain ⟨q, p, g, e⟩ := moved_here s h l t; simp [e]
@[simp] theorem moved_here_w1 (s : State) (h : Hdr) (l : List Acc) (t : Option Nat) :
    (s.moved h l t).here.w1 = s.here.w1 := by
  obtain ⟨q, p, g, e⟩ := moved_here s h l t; simp [e]
@[simp] theorem moved_here_masks (s : State) (h : Hdr) (l : List Acc) (t : Option Nat) :
    (s.moved h l t).here.masks = s.here.masks := by
  obtain ⟨q, p, g, e⟩ := moved_here s h l t; simp [e]
@[simp] theorem moved_here_mpRows (s : State) (h : Hdr) (l : List Acc) (t : Option Nat) :
    (s.moved h l t).here.mpRows = s.here.mpRows := by
  obtain ⟨q, p, g, e⟩ := moved_here s h l t; simp [e]
@[simp] theorem moved_here_mpBytes (s : State) (h : Hdr) (l : List Acc) (t : Option Nat) :
    (s.moved h l t).here.mpBytes = s.here.mpBytes := by
  obtain ⟨q, p, g, e⟩ := moved_here s h l t; simp [e]
@[simp] theorem moved_here_lut (s : State) (h : Hdr) (l : List Acc) (t : Option Nat) :
    (s.moved h l t).here.lut = s.here.lut := by
  obtain ⟨q, p, g, e⟩ := moved_here s h l t; simp [e]
@[simp] theorem moved_here_arr (s : State) (h : Hdr) (l : List Acc) (t : Option Nat) :
    (s.moved h l t).here.arr = s.here.arr := by
  obtain ⟨q, p, g, e⟩ := moved_here s h l t; simp [e]
@[simp] theorem moved_here_run (s : State) (h : Hdr) (l : List Acc) (t : Option Nat) :
    (s.moved h l t).here.run = s.here.run := by
  obtain ⟨q, p, g, e⟩ := moved_here s h l t; simp [e]
@[simp] theorem moved_here_tiles (s : State) (h : Hdr) (l : List Acc) (t : Option Nat) :
    (s.moved h l t).here.tiles = s.here.tiles := by
  obtain ⟨q, p, g, e⟩ := moved_here s h l t; simp [e]
@[simp] theorem moved_here_pad (s : State) (h : Hdr) (l : List Acc) (t : Option Nat) :
    (s.moved h l t).here.pad = s.here.pad := by
  obtain ⟨q, p, g, e⟩ := moved_here s h l t; simp [e]
@[simp] theorem moved_here_padPoison (s : State) (h : Hdr) (l : List Acc) (t : Option Nat) :
    (s.moved h l t).here.padPoison = s.here.padPoison := by
  obtain ⟨q, p, g, e⟩ := moved_here s h l t; simp [e]
@[simp] theorem moved_here_padDamaged (s : State) (h : Hdr) (l : List Acc) (t : Option Nat) :
    (s.moved h l t).here.padDamaged = s.here.padDamaged := by
  obtain ⟨q, p, g, e⟩ := moved_here s h l t; simp [e]
@[simp] theorem moved_here_imem (s : State) (h : Hdr) (l : List Acc) (t : Option Nat) :
    (s.moved h l t).here.imem = s.here.imem := by
  obtain ⟨q, p, g, e⟩ := moved_here s h l t; simp [e]
@[simp] theorem moved_here_loaded (s : State) (h : Hdr) (l : List Acc) (t : Option Nat) :
    (s.moved h l t).here.loaded = s.here.loaded := by
  obtain ⟨q, p, g, e⟩ := moved_here s h l t; simp [e]
@[simp] theorem moved_here_header (s : State) (h : Hdr) (l : List Acc) (t : Option Nat) :
    (s.moved h l t).here.header = s.here.header := by
  obtain ⟨q, p, g, e⟩ := moved_here s h l t; simp [e]
@[simp] theorem moved_here_ovl (s : State) (h : Hdr) (l : List Acc) (t : Option Nat) :
    (s.moved h l t).here.ovl = s.here.ovl := by
  obtain ⟨q, p, g, e⟩ := moved_here s h l t; simp [e]
@[simp] theorem moved_here_mbox (s : State) (h : Hdr) (l : List Acc) (t : Option Nat) :
    (s.moved h l t).here.mbox = s.here.mbox := by
  obtain ⟨q, p, g, e⟩ := moved_here s h l t; simp [e]
@[simp] theorem moved_here_work (s : State) (h : Hdr) (l : List Acc) (t : Option Nat) :
    (s.moved h l t).here.work = s.here.work := by
  obtain ⟨q, p, g, e⟩ := moved_here s h l t; simp [e]
@[simp] theorem moved_here_loading (s : State) (h : Hdr) (l : List Acc) (t : Option Nat) :
    (s.moved h l t).here.loading = s.here.loading := by
  obtain ⟨q, p, g, e⟩ := moved_here s h l t; simp [e]
@[simp] theorem moved_here_welt (s : State) (h : Hdr) (l : List Acc) (t : Option Nat) :
    (s.moved h l t).here.welt = s.here.welt := by
  obtain ⟨q, p, g, e⟩ := moved_here s h l t; simp [e]
@[simp] theorem moved_here_awlq (s : State) (h : Hdr) (l : List Acc) (t : Option Nat) :
    (s.moved h l t).here.awlq = s.here.awlq := by
  obtain ⟨q, p, g, e⟩ := moved_here s h l t; simp [e]
@[simp] theorem moved_here_deferred (s : State) (h : Hdr) (l : List Acc) (t : Option Nat) :
    (s.moved h l t).here.deferred = s.here.deferred := by
  obtain ⟨q, p, g, e⟩ := moved_here s h l t; simp [e]
@[simp] theorem moved_here_traps (s : State) (h : Hdr) (l : List Acc) (t : Option Nat) :
    (s.moved h l t).here.traps = s.here.traps := by
  obtain ⟨q, p, g, e⟩ := moved_here s h l t; simp [e]
@[simp] theorem moved_here_asid (s : State) (h : Hdr) (l : List Acc) (t : Option Nat) :
    (s.moved h l t).here.asid = s.here.asid := by
  obtain ⟨q, p, g, e⟩ := moved_here s h l t; simp [e]
@[simp] theorem moved_here_root (s : State) (h : Hdr) (l : List Acc) (t : Option Nat) :
    (s.moved h l t).here.root = s.here.root := by
  obtain ⟨q, p, g, e⟩ := moved_here s h l t; simp [e]
@[simp] theorem moved_here_preq (s : State) (h : Hdr) (l : List Acc) (t : Option Nat) :
    (s.moved h l t).here.preq = s.here.preq := by
  obtain ⟨q, p, g, e⟩ := moved_here s h l t; simp [e]
@[simp] theorem moved_here_lost (s : State) (h : Hdr) (l : List Acc) (t : Option Nat) :
    (s.moved h l t).here.lost = s.here.lost := by
  obtain ⟨q, p, g, e⟩ := moved_here s h l t; simp [e]
@[simp] theorem moved_here_yielded (s : State) (h : Hdr) (l : List Acc) (t : Option Nat) :
    (s.moved h l t).here.yielded = s.here.yielded := by
  obtain ⟨q, p, g, e⟩ := moved_here s h l t; simp [e]
@[simp] theorem moved_here_acted (s : State) (h : Hdr) (l : List Acc) (t : Option Nat) :
    (s.moved h l t).here.acted = true := by
  obtain ⟨q, p, g, e⟩ := moved_here s h l t; simp [e]
@[simp] theorem moved_here_seq (s : State) (h : Hdr) (l : List Acc) (t : Option Nat) :
    (s.moved h l t).here.seq = s.here.seq + 1 := by
  obtain ⟨q, p, g, e⟩ := moved_here s h l t; simp [e]
@[simp] theorem moved_here_frozen (s : State) (h : Hdr) (l : List Acc) (t : Option Nat) :
    (s.moved h l t).here.frozen = s.here.frozen := by
  obtain ⟨q, p, g, e⟩ := moved_here s h l t; simp [e]
@[simp] theorem moved_here_dispatched (s : State) (h : Hdr) (l : List Acc) (t : Option Nat) :
    (s.moved h l t).here.dispatched = s.here.dispatched := by
  obtain ⟨q, p, g, e⟩ := moved_here s h l t; simp [e]

theorem advance_strand_of_ne (c : Core) {k j : StrandId} (n : Nat) (t : Option Nat) (h : j ≠ k) :
    (c.advance k n t).strand j = c.strand j := by
  unfold Core.advance; dsimp only; split <;> rw [strand_setStrand_of_ne _ _ h] <;> rfl

/-- The other strands of the core stand where they stood. -/
theorem moved_strand_of_ne (s : State) (h : Hdr) (l : List Acc) (t : Option Nat) {j : StrandId} (hj : j ≠ s.cur.strand) :
    (s.moved h l t).here.strand j = s.here.strand j := by
  obtain ⟨q, p, g, e⟩ := moved_here s h l t
  rw [e, advance_strand_of_ne _ _ _ hj]; cases j <;> rfl

/-- The strand moves on: the next word of its loops, or the target, after the stall count and any transfer delay. -/
theorem moved_strand (s : State) (h : Hdr) (l : List Acc) (t : Option Nat) :
    (s.moved h l t).here.strand s.cur.strand =
      let m := s.here.strand s.cur.strand
      match t with
      | some a => { m with pc := a, readyAt := s.here.cycle + 2 + h.wc.val, loops := afterTransfer a m.loops, join := none, block := .none }
      | none => { m with pc := (afterWord m.pc m.loops).1, readyAt := s.here.cycle + 1 + h.wc.val, loops := (afterWord m.pc m.loops).2, join := none, block := .none } := by
  obtain ⟨q, p, g, e⟩ := moved_here s h l t
  rw [e]
  cases t <;> simp only [Core.advance, strand_setStrand] <;> cases s.cur.strand <;> rfl

theorem moved_core_of_ne (s : State) (h : Hdr) (l : List Acc) (t : Option Nat) {c : Nat} (hc : c ≠ s.cur.core) :
    (s.moved h l t).core c = s.core c := core_setCore_of_ne s _ hc

@[simp] theorem moved_agenda (s : State) (h : Hdr) (l : List Acc) (t : Option Nat) : (s.moved h l t).agenda = s.agenda := rfl
@[simp] theorem moved_tick (s : State) (h : Hdr) (l : List Acc) (t : Option Nat) : (s.moved h l t).tick = s.tick := rfl
@[simp] theorem moved_draws (s : State) (h : Hdr) (l : List Acc) (t : Option Nat) : (s.moved h l t).draws = s.draws := rfl
@[simp] theorem moved_cur (s : State) (h : Hdr) (l : List Acc) (t : Option Nat) : (s.moved h l t).cur = s.cur := rfl
@[simp] theorem moved_status (s : State) (h : Hdr) (l : List Acc) (t : Option Nat) : (s.moved h l t).status = s.status := rfl
@[simp] theorem moved_powered (s : State) (h : Hdr) (l : List Acc) (t : Option Nat) : (s.moved h l t).powered = s.powered := rfl
@[simp] theorem moved_now (s : State) (h : Hdr) (l : List Acc) (t : Option Nat) : (s.moved h l t).now = s.now := rfl
@[simp] theorem moved_kdies (s : State) (h : Hdr) (l : List Acc) (t : Option Nat) : (s.moved h l t).kdies = s.kdies := rfl
@[simp] theorem moved_tdies (s : State) (h : Hdr) (l : List Acc) (t : Option Nat) : (s.moved h l t).tdies = s.tdies := rfl
@[simp] theorem moved_hub (s : State) (h : Hdr) (l : List Acc) (t : Option Nat) : (s.moved h l t).hub = s.hub := rfl
@[simp] theorem moved_mem (s : State) (h : Hdr) (l : List Acc) (t : Option Nat) : (s.moved h l t).mem = s.mem := rfl
@[simp] theorem moved_poison (s : State) (h : Hdr) (l : List Acc) (t : Option Nat) : (s.moved h l t).poison = s.poison := rfl
@[simp] theorem moved_damaged (s : State) (h : Hdr) (l : List Acc) (t : Option Nat) : (s.moved h l t).damaged = s.damaged := rfl
@[simp] theorem moved_damagedBy (s : State) (h : Hdr) (l : List Acc) (t : Option Nat) : (s.moved h l t).damagedBy = s.damagedBy := rfl
@[simp] theorem moved_dirty (s : State) (h : Hdr) (l : List Acc) (t : Option Nat) : (s.moved h l t).dirty = s.dirty := rfl
@[simp] theorem moved_dirtyAt (s : State) (h : Hdr) (l : List Acc) (t : Option Nat) : (s.moved h l t).dirtyAt = s.dirtyAt := rfl
@[simp] theorem moved_cached (s : State) (h : Hdr) (l : List Acc) (t : Option Nat) : (s.moved h l t).cached = s.cached := rfl
@[simp] theorem moved_heldWrite (s : State) (h : Hdr) (l : List Acc) (t : Option Nat) : (s.moved h l t).heldWrite = s.heldWrite := rfl
@[simp] theorem moved_leases (s : State) (h : Hdr) (l : List Acc) (t : Option Nat) : (s.moved h l t).leases = s.leases := rfl
@[simp] theorem moved_ltime (s : State) (h : Hdr) (l : List Acc) (t : Option Nat) : (s.moved h l t).ltime = s.ltime := rfl
@[simp] theorem moved_reds (s : State) (h : Hdr) (l : List Acc) (t : Option Nat) : (s.moved h l t).reds = s.reds := rfl
@[simp] theorem moved_wbs (s : State) (h : Hdr) (l : List Acc) (t : Option Nat) : (s.moved h l t).wbs = s.wbs := rfl
@[simp] theorem moved_wbuf (s : State) (h : Hdr) (l : List Acc) (t : Option Nat) : (s.moved h l t).wbuf = s.wbuf := rfl
@[simp] theorem moved_tlb (s : State) (h : Hdr) (l : List Acc) (t : Option Nat) : (s.moved h l t).tlb = s.tlb := rfl
@[simp] theorem moved_counters (s : State) (h : Hdr) (l : List Acc) (t : Option Nat) : (s.moved h l t).counters = s.counters := rfl
@[simp] theorem moved_badCounters (s : State) (h : Hdr) (l : List Acc) (t : Option Nat) : (s.moved h l t).badCounters = s.badCounters := rfl
@[simp] theorem moved_satCounters (s : State) (h : Hdr) (l : List Acc) (t : Option Nat) : (s.moved h l t).satCounters = s.satCounters := rfl
@[simp] theorem moved_adds (s : State) (h : Hdr) (l : List Acc) (t : Option Nat) : (s.moved h l t).adds = s.adds := rfl
@[simp] theorem moved_arrivals (s : State) (h : Hdr) (l : List Acc) (t : Option Nat) : (s.moved h l t).arrivals = s.arrivals := rfl
@[simp] theorem moved_cmds (s : State) (h : Hdr) (l : List Acc) (t : Option Nat) : (s.moved h l t).cmds = s.cmds := rfl
@[simp] theorem moved_nextCmd (s : State) (h : Hdr) (l : List Acc) (t : Option Nat) : (s.moved h l t).nextCmd = s.nextCmd := rfl
@[simp] theorem moved_ctxMsgs (s : State) (h : Hdr) (l : List Acc) (t : Option Nat) : (s.moved h l t).ctxMsgs = s.ctxMsgs := rfl
@[simp] theorem moved_colls (s : State) (h : Hdr) (l : List Acc) (t : Option Nat) : (s.moved h l t).colls = s.colls := rfl
@[simp] theorem moved_msgs (s : State) (h : Hdr) (l : List Acc) (t : Option Nat) : (s.moved h l t).msgs = s.msgs := rfl

end Sys2Proof.Machine
end

