-- ==== Sys2Proof/Laws/Issue.lean ====
section
/-! SUPPORT. What issuing a word can do: a word that is ready and finds nothing against it issues, and what it then leaves. -/

namespace Sys2Proof.Machine

/-- Nothing but the operands can keep this word from issuing. -/
structure Plan.clear (p : Plan) : Prop where
  bits : p.bits = []
  waits : p.waits = []
  checks : p.checks = []
  notReady : p.notReady = none
  fault : p.fault = none

theorem waitsOf_clear (c : Core) (k : StrandId) (b : Bool) (p : Plan) (h : p.waits = []) :
    c.waitsOf k b p = c.waitsOf k b { accs := p.accs } := by
  simp [Core.waitsOf, h]

theorem conflict_accs (c : Core) (k : StrandId) (p : Plan) :
    c.conflict k p = c.conflict k { accs := p.accs, lat := p.lat } := rfl

/-- A ready word that finds nothing against it issues. -/
theorem issue_ready (s : State) (h : Hdr) (p : Plan) (hc : p.clear) (hr : s.ready p.accs p.lat = true) :
    s.issue h p = s.after h p.accs p.target fun t => p.go (p.found t) := by
  simp only [State.ready, Bool.and_eq_true, Bool.not_eq_true', Option.isNone_iff_eq_none, List.isEmpty_iff] at hr
  obtain ⟨⟨⟨⟨⟨⟨h1, h0⟩, h2⟩, h3⟩, h4⟩, h5⟩, h6⟩ := hr
  have h7 : (if s.here.sbcheckOn then s.here.conflict s.cur.strand p else none) = none := by
    rw [conflict_accs]
    cases hsb : s.here.sbcheckOn <;> simp_all
  simp only [State.issue, h0, h1, h2, h3, h4, hc.bits, waitsOf_clear _ _ _ p hc.waits, h5, h7, hc.checks, hc.notReady,
    hc.fault, stage3, firstOffence, List.append_nil, List.filter_nil, Bool.or_false, Bool.false_eq_true, if_false]
  rfl

/-- A word of a private map, tried by a strand of that name. -/
theorem issueOn_ready (s : State) (k : StrandId) (h : Hdr) (p : State → Plan) (hk : s.cur.strand = k)
    (hc : (p s).clear) (hr : s.ready (p s).accs (p s).lat = true) :
    s.issueOn k h p = .next (s.after h (p s).accs (p s).target fun t => (p s).go ((p s).found t)) := by
  subst hk
  have : ({ s with cur := { s.cur with strand := s.cur.strand } } : State) = s := rfl
  simp only [State.issueOn, this, issue_ready s h (p s) hc hr]

/-- A trap at the strand's own word is no issue. -/
theorem trapHere_status (s : State) (synd : Nat) (addr info : Word) (r : Option Word) (b : Bool) (pops pushes : List StrandId) :
    (s.trapHere synd addr info r b).status ≠ .issued pops pushes := by
  simp [State.trapHere]

/-- A trap of stage 3 is no issue. -/
theorem failHere_status (s : State) (p : Plan) (synd : Nat) (addr info : Word) (r : Option Word) (pops pushes : List StrandId) :
    (s.failHere p synd addr info r).status ≠ .issued pops pushes := by
  simp [State.failHere]

/-- Trying a word issues it, or does not. -/
theorem issue_cases (s : State) (h : Hdr) (p : Plan) :
    (s.issue h p = s.after h p.accs p.target fun t => p.go (p.found t)) ∨
      ∀ pops pushes, (s.issue h p).status ≠ .issued pops pushes := by
  unfold State.issue
  dsimp only
  split
  · exact .inr fun _ _ e => by cases e
  split
  · exact .inr fun _ _ e => by cases e
  split
  · exact .inr fun _ _ => trapHere_status _ _ _ _ _ _ _ _
  split
  · exact .inr fun _ _ e => by cases e
  split
  · exact .inr fun _ _ => failHere_status _ _ _ _ _ _ _ _
  split
  · exact .inr fun _ _ => failHere_status _ _ _ _ _ _ _ _
  split
  · exact .inr fun _ _ => failHere_status _ _ _ _ _ _ _ _
  split
  · exact .inr fun _ _ => failHere_status _ _ _ _ _ _ _ _
  · exact .inl rfl

/-- A word that has issued has done exactly what issuing does. -/
theorem issue_issued (s : State) (h : Hdr) (p : Plan) (pops pushes : List StrandId)
    (hs : (s.issue h p).status = .issued pops pushes) :
    s.issue h p = s.after h p.accs p.target fun t => p.go (p.found t) :=
  (issue_cases s h p).resolve_right fun g => g _ _ hs

end Sys2Proof.Machine
end

