-- ==== Sys2Proof/Laws/Memory.lean ====
section
/-! SUPPORT. Memory in its canonical form: every operation keeps it, a write is read back, and equal memories are equal lists. -/

namespace Sys2Proof.Machine

/-- Every listed address is at least `n`, addresses rise, and no listed byte is 0. -/
def Memory.rising : Nat → List Host.Cell → Prop
  | _, [] => True
  | n, (a, b) :: r => n ≤ a ∧ b ≠ 0 ∧ Memory.rising (a + 1) r

theorem Memory.rising_mono {n k : Nat} (m : List Host.Cell) (h : n ≤ k) (hm : Memory.rising k m) : Memory.rising n m := by
  cases m with
  | nil => trivial
  | cons c r => exact ⟨h.trans hm.1, hm.2⟩

theorem Memory.wf_cons (a : Nat) (b : Byte) (r : List Host.Cell) :
    Memory.wf ((a, b) :: r) = true ↔ b ≠ 0 ∧ Memory.rising (a + 1) r := by
  induction r generalizing a b with
  | nil => simp [Memory.wf, Memory.rising]
  | cons c r ih =>
    obtain ⟨a', b'⟩ := c
    simp only [Memory.wf, Bool.and_eq_true, decide_eq_true_eq, ih, Memory.rising, Nat.succ_le_iff,
      ne_eq, and_assoc]

/-- The form, as a statement about the list from its first address on. -/
theorem Memory.wf_iff (m : List Host.Cell) : Memory.wf m = true ↔ Memory.rising 0 m := by
  cases m with
  | nil => simp [Memory.wf, Memory.rising]
  | cons c r => obtain ⟨a, b⟩ := c; simp [Memory.wf_cons, Memory.rising]

theorem Memory.set_rising (m : List Host.Cell) (n i : Nat) (v : Byte) (h : Memory.rising n m) (hi : n ≤ i) :
    Memory.rising n (Memory.set m i v) := by
  induction m generalizing n with
  | nil =>
    unfold Memory.set
    split
    · trivial
    · exact ⟨hi, ‹_›, trivial⟩
  | cons c r ih =>
    obtain ⟨a, b⟩ := c
    obtain ⟨h1, h2, h3⟩ := h
    simp only [Memory.set]
    split
    · split
      · exact Memory.rising_mono r (by omega) h3
      · exact ⟨h1, ‹_›, h3⟩
    · split
      · split
        · exact ⟨h1, h2, h3⟩
        · exact ⟨hi, ‹_›, by omega, h2, h3⟩
      · exact ⟨h1, h2, ih (a + 1) h3 (by omega)⟩

/-- A write keeps the canonical form. -/
theorem Memory.set_wf (m : List Host.Cell) (i : Nat) (v : Byte) (h : Memory.wf m = true) :
    Memory.wf (Memory.set m i v) = true := by
  rw [Memory.wf_iff] at *
  exact Memory.set_rising m 0 i v h (Nat.zero_le i)

/-- A write of several bytes keeps it. -/
theorem Memory.sets_wf (m : List Host.Cell) (a : Nat) (bs : List Byte) (h : Memory.wf m = true) :
    Memory.wf (Memory.sets m a bs) = true := by
  induction bs generalizing m a with
  | nil => exact h
  | cons b r ih => exact ih _ _ (Memory.set_wf m a b h)

/-- Writes in any order keep it. -/
theorem Memory.foldl_set_wf (l : List (Nat × Byte)) (m : List Host.Cell) (h : Memory.wf m = true) :
    Memory.wf (l.foldl (fun m p => Memory.set m p.1 p.2) m) = true := by
  induction l generalizing m with
  | nil => exact h
  | cons p r ih => exact ih _ (Memory.set_wf m p.1 p.2 h)

theorem Memory.get_of_rising (m : List Host.Cell) (n i : Nat) (h : Memory.rising n m) (hi : i < n) : Memory.get m i = 0 := by
  induction m generalizing n with
  | nil => rfl
  | cons c r ih =>
    obtain ⟨a, b⟩ := c
    obtain ⟨h1, _, h3⟩ := h
    simp only [Memory.get]
    rw [if_neg (by omega)]
    exact ih (a + 1) h3 (by omega)

theorem Memory.get_set_rising (m : List Host.Cell) (n i j : Nat) (v : Byte) (h : Memory.rising n m) :
    Memory.get (Memory.set m i v) j = if j = i then v else Memory.get m j := by
  induction m generalizing n with
  | nil =>
    simp only [Memory.set]
    split
    · rename_i hv
      by_cases hj : j = i
      · rw [if_pos hj, hv]; rfl
      · rw [if_neg hj]
    · by_cases hj : j = i
      · rw [if_pos hj, hj]; simp only [Memory.get, if_true]
      · rw [if_neg hj]; simp only [Memory.get, if_neg (Ne.symm hj)]
  | cons c r ih =>
    obtain ⟨a, b⟩ := c
    obtain ⟨_, _, h3⟩ := h
    simp only [Memory.set]
    split
    · rename_i hia
      subst hia
      split
      · rename_i hv
        by_cases hj : j = i
        · simp [hj, hv, Memory.get_of_rising r _ i h3 (Nat.lt_succ_self i)]
        · simp [Memory.get, hj, Ne.symm hj]
      · by_cases hj : j = i
        · simp [hj, Memory.get]
        · simp [Memory.get, hj, Ne.symm hj]
    · split
      · split
        · rename_i hia hlt hv
          by_cases hj : j = i
          · subst hj
            simp [Memory.get, Ne.symm hia, hv, Memory.get_of_rising r (a + 1) j h3 (by omega)]
          · simp [hj]
        · by_cases hj : j = i
          · simp [hj, Memory.get]
          · simp [Memory.get, hj, Ne.symm hj]
      · rename_i hia _
        simp only [Memory.get]
        rw [ih (a + 1) h3]
        by_cases hj : j = i
        · subst hj; simp [Ne.symm hia]
        · simp [hj]

/-- A write is read back, and leaves every other address alone. -/
theorem Memory.get_set (m : List Host.Cell) (i j : Nat) (v : Byte) (h : Memory.wf m = true) :
    Memory.get (Memory.set m i v) j = if j = i then v else Memory.get m j :=
  Memory.get_set_rising m 0 i j v ((Memory.wf_iff m).1 h)

/-- A write of several bytes leaves every address outside them alone. -/
theorem Memory.get_sets_of_not_mem (m : List Host.Cell) (a j : Nat) (bs : List Byte) (h : Memory.wf m = true)
    (hj : j < a ∨ a + bs.length ≤ j) : Memory.get (Memory.sets m a bs) j = Memory.get m j := by
  induction bs generalizing m a with
  | nil => rfl
  | cons b r ih =>
    simp only [List.length_cons] at hj
    rw [Memory.sets, ih _ _ (Memory.set_wf m a b h) (by omega), Memory.get_set m a j b h, if_neg (by omega)]

/-- A step that leaves memory alone keeps its form. -/
theorem wf_of_eq {s t : State} (h : t.mem = s.mem) (hs : Memory.wf s.mem = true) : Memory.wf t.mem = true := by rw [h]; exact hs

theorem noteWrite_mem (s : State) (n : Nat) (own : Option Nat) (line : Nat) : (s.noteWrite n own line).mem = s.mem := by
  unfold State.noteWrite
  dsimp only
  split
  · split <;> rfl
  · rfl

/-- One byte written by an ordinary access keeps the form of memory. -/
theorem putByte_wf (s : State) (kv : Bool) (pa : Nat) (b : Byte) (h : Memory.wf s.mem = true) :
    Memory.wf (s.putByte kv pa b).mem = true := by
  unfold State.putByte
  split
  · rw [noteWrite_mem]; exact Memory.set_wf s.mem pa b h
  · exact h

/-- Bytes written by an ordinary access keep the form of memory. -/
theorem putBytes_wf (l : List ((Nat × Bool) × Byte)) (s : State) (h : Memory.wf s.mem = true) :
    Memory.wf (s.putBytes l).mem = true := by
  induction l generalizing s with
  | nil => exact h
  | cons x r ih => obtain ⟨⟨pa, kv⟩, b⟩ := x; exact ih _ (putByte_wf s kv pa b h)

theorem log_mem (s : State) (n : Nat) (r : FaultRec) : (s.log n r).mem = s.mem := rfl

theorem record_mem (s : State) (a b c d e f : Nat) (g h : Bool) (x y : Word) : (s.record a b c d e f g h x y).mem = s.mem :=
  log_mem ..

theorem setMark_mem (s : State) (line : Nat) : (s.setMark line).mem = s.mem := rfl

theorem markDamaged_mem (s : State) (line : Nat) (info : Word) : (s.markDamaged line info).mem = s.mem := by
  unfold State.markDamaged
  dsimp only
  split
  · split <;> rfl
  · rfl

/-- Merging a reduce-state line keeps the form of memory. -/
theorem mergeLineBy_wf (s : State) (own : Option Nat) (line : Nat) (h : Memory.wf s.mem = true) :
    Memory.wf (s.mergeLineBy own line).mem = true := by
  unfold State.mergeLineBy
  cases slook s.reds line with
  | none => exact h
  | some r =>
    simp only [apply_ite State.mem, record_mem, setMark_mem, noteWrite_mem, ite_self]
    exact Memory.sets_wf _ _ _ h

theorem mergeLinesBy_wf (own : Option Nat) (l : List Nat) (s : State) (h : Memory.wf s.mem = true) :
    Memory.wf (s.mergeLinesBy own l).mem = true := by
  induction l generalizing s with
  | nil => exact h
  | cons x r ih => exact ih _ (mergeLineBy_wf s own x h)

theorem stamps_mem (l : List Nat) (s : State) : (l.foldl State.stampStore s).mem = s.mem := by
  induction l generalizing s with
  | nil => rfl
  | cons x r ih => rw [List.foldl_cons, ih]; rfl

/-- What a walk reads keeps the form of memory. -/
theorem settleWalk_wf (s : State) (asid root va : Nat) (h : Memory.wf s.mem = true) :
    Memory.wf (s.settleWalk asid root va).mem = true := by
  unfold State.settleWalk
  generalize s.path asid root va = l
  induction l generalizing s with
  | nil => exact h
  | cons x r ih =>
    rw [List.foldl_cons]
    refine ih _ ?_
    dsimp only
    rw [markDamaged_mem]
    exact mergeLineBy_wf s none _ h

theorem settleWalks_wf (s : State) (asid root va len : Nat) (h : Memory.wf s.mem = true) :
    Memory.wf (s.settleWalks asid root va len).mem = true := by
  unfold State.settleWalks
  generalize pagesOf va len = l
  induction l generalizing s with
  | nil => exact h
  | cons x r ih => exact ih _ (settleWalk_wf s asid root x h)

theorem settleVa_wf (s : State) (asid root va len : Nat) (h : Memory.wf s.mem = true) :
    Memory.wf (s.settleVa asid root va len).mem = true :=
  mergeLinesBy_wf none _ _ (settleWalks_wf s asid root va len h)

/-- A write to the parts of a range keeps the form of memory. -/
theorem writeAt_wf (s : State) (by' : Nat) (gs : List Seg) (bs : List Byte) (h : Memory.wf s.mem = true) :
    Memory.wf (s.writeAt by' gs bs).mem = true := by
  have e : Memory.wf ((s.mergeLines (segLines gs)).putBytes ((segPas gs).zip bs)).mem = true :=
    putBytes_wf _ _ (mergeLinesBy_wf none _ _ h)
  unfold State.writeAt
  dsimp only
  split
  · exact e
  · exact wf_of_eq (stamps_mem (segLines gs) _) e

/-- An ordinary write keeps the form of memory. -/
theorem writeVa_wf (s : State) (by' asid root va : Nat) (bs : List Byte) (h : Memory.wf s.mem = true) :
    Memory.wf (s.writeVa by' asid root va bs).mem = true :=
  writeAt_wf _ _ _ _ (settleVa_wf s asid root va bs.length h)

/-- An atomic at the home keeps the form of memory. -/
theorem atomicAt_wf (s : State) (gs : List Seg) (n : Nat) (op : AmoOp) (b x : Nat) (h : Memory.wf s.mem = true) :
    Memory.wf (s.atomicAt gs n op b x).2.mem = true := by
  have e : Memory.wf (s.mergeLines (segLines gs)).mem = true := mergeLinesBy_wf none _ _ h
  unfold State.atomicAt
  dsimp only
  split
  · exact writeAt_wf _ _ _ _ e
  · exact e

theorem noteWrites_mem (l : List Nat) (own : Option Nat) (s : State) :
    (l.foldl (fun s x => s.noteWrite (homeOf x) own x) s).mem = s.mem := by
  induction l generalizing s with
  | nil => rfl
  | cons x r ih => rw [List.foldl_cons, ih, noteWrite_mem]

/-- A T-die's write of its home memory keeps the form. -/
theorem homeWriteBy_wf (s : State) (own : Option Nat) (pa : Nat) (bs : List Byte) (h : Memory.wf s.mem = true) :
    Memory.wf (s.homeWriteBy own pa bs).mem = true := by
  unfold State.homeWriteBy
  dsimp only
  rw [noteWrites_mem]
  exact Memory.sets_wf _ _ _ (mergeLinesBy_wf _ _ _ h)

/-- Finding damage in a copy of a line leaves memory as it is. -/
theorem findCopy_mem (s : State) (line : Nat) : (s.findCopy line).mem = s.mem := by
  unfold State.findCopy
  split
  · split
    · rfl
    · exact markDamaged_mem _ _ _
  · rfl

/-- A write-back that lands keeps the form. -/
theorem land_wf (s : State) (w : WriteBack) (h : Memory.wf s.mem = true) : Memory.wf (s.land w).mem = true := by
  have h1 : Memory.wf (if w.bytes.length < 128 then s.findCopy w.line else s).mem = true := by
    split
    · rw [findCopy_mem]; exact h
    · exact h
  unfold State.land
  dsimp only
  split
  · rw [setMark_mem, noteWrite_mem]; exact Memory.foldl_set_wf _ _ h1
  · rw [noteWrite_mem]; exact Memory.foldl_set_wf _ _ h1

/-- Memory after reset has the form. -/
theorem reset_mem_wf : Memory.wf State.reset.mem = true := rfl

end Sys2Proof.Machine
end

