-- ==== Sys2Proof/Laws/PerInstr.lean ====
section
/-! SUPPORT. Per-instruction laws: the word of every instruction is a 32-bit word; an event has none. -/

namespace Sys2Proof.Laws.WordSize

set_option Elab.async false

/-- The encoding of an instruction fits its word (R141, R303); an event, which has no word, encodes as 0. -/
def Statement (i : Instr) : Prop := encode i < 2 ^ 32 ∧ (home i = .event → encode i = 0)

theorem add (h : Hdr) (d : Fin 32) (a : Fin 32) (b : Fin 32) : Statement (.add h d a b) :=
  ⟨by simp only [encode, hdr]; omega, fun e => nomatch e⟩

theorem sub (h : Hdr) (d : Fin 32) (a : Fin 32) (b : Fin 32) : Statement (.sub h d a b) :=
  ⟨by simp only [encode, hdr]; omega, fun e => nomatch e⟩

theorem and (h : Hdr) (d : Fin 32) (a : Fin 32) (b : Fin 32) : Statement (.and h d a b) :=
  ⟨by simp only [encode, hdr]; omega, fun e => nomatch e⟩

theorem or (h : Hdr) (d : Fin 32) (a : Fin 32) (b : Fin 32) : Statement (.or h d a b) :=
  ⟨by simp only [encode, hdr]; omega, fun e => nomatch e⟩

theorem xor (h : Hdr) (d : Fin 32) (a : Fin 32) (b : Fin 32) : Statement (.xor h d a b) :=
  ⟨by simp only [encode, hdr]; omega, fun e => nomatch e⟩

theorem shl (h : Hdr) (d : Fin 32) (a : Fin 32) (b : Fin 32) : Statement (.shl h d a b) :=
  ⟨by simp only [encode, hdr]; omega, fun e => nomatch e⟩

theorem shr (h : Hdr) (d : Fin 32) (a : Fin 32) (b : Fin 32) : Statement (.shr h d a b) :=
  ⟨by simp only [encode, hdr]; omega, fun e => nomatch e⟩

theorem sra (h : Hdr) (d : Fin 32) (a : Fin 32) (b : Fin 32) : Statement (.sra h d a b) :=
  ⟨by simp only [encode, hdr]; omega, fun e => nomatch e⟩

theorem slt (h : Hdr) (d : Fin 32) (a : Fin 32) (b : Fin 32) : Statement (.slt h d a b) :=
  ⟨by simp only [encode, hdr]; omega, fun e => nomatch e⟩

theorem sltu (h : Hdr) (d : Fin 32) (a : Fin 32) (b : Fin 32) : Statement (.sltu h d a b) :=
  ⟨by simp only [encode, hdr]; omega, fun e => nomatch e⟩

theorem min (h : Hdr) (d : Fin 32) (a : Fin 32) (b : Fin 32) : Statement (.min h d a b) :=
  ⟨by simp only [encode, hdr]; omega, fun e => nomatch e⟩

theorem max (h : Hdr) (d : Fin 32) (a : Fin 32) (b : Fin 32) : Statement (.max h d a b) :=
  ⟨by simp only [encode, hdr]; omega, fun e => nomatch e⟩

theorem minu (h : Hdr) (d : Fin 32) (a : Fin 32) (b : Fin 32) : Statement (.minu h d a b) :=
  ⟨by simp only [encode, hdr]; omega, fun e => nomatch e⟩

theorem maxu (h : Hdr) (d : Fin 32) (a : Fin 32) (b : Fin 32) : Statement (.maxu h d a b) :=
  ⟨by simp only [encode, hdr]; omega, fun e => nomatch e⟩

theorem mul (h : Hdr) (d : Fin 32) (a : Fin 32) (b : Fin 32) : Statement (.mul h d a b) :=
  ⟨by simp only [encode, hdr]; omega, fun e => nomatch e⟩

theorem mulh (h : Hdr) (d : Fin 32) (a : Fin 32) (b : Fin 32) : Statement (.mulh h d a b) :=
  ⟨by simp only [encode, hdr]; omega, fun e => nomatch e⟩

theorem mulhu (h : Hdr) (d : Fin 32) (a : Fin 32) (b : Fin 32) : Statement (.mulhu h d a b) :=
  ⟨by simp only [encode, hdr]; omega, fun e => nomatch e⟩

theorem div (h : Hdr) (d : Fin 32) (a : Fin 32) (b : Fin 32) : Statement (.div h d a b) :=
  ⟨by simp only [encode, hdr]; omega, fun e => nomatch e⟩

theorem divu (h : Hdr) (d : Fin 32) (a : Fin 32) (b : Fin 32) : Statement (.divu h d a b) :=
  ⟨by simp only [encode, hdr]; omega, fun e => nomatch e⟩

theorem rem (h : Hdr) (d : Fin 32) (a : Fin 32) (b : Fin 32) : Statement (.rem h d a b) :=
  ⟨by simp only [encode, hdr]; omega, fun e => nomatch e⟩

theorem remu (h : Hdr) (d : Fin 32) (a : Fin 32) (b : Fin 32) : Statement (.remu h d a b) :=
  ⟨by simp only [encode, hdr]; omega, fun e => nomatch e⟩

theorem clz (h : Hdr) (d : Fin 32) (a : Fin 32) : Statement (.clz h d a) :=
  ⟨by simp only [encode, hdr]; omega, fun e => nomatch e⟩

theorem popc (h : Hdr) (d : Fin 32) (a : Fin 32) : Statement (.popc h d a) :=
  ⟨by simp only [encode, hdr]; omega, fun e => nomatch e⟩

theorem addi (h : Hdr) (d : Fin 32) (a : Fin 32) (i : Fin 2048) : Statement (.addi h d a i) :=
  ⟨by simp only [encode, hdr]; omega, fun e => nomatch e⟩

theorem andi (h : Hdr) (d : Fin 32) (a : Fin 32) (i : Fin 2048) : Statement (.andi h d a i) :=
  ⟨by simp only [encode, hdr]; omega, fun e => nomatch e⟩

theorem ori (h : Hdr) (d : Fin 32) (a : Fin 32) (i : Fin 2048) : Statement (.ori h d a i) :=
  ⟨by simp only [encode, hdr]; omega, fun e => nomatch e⟩

theorem xori (h : Hdr) (d : Fin 32) (a : Fin 32) (i : Fin 2048) : Statement (.xori h d a i) :=
  ⟨by simp only [encode, hdr]; omega, fun e => nomatch e⟩

theorem slti (h : Hdr) (d : Fin 32) (a : Fin 32) (i : Fin 2048) : Statement (.slti h d a i) :=
  ⟨by simp only [encode, hdr]; omega, fun e => nomatch e⟩

theorem sltiu (h : Hdr) (d : Fin 32) (a : Fin 32) (i : Fin 2048) : Statement (.sltiu h d a i) :=
  ⟨by simp only [encode, hdr]; omega, fun e => nomatch e⟩

theorem shli (h : Hdr) (d : Fin 32) (a : Fin 32) (i : Fin 64) : Statement (.shli h d a i) :=
  ⟨by simp only [encode, hdr]; omega, fun e => nomatch e⟩

theorem shri (h : Hdr) (d : Fin 32) (a : Fin 32) (i : Fin 64) : Statement (.shri h d a i) :=
  ⟨by simp only [encode, hdr]; omega, fun e => nomatch e⟩

theorem srai (h : Hdr) (d : Fin 32) (a : Fin 32) (i : Fin 64) : Statement (.srai h d a i) :=
  ⟨by simp only [encode, hdr]; omega, fun e => nomatch e⟩

theorem movi (h : Hdr) (d : Fin 32) (i : Fin 65536) : Statement (.movi h d i) :=
  ⟨by simp only [encode, hdr]; omega, fun e => nomatch e⟩

theorem movk1 (h : Hdr) (d : Fin 32) (i : Fin 65536) : Statement (.movk1 h d i) :=
  ⟨by simp only [encode, hdr]; omega, fun e => nomatch e⟩

theorem movk2 (h : Hdr) (d : Fin 32) (i : Fin 65536) : Statement (.movk2 h d i) :=
  ⟨by simp only [encode, hdr]; omega, fun e => nomatch e⟩

theorem movk3 (h : Hdr) (d : Fin 32) (i : Fin 65536) : Statement (.movk3 h d i) :=
  ⟨by simp only [encode, hdr]; omega, fun e => nomatch e⟩

theorem beqz (h : Hdr) (a : Fin 32) (o : Fin 8192) : Statement (.beqz h a o) :=
  ⟨by simp only [encode, hdr]; omega, fun e => nomatch e⟩

theorem bnez (h : Hdr) (a : Fin 32) (o : Fin 8192) : Statement (.bnez h a o) :=
  ⟨by simp only [encode, hdr]; omega, fun e => nomatch e⟩

theorem bltz (h : Hdr) (a : Fin 32) (o : Fin 8192) : Statement (.bltz h a o) :=
  ⟨by simp only [encode, hdr]; omega, fun e => nomatch e⟩

theorem bgez (h : Hdr) (a : Fin 32) (o : Fin 8192) : Statement (.bgez h a o) :=
  ⟨by simp only [encode, hdr]; omega, fun e => nomatch e⟩

theorem blez (h : Hdr) (a : Fin 32) (o : Fin 8192) : Statement (.blez h a o) :=
  ⟨by simp only [encode, hdr]; omega, fun e => nomatch e⟩

theorem bgtz (h : Hdr) (a : Fin 32) (o : Fin 8192) : Statement (.bgtz h a o) :=
  ⟨by simp only [encode, hdr]; omega, fun e => nomatch e⟩

theorem br (h : Hdr) (o : Fin 8192) : Statement (.br h o) :=
  ⟨by simp only [encode, hdr]; omega, fun e => nomatch e⟩

theorem j (h : Hdr) (o : Fin 2097152) : Statement (.j h o) :=
  ⟨by simp only [encode, hdr]; omega, fun e => nomatch e⟩

theorem jal (h : Hdr) (o : Fin 2097152) : Statement (.jal h o) :=
  ⟨by simp only [encode, hdr]; omega, fun e => nomatch e⟩

theorem jr (h : Hdr) (a : Fin 32) : Statement (.jr h a) :=
  ⟨by simp only [encode, hdr]; omega, fun e => nomatch e⟩

theorem jalr (h : Hdr) (d : Fin 32) (a : Fin 32) : Statement (.jalr h d a) :=
  ⟨by simp only [encode, hdr]; omega, fun e => nomatch e⟩

theorem loop (h : Hdr) (a : Fin 32) (i : Fin 1024) : Statement (.loop h a i) :=
  ⟨by simp only [encode, hdr]; omega, fun e => nomatch e⟩

theorem cadd (h : Hdr) (a : Fin 32) (b : Fin 32) (c : Fin 8) : Statement (.cadd h a b c) :=
  ⟨by simp only [encode, hdr]; omega, fun e => nomatch e⟩

theorem cwait (h : Hdr) (a : Fin 32) (b : Fin 32) (c : Fin 8) : Statement (.cwait h a b c) :=
  ⟨by simp only [encode, hdr]; omega, fun e => nomatch e⟩

theorem bar (h : Hdr) (a : Fin 32) (b : Fin 32) (c : Fin 8) : Statement (.bar h a b c) :=
  ⟨by simp only [encode, hdr]; omega, fun e => nomatch e⟩

theorem mfence (h : Hdr) (d : Fin 32) (a : Fin 32) (m : Fin 32) : Statement (.mfence h d a m) :=
  ⟨by simp only [encode, hdr]; omega, fun e => nomatch e⟩

theorem sprd (h : Hdr) (d : Fin 32) (a : Fin 32) (n : Fin 2048) : Statement (.sprd h d a n) :=
  ⟨by simp only [encode, hdr]; omega, fun e => nomatch e⟩

theorem sprdDmdq (h : Hdr) (d : Fin 32) (a : Fin 32) : Statement (.sprdDmdq h d a) :=
  ⟨by simp only [encode, hdr]; omega, fun e => nomatch e⟩

theorem spwr (h : Hdr) (a : Fin 32) (n : Fin 2048) : Statement (.spwr h a n) :=
  ⟨by simp only [encode, hdr]; omega, fun e => nomatch e⟩

theorem spwrJoinmask (h : Hdr) (a : Fin 32) : Statement (.spwrJoinmask h a) :=
  ⟨by simp only [encode, hdr]; omega, fun e => nomatch e⟩

theorem spwrSpsplit (h : Hdr) (a : Fin 32) : Statement (.spwrSpsplit h a) :=
  ⟨by simp only [encode, hdr]; omega, fun e => nomatch e⟩

theorem spwrMprog (h : Hdr) (a : Fin 32) : Statement (.spwrMprog h a) :=
  ⟨by simp only [encode, hdr]; omega, fun e => nomatch e⟩

theorem spwrDmsub (h : Hdr) (a : Fin 32) : Statement (.spwrDmsub h a) :=
  ⟨by simp only [encode, hdr]; omega, fun e => nomatch e⟩

theorem spwrTret (h : Hdr) (a : Fin 32) : Statement (.spwrTret h a) :=
  ⟨by simp only [encode, hdr]; omega, fun e => nomatch e⟩

theorem halt (h : Hdr) : Statement (.halt h) :=
  ⟨by simp only [encode, hdr]; omega, fun e => nomatch e⟩

theorem swi (h : Hdr) (i : Fin 2048) : Statement (.swi h i) :=
  ⟨by simp only [encode, hdr]; omega, fun e => nomatch e⟩

theorem start (h : Hdr) (t : Fin 8) (e : Fin 32768) : Statement (.start h t e) :=
  ⟨by simp only [encode, hdr]; omega, fun e => nomatch e⟩

theorem nest (h : Hdr) (d : Fin 32) (a : Fin 32) (b : Fin 32) : Statement (.nest h d a b) :=
  ⟨by simp only [encode, hdr]; omega, fun e => nomatch e⟩

theorem taskpush (h : Hdr) (d : Fin 32) (a : Fin 32) (b : Fin 32) : Statement (.taskpush h d a b) :=
  ⟨by simp only [encode, hdr]; omega, fun e => nomatch e⟩

theorem taskpop (h : Hdr) (d : Fin 32) (a : Fin 32) : Statement (.taskpop h d a) :=
  ⟨by simp only [encode, hdr]; omega, fun e => nomatch e⟩

theorem yield (h : Hdr) : Statement (.yield h) :=
  ⟨by simp only [encode, hdr]; omega, fun e => nomatch e⟩

theorem canst (h : Hdr) (d : Fin 32) : Statement (.canst h d) :=
  ⟨by simp only [encode, hdr]; omega, fun e => nomatch e⟩

theorem ssave (h : Hdr) (d : Fin 32) (a : Fin 32) : Statement (.ssave h d a) :=
  ⟨by simp only [encode, hdr]; omega, fun e => nomatch e⟩

theorem srest (h : Hdr) (d : Fin 32) (a : Fin 32) : Statement (.srest h d a) :=
  ⟨by simp only [encode, hdr]; omega, fun e => nomatch e⟩

theorem gpwr (h : Hdr) (a : Fin 32) (b : Fin 32) : Statement (.gpwr h a b) :=
  ⟨by simp only [encode, hdr]; omega, fun e => nomatch e⟩

theorem gprd (h : Hdr) (d : Fin 32) (a : Fin 32) : Statement (.gprd h d a) :=
  ⟨by simp only [encode, hdr]; omega, fun e => nomatch e⟩

theorem awlrun (h : Hdr) (d : Fin 32) (a : Fin 32) (b : Fin 32) : Statement (.awlrun h d a b) :=
  ⟨by simp only [encode, hdr]; omega, fun e => nomatch e⟩

theorem ovl (h : Hdr) (d : Fin 32) (a : Fin 32) : Statement (.ovl h d a) :=
  ⟨by simp only [encode, hdr]; omega, fun e => nomatch e⟩

theorem tlbinv (h : Hdr) (a : Fin 32) : Statement (.tlbinv h a) :=
  ⟨by simp only [encode, hdr]; omega, fun e => nomatch e⟩

theorem tlbinva (h : Hdr) : Statement (.tlbinva h) :=
  ⟨by simp only [encode, hdr]; omega, fun e => nomatch e⟩

theorem cwb (h : Hdr) (a : Fin 32) (b : Fin 32) : Statement (.cwb h a b) :=
  ⟨by simp only [encode, hdr]; omega, fun e => nomatch e⟩

theorem cinv (h : Hdr) (a : Fin 32) (b : Fin 32) : Statement (.cinv h a b) :=
  ⟨by simp only [encode, hdr]; omega, fun e => nomatch e⟩

theorem fwcall (h : Hdr) (d : Fin 32) (a : Fin 32) (b : Fin 32) : Statement (.fwcall h d a b) :=
  ⟨by simp only [encode, hdr]; omega, fun e => nomatch e⟩

theorem vfadd (h : Hdr) (d : Fin 128) (a : Fin 128) (b : Fin 128) : Statement (.vfadd h d a b) :=
  ⟨by simp only [encode, hdr]; omega, fun e => nomatch e⟩

theorem vfsub (h : Hdr) (d : Fin 128) (a : Fin 128) (b : Fin 128) : Statement (.vfsub h d a b) :=
  ⟨by simp only [encode, hdr]; omega, fun e => nomatch e⟩

theorem vfmul (h : Hdr) (d : Fin 128) (a : Fin 128) (b : Fin 128) : Statement (.vfmul h d a b) :=
  ⟨by simp only [encode, hdr]; omega, fun e => nomatch e⟩

theorem vfma (h : Hdr) (d : Fin 128) (a : Fin 128) (b : Fin 128) : Statement (.vfma h d a b) :=
  ⟨by simp only [encode, hdr]; omega, fun e => nomatch e⟩

theorem vfmax (h : Hdr) (d : Fin 128) (a : Fin 128) (b : Fin 128) : Statement (.vfmax h d a b) :=
  ⟨by simp only [encode, hdr]; omega, fun e => nomatch e⟩

theorem vfmin (h : Hdr) (d : Fin 128) (a : Fin 128) (b : Fin 128) : Statement (.vfmin h d a b) :=
  ⟨by simp only [encode, hdr]; omega, fun e => nomatch e⟩

theorem vfceq (h : Hdr) (d : Fin 128) (a : Fin 128) (b : Fin 128) : Statement (.vfceq h d a b) :=
  ⟨by simp only [encode, hdr]; omega, fun e => nomatch e⟩

theorem vfclt (h : Hdr) (d : Fin 128) (a : Fin 128) (b : Fin 128) : Statement (.vfclt h d a b) :=
  ⟨by simp only [encode, hdr]; omega, fun e => nomatch e⟩

theorem vfcle (h : Hdr) (d : Fin 128) (a : Fin 128) (b : Fin 128) : Statement (.vfcle h d a b) :=
  ⟨by simp only [encode, hdr]; omega, fun e => nomatch e⟩

theorem vbadd (h : Hdr) (d : Fin 128) (a : Fin 128) (b : Fin 128) : Statement (.vbadd h d a b) :=
  ⟨by simp only [encode, hdr]; omega, fun e => nomatch e⟩

theorem vbsub (h : Hdr) (d : Fin 128) (a : Fin 128) (b : Fin 128) : Statement (.vbsub h d a b) :=
  ⟨by simp only [encode, hdr]; omega, fun e => nomatch e⟩

theorem vbmul (h : Hdr) (d : Fin 128) (a : Fin 128) (b : Fin 128) : Statement (.vbmul h d a b) :=
  ⟨by simp only [encode, hdr]; omega, fun e => nomatch e⟩

theorem vbfma (h : Hdr) (d : Fin 128) (a : Fin 128) (b : Fin 128) : Statement (.vbfma h d a b) :=
  ⟨by simp only [encode, hdr]; omega, fun e => nomatch e⟩

theorem vadd (h : Hdr) (d : Fin 128) (a : Fin 128) (b : Fin 128) : Statement (.vadd h d a b) :=
  ⟨by simp only [encode, hdr]; omega, fun e => nomatch e⟩

theorem vsub (h : Hdr) (d : Fin 128) (a : Fin 128) (b : Fin 128) : Statement (.vsub h d a b) :=
  ⟨by simp only [encode, hdr]; omega, fun e => nomatch e⟩

theorem vmul (h : Hdr) (d : Fin 128) (a : Fin 128) (b : Fin 128) : Statement (.vmul h d a b) :=
  ⟨by simp only [encode, hdr]; omega, fun e => nomatch e⟩

theorem vand (h : Hdr) (d : Fin 128) (a : Fin 128) (b : Fin 128) : Statement (.vand h d a b) :=
  ⟨by simp only [encode, hdr]; omega, fun e => nomatch e⟩

theorem vor (h : Hdr) (d : Fin 128) (a : Fin 128) (b : Fin 128) : Statement (.vor h d a b) :=
  ⟨by simp only [encode, hdr]; omega, fun e => nomatch e⟩

theorem vxor (h : Hdr) (d : Fin 128) (a : Fin 128) (b : Fin 128) : Statement (.vxor h d a b) :=
  ⟨by simp only [encode, hdr]; omega, fun e => nomatch e⟩

theorem vshl (h : Hdr) (d : Fin 128) (a : Fin 128) (b : Fin 128) : Statement (.vshl h d a b) :=
  ⟨by simp only [encode, hdr]; omega, fun e => nomatch e⟩

theorem vshr (h : Hdr) (d : Fin 128) (a : Fin 128) (b : Fin 128) : Statement (.vshr h d a b) :=
  ⟨by simp only [encode, hdr]; omega, fun e => nomatch e⟩

theorem vsra (h : Hdr) (d : Fin 128) (a : Fin 128) (b : Fin 128) : Statement (.vsra h d a b) :=
  ⟨by simp only [encode, hdr]; omega, fun e => nomatch e⟩

theorem vmax (h : Hdr) (d : Fin 128) (a : Fin 128) (b : Fin 128) : Statement (.vmax h d a b) :=
  ⟨by simp only [encode, hdr]; omega, fun e => nomatch e⟩

theorem vmin (h : Hdr) (d : Fin 128) (a : Fin 128) (b : Fin 128) : Statement (.vmin h d a b) :=
  ⟨by simp only [encode, hdr]; omega, fun e => nomatch e⟩

theorem vceq (h : Hdr) (d : Fin 128) (a : Fin 128) (b : Fin 128) : Statement (.vceq h d a b) :=
  ⟨by simp only [encode, hdr]; omega, fun e => nomatch e⟩

theorem vclt (h : Hdr) (d : Fin 128) (a : Fin 128) (b : Fin 128) : Statement (.vclt h d a b) :=
  ⟨by simp only [encode, hdr]; omega, fun e => nomatch e⟩

theorem vsel (h : Hdr) (d : Fin 128) (a : Fin 128) (b : Fin 128) : Statement (.vsel h d a b) :=
  ⟨by simp only [encode, hdr]; omega, fun e => nomatch e⟩

theorem vshli (h : Hdr) (d : Fin 128) (a : Fin 128) (i : Fin 32) : Statement (.vshli h d a i) :=
  ⟨by simp only [encode, hdr]; omega, fun e => nomatch e⟩

theorem vmov (h : Hdr) (d : Fin 128) (a : Fin 128) : Statement (.vmov h d a) :=
  ⟨by simp only [encode, hdr]; omega, fun e => nomatch e⟩

theorem vcvtfb (h : Hdr) (d : Fin 128) (a : Fin 128) (b : Fin 128) : Statement (.vcvtfb h d a b) :=
  ⟨by simp only [encode, hdr]; omega, fun e => nomatch e⟩

theorem vcvtbf (h : Hdr) (d : Fin 128) (a : Fin 128) (b : Fin 128) : Statement (.vcvtbf h d a b) :=
  ⟨by simp only [encode, hdr]; omega, fun e => nomatch e⟩

theorem vcvtfi (h : Hdr) (d : Fin 128) (a : Fin 128) (b : Fin 128) : Statement (.vcvtfi h d a b) :=
  ⟨by simp only [encode, hdr]; omega, fun e => nomatch e⟩

theorem vcvtif (h : Hdr) (d : Fin 128) (a : Fin 128) (b : Fin 128) : Statement (.vcvtif h d a b) :=
  ⟨by simp only [encode, hdr]; omega, fun e => nomatch e⟩

theorem vcvtl8 (h : Hdr) (d : Fin 128) (a : Fin 128) (b : Fin 128) : Statement (.vcvtl8 h d a b) :=
  ⟨by simp only [encode, hdr]; omega, fun e => nomatch e⟩

theorem vcvtl6 (h : Hdr) (d : Fin 128) (a : Fin 128) (b : Fin 128) : Statement (.vcvtl6 h d a b) :=
  ⟨by simp only [encode, hdr]; omega, fun e => nomatch e⟩

theorem vxl8 (h : Hdr) (d : Fin 128) (a : Fin 128) (b : Fin 128) : Statement (.vxl8 h d a b) :=
  ⟨by simp only [encode, hdr]; omega, fun e => nomatch e⟩

theorem vxl6 (h : Hdr) (d : Fin 128) (a : Fin 128) (b : Fin 128) : Statement (.vxl6 h d a b) :=
  ⟨by simp only [encode, hdr]; omega, fun e => nomatch e⟩

theorem vexp2 (h : Hdr) (d : Fin 128) (a : Fin 128) : Statement (.vexp2 h d a) :=
  ⟨by simp only [encode, hdr]; omega, fun e => nomatch e⟩

theorem vlog2 (h : Hdr) (d : Fin 128) (a : Fin 128) : Statement (.vlog2 h d a) :=
  ⟨by simp only [encode, hdr]; omega, fun e => nomatch e⟩

theorem vrcp (h : Hdr) (d : Fin 128) (a : Fin 128) : Statement (.vrcp h d a) :=
  ⟨by simp only [encode, hdr]; omega, fun e => nomatch e⟩

theorem vrsq (h : Hdr) (d : Fin 128) (a : Fin 128) : Statement (.vrsq h d a) :=
  ⟨by simp only [encode, hdr]; omega, fun e => nomatch e⟩

theorem vredadd (h : Hdr) (d : Fin 128) (a : Fin 128) : Statement (.vredadd h d a) :=
  ⟨by simp only [encode, hdr]; omega, fun e => nomatch e⟩

theorem vredmax (h : Hdr) (d : Fin 128) (a : Fin 128) : Statement (.vredmax h d a) :=
  ⟨by simp only [encode, hdr]; omega, fun e => nomatch e⟩

theorem vredmin (h : Hdr) (d : Fin 128) (a : Fin 128) : Statement (.vredmin h d a) :=
  ⟨by simp only [encode, hdr]; omega, fun e => nomatch e⟩

theorem vrediadd (h : Hdr) (d : Fin 128) (a : Fin 128) : Statement (.vrediadd h d a) :=
  ⟨by simp only [encode, hdr]; omega, fun e => nomatch e⟩

theorem vperm (h : Hdr) (d : Fin 128) (a : Fin 128) (b : Fin 128) : Statement (.vperm h d a b) :=
  ⟨by simp only [encode, hdr]; omega, fun e => nomatch e⟩

theorem vrot (h : Hdr) (d : Fin 128) (a : Fin 128) (i : Fin 32) : Statement (.vrot h d a i) :=
  ⟨by simp only [encode, hdr]; omega, fun e => nomatch e⟩

theorem vbcast (h : Hdr) (d : Fin 128) (r : Fin 32) : Statement (.vbcast h d r) :=
  ⟨by simp only [encode, hdr]; omega, fun e => nomatch e⟩

theorem vext (h : Hdr) (v : Fin 128) (r : Fin 32) (l : Fin 32) : Statement (.vext h v r l) :=
  ⟨by simp only [encode, hdr]; omega, fun e => nomatch e⟩

theorem vimm (h : Hdr) (d : Fin 128) (i : Fin 128) : Statement (.vimm h d i) :=
  ⟨by simp only [encode, hdr]; omega, fun e => nomatch e⟩

theorem vld (h : Hdr) (v : Fin 128) (t : Fin 512) (l : Fin 32) : Statement (.vld h v t l) :=
  ⟨by simp only [encode, hdr]; omega, fun e => nomatch e⟩

theorem vst (h : Hdr) (v : Fin 128) (t : Fin 512) (l : Fin 32) : Statement (.vst h v t l) :=
  ⟨by simp only [encode, hdr]; omega, fun e => nomatch e⟩

theorem mvaccRow (h : Hdr) (d : Fin 128) (c : Fin 4) (g : Fin 8) (x : Fin 32) : Statement (.mvaccRow h d c g x) :=
  ⟨by simp only [encode, hdr]; omega, fun e => nomatch e⟩

theorem mvaccCol (h : Hdr) (d : Fin 128) (c : Fin 4) (g : Fin 8) (x : Fin 32) : Statement (.mvaccCol h d c g x) :=
  ⟨by simp only [encode, hdr]; omega, fun e => nomatch e⟩

theorem mvaccRowPeek (h : Hdr) (d : Fin 128) (c : Fin 4) (g : Fin 8) (x : Fin 32) : Statement (.mvaccRowPeek h d c g x) :=
  ⟨by simp only [encode, hdr]; omega, fun e => nomatch e⟩

theorem mvaccColPeek (h : Hdr) (d : Fin 128) (c : Fin 4) (g : Fin 8) (x : Fin 32) : Statement (.mvaccColPeek h d c g x) :=
  ⟨by simp only [encode, hdr]; omega, fun e => nomatch e⟩

theorem wldL8Tile (h : Hdr) (p : Fin 2) (t : Fin 512) : Statement (.wldL8Tile h p t) :=
  ⟨by simp only [encode, hdr]; omega, fun e => nomatch e⟩

theorem wldL8Handle (h : Hdr) (p : Fin 2) (a : Fin 32) : Statement (.wldL8Handle h p a) :=
  ⟨by simp only [encode, hdr]; omega, fun e => nomatch e⟩

theorem wldL6Tile (h : Hdr) (p : Fin 2) (t : Fin 512) : Statement (.wldL6Tile h p t) :=
  ⟨by simp only [encode, hdr]; omega, fun e => nomatch e⟩

theorem wldL6Handle (h : Hdr) (p : Fin 2) (a : Fin 32) : Statement (.wldL6Handle h p a) :=
  ⟨by simp only [encode, hdr]; omega, fun e => nomatch e⟩

theorem wldBf16Tile (h : Hdr) (p : Fin 2) (t : Fin 512) : Statement (.wldBf16Tile h p t) :=
  ⟨by simp only [encode, hdr]; omega, fun e => nomatch e⟩

theorem wldBf16Handle (h : Hdr) (p : Fin 2) (a : Fin 32) : Statement (.wldBf16Handle h p a) :=
  ⟨by simp only [encode, hdr]; omega, fun e => nomatch e⟩

theorem wldI8Tile (h : Hdr) (p : Fin 2) (t : Fin 512) : Statement (.wldI8Tile h p t) :=
  ⟨by simp only [encode, hdr]; omega, fun e => nomatch e⟩

theorem wldI8Handle (h : Hdr) (p : Fin 2) (a : Fin 32) : Statement (.wldI8Handle h p a) :=
  ⟨by simp only [encode, hdr]; omega, fun e => nomatch e⟩

theorem mmaL8Tile (h : Hdr) (c : Fin 4) (p : Fin 2) (k : Fin 8) (z : Fin 2) (t : Fin 512) : Statement (.mmaL8Tile h c p k z t) :=
  ⟨by simp only [encode, hdr]; omega, fun e => nomatch e⟩

theorem mmaL8Handle (h : Hdr) (c : Fin 4) (p : Fin 2) (k : Fin 8) (z : Fin 2) (a : Fin 32) : Statement (.mmaL8Handle h c p k z a) :=
  ⟨by simp only [encode, hdr]; omega, fun e => nomatch e⟩

theorem mmaL6Tile (h : Hdr) (c : Fin 4) (p : Fin 2) (k : Fin 8) (z : Fin 2) (t : Fin 512) : Statement (.mmaL6Tile h c p k z t) :=
  ⟨by simp only [encode, hdr]; omega, fun e => nomatch e⟩

theorem mmaL6Handle (h : Hdr) (c : Fin 4) (p : Fin 2) (k : Fin 8) (z : Fin 2) (a : Fin 32) : Statement (.mmaL6Handle h c p k z a) :=
  ⟨by simp only [encode, hdr]; omega, fun e => nomatch e⟩

theorem mmaBf16Tile (h : Hdr) (c : Fin 4) (p : Fin 2) (k : Fin 8) (z : Fin 2) (t : Fin 512) : Statement (.mmaBf16Tile h c p k z t) :=
  ⟨by simp only [encode, hdr]; omega, fun e => nomatch e⟩

theorem mmaBf16Handle (h : Hdr) (c : Fin 4) (p : Fin 2) (k : Fin 8) (z : Fin 2) (a : Fin 32) : Statement (.mmaBf16Handle h c p k z a) :=
  ⟨by simp only [encode, hdr]; omega, fun e => nomatch e⟩

theorem mmaI8Tile (h : Hdr) (c : Fin 4) (p : Fin 2) (k : Fin 8) (z : Fin 2) (t : Fin 512) : Statement (.mmaI8Tile h c p k z t) :=
  ⟨by simp only [encode, hdr]; omega, fun e => nomatch e⟩

theorem mmaI8Handle (h : Hdr) (c : Fin 4) (p : Fin 2) (k : Fin 8) (z : Fin 2) (a : Fin 32) : Statement (.mmaI8Handle h c p k z a) :=
  ⟨by simp only [encode, hdr]; omega, fun e => nomatch e⟩

theorem mdrain (h : Hdr) (c : Fin 4) (k : Fin 8) (t : Fin 512) (a : Fin 32) : Statement (.mdrain h c k t a) :=
  ⟨by simp only [encode, hdr]; omega, fun e => nomatch e⟩

theorem mzero (h : Hdr) (c : Fin 4) : Statement (.mzero h c) :=
  ⟨by simp only [encode, hdr]; omega, fun e => nomatch e⟩

theorem mkld (h : Hdr) (k : Fin 8) (t : Fin 512) (l : Fin 32) : Statement (.mkld h k t l) :=
  ⟨by simp only [encode, hdr]; omega, fun e => nomatch e⟩

theorem mkrng (h : Hdr) (k : Fin 8) (a : Fin 32) (b : Fin 32) : Statement (.mkrng h k a b) :=
  ⟨by simp only [encode, hdr]; omega, fun e => nomatch e⟩

theorem mkall (h : Hdr) (k : Fin 8) : Statement (.mkall h k) :=
  ⟨by simp only [encode, hdr]; omega, fun e => nomatch e⟩

theorem mpbld (h : Hdr) (a : Fin 32) : Statement (.mpbld h a) :=
  ⟨by simp only [encode, hdr]; omega, fun e => nomatch e⟩

theorem lutld (h : Hdr) (a : Fin 32) : Statement (.lutld h a) :=
  ⟨by simp only [encode, hdr]; omega, fun e => nomatch e⟩

theorem mwait (h : Hdr) (c : Fin 4) : Statement (.mwait h c) :=
  ⟨by simp only [encode, hdr]; omega, fun e => nomatch e⟩

theorem trgo (h : Hdr) (a : Fin 32) : Statement (.trgo h a) :=
  ⟨by simp only [encode, hdr]; omega, fun e => nomatch e⟩

theorem trstop (h : Hdr) : Statement (.trstop h) :=
  ⟨by simp only [encode, hdr]; omega, fun e => nomatch e⟩

theorem trwait (h : Hdr) : Statement (.trwait h) :=
  ⟨by simp only [encode, hdr]; omega, fun e => nomatch e⟩

theorem ld (h : Hdr) (d : Fin 32) (a : Fin 32) (p : Fin 32) (n : Fin 4) (x : Fin 2) : Statement (.ld h d a p n x) :=
  ⟨by simp only [encode, hdr]; omega, fun e => nomatch e⟩

theorem st (h : Hdr) (d : Fin 32) (a : Fin 32) (p : Fin 32) (n : Fin 4) : Statement (.st h d a p n) :=
  ⟨by simp only [encode, hdr]; omega, fun e => nomatch e⟩

theorem pf (h : Hdr) (a : Fin 32) (p : Fin 32) (n : Fin 4) : Statement (.pf h a p n) :=
  ⟨by simp only [encode, hdr]; omega, fun e => nomatch e⟩

theorem amoAdd (h : Hdr) (d : Fin 32) (a : Fin 32) (b : Fin 32) (p : Fin 32) (z : Fin 2) : Statement (.amoAdd h d a b p z) :=
  ⟨by simp only [encode, hdr]; omega, fun e => nomatch e⟩

theorem amoAnd (h : Hdr) (d : Fin 32) (a : Fin 32) (b : Fin 32) (p : Fin 32) (z : Fin 2) : Statement (.amoAnd h d a b p z) :=
  ⟨by simp only [encode, hdr]; omega, fun e => nomatch e⟩

theorem amoOr (h : Hdr) (d : Fin 32) (a : Fin 32) (b : Fin 32) (p : Fin 32) (z : Fin 2) : Statement (.amoOr h d a b p z) :=
  ⟨by simp only [encode, hdr]; omega, fun e => nomatch e⟩

theorem amoXor (h : Hdr) (d : Fin 32) (a : Fin 32) (b : Fin 32) (p : Fin 32) (z : Fin 2) : Statement (.amoXor h d a b p z) :=
  ⟨by simp only [encode, hdr]; omega, fun e => nomatch e⟩

theorem amoMax (h : Hdr) (d : Fin 32) (a : Fin 32) (b : Fin 32) (p : Fin 32) (z : Fin 2) : Statement (.amoMax h d a b p z) :=
  ⟨by simp only [encode, hdr]; omega, fun e => nomatch e⟩

theorem amoMin (h : Hdr) (d : Fin 32) (a : Fin 32) (b : Fin 32) (p : Fin 32) (z : Fin 2) : Statement (.amoMin h d a b p z) :=
  ⟨by simp only [encode, hdr]; omega, fun e => nomatch e⟩

theorem amoSwap (h : Hdr) (d : Fin 32) (a : Fin 32) (b : Fin 32) (p : Fin 32) (z : Fin 2) : Statement (.amoSwap h d a b p z) :=
  ⟨by simp only [encode, hdr]; omega, fun e => nomatch e⟩

theorem amoCas (h : Hdr) (d : Fin 32) (a : Fin 32) (b : Fin 32) (p : Fin 32) (z : Fin 2) : Statement (.amoCas h d a b p z) :=
  ⟨by simp only [encode, hdr]; omega, fun e => nomatch e⟩

theorem redAdd (h : Hdr) (a : Fin 32) (b : Fin 32) (p : Fin 32) (z : Fin 2) : Statement (.redAdd h a b p z) :=
  ⟨by simp only [encode, hdr]; omega, fun e => nomatch e⟩

theorem redMax (h : Hdr) (a : Fin 32) (b : Fin 32) (p : Fin 32) (z : Fin 2) : Statement (.redMax h a b p z) :=
  ⟨by simp only [encode, hdr]; omega, fun e => nomatch e⟩

theorem redMin (h : Hdr) (a : Fin 32) (b : Fin 32) (p : Fin 32) (z : Fin 2) : Statement (.redMin h a b p z) :=
  ⟨by simp only [encode, hdr]; omega, fun e => nomatch e⟩

theorem talloc (h : Hdr) (t : Fin 512) (c : Fin 32) : Statement (.talloc h t c) :=
  ⟨by simp only [encode, hdr]; omega, fun e => nomatch e⟩

theorem tseal (h : Hdr) (t : Fin 512) : Statement (.tseal h t) :=
  ⟨by simp only [encode, hdr]; omega, fun e => nomatch e⟩

theorem twait (h : Hdr) (t : Fin 512) : Statement (.twait h t) :=
  ⟨by simp only [encode, hdr]; omega, fun e => nomatch e⟩

theorem tstat (h : Hdr) (d : Fin 32) (t : Fin 512) : Statement (.tstat h d t) :=
  ⟨by simp only [encode, hdr]; omega, fun e => nomatch e⟩

theorem tdrop (h : Hdr) (t : Fin 512) : Statement (.tdrop h t) :=
  ⟨by simp only [encode, hdr]; omega, fun e => nomatch e⟩

theorem wcpIn (h : Hdr) (a : Fin 32) (b : Fin 32) (c : Fin 32) (k : Fin 32) : Statement (.wcpIn h a b c k) :=
  ⟨by simp only [encode, hdr]; omega, fun e => nomatch e⟩

theorem wcpOut (h : Hdr) (a : Fin 32) (b : Fin 32) (c : Fin 32) (k : Fin 32) : Statement (.wcpOut h a b c k) :=
  ⟨by simp only [encode, hdr]; omega, fun e => nomatch e⟩

theorem wcpRt (h : Hdr) (a : Fin 32) (b : Fin 32) (c : Fin 32) (k : Fin 32) : Statement (.wcpRt h a b c k) :=
  ⟨by simp only [encode, hdr]; omega, fun e => nomatch e⟩

theorem wcpGg (h : Hdr) (a : Fin 32) (b : Fin 32) (c : Fin 32) (k : Fin 32) : Statement (.wcpGg h a b c k) :=
  ⟨by simp only [encode, hdr]; omega, fun e => nomatch e⟩

theorem wcpCond (h : Hdr) (a : Fin 32) (b : Fin 32) (c : Fin 32) (k : Fin 32) : Statement (.wcpCond h a b c k) :=
  ⟨by simp only [encode, hdr]; omega, fun e => nomatch e⟩

theorem wcpMm (h : Hdr) (a : Fin 32) (b : Fin 32) (c : Fin 32) (k : Fin 32) : Statement (.wcpMm h a b c k) :=
  ⟨by simp only [encode, hdr]; omega, fun e => nomatch e⟩

theorem coll (h : Hdr) (a : Fin 32) (b : Fin 32) (c : Fin 32) (k : Fin 32) : Statement (.coll h a b c k) :=
  ⟨by simp only [encode, hdr]; omega, fun e => nomatch e⟩

theorem kvapp (h : Hdr) (a : Fin 32) (b : Fin 32) (c : Fin 32) (k : Fin 32) : Statement (.kvapp h a b c k) :=
  ⟨by simp only [encode, hdr]; omega, fun e => nomatch e⟩

theorem kvqry (h : Hdr) (a : Fin 32) (b : Fin 32) (c : Fin 32) (k : Fin 32) : Statement (.kvqry h a b c k) :=
  ⟨by simp only [encode, hdr]; omega, fun e => nomatch e⟩

theorem kvfork (h : Hdr) (a : Fin 32) (b : Fin 32) (k : Fin 32) : Statement (.kvfork h a b k) :=
  ⟨by simp only [encode, hdr]; omega, fun e => nomatch e⟩

theorem kvcan (h : Hdr) (a : Fin 32) (b : Fin 32) (k : Fin 32) : Statement (.kvcan h a b k) :=
  ⟨by simp only [encode, hdr]; omega, fun e => nomatch e⟩

theorem kvmig (h : Hdr) (a : Fin 32) (b : Fin 32) (k : Fin 32) : Statement (.kvmig h a b k) :=
  ⟨by simp only [encode, hdr]; omega, fun e => nomatch e⟩

theorem kvrel (h : Hdr) (a : Fin 32) (b : Fin 32) (k : Fin 32) : Statement (.kvrel h a b k) :=
  ⟨by simp only [encode, hdr]; omega, fun e => nomatch e⟩

theorem awlAdd (d : Fin 16) (a : Fin 16) (b : Fin 16) : Statement (.awlAdd d a b) :=
  ⟨by simp only [encode]; omega, fun e => nomatch e⟩

theorem awlSub (d : Fin 16) (a : Fin 16) (b : Fin 16) : Statement (.awlSub d a b) :=
  ⟨by simp only [encode]; omega, fun e => nomatch e⟩

theorem awlAnd (d : Fin 16) (a : Fin 16) (b : Fin 16) : Statement (.awlAnd d a b) :=
  ⟨by simp only [encode]; omega, fun e => nomatch e⟩

theorem awlShr (d : Fin 16) (a : Fin 16) (b : Fin 16) : Statement (.awlShr d a b) :=
  ⟨by simp only [encode]; omega, fun e => nomatch e⟩

theorem awlSlt (d : Fin 16) (a : Fin 16) (b : Fin 16) : Statement (.awlSlt d a b) :=
  ⟨by simp only [encode]; omega, fun e => nomatch e⟩

theorem awlAddi (d : Fin 16) (a : Fin 16) (i : Fin 16384) : Statement (.awlAddi d a i) :=
  ⟨by simp only [encode]; omega, fun e => nomatch e⟩

theorem awlWli (d : Fin 16) (i : Fin 262144) : Statement (.awlWli d i) :=
  ⟨by simp only [encode]; omega, fun e => nomatch e⟩

theorem awlFadd (d : Fin 16) (a : Fin 16) (b : Fin 16) : Statement (.awlFadd d a b) :=
  ⟨by simp only [encode]; omega, fun e => nomatch e⟩

theorem awlFmul (d : Fin 16) (a : Fin 16) (b : Fin 16) : Statement (.awlFmul d a b) :=
  ⟨by simp only [encode]; omega, fun e => nomatch e⟩

theorem awlFmax (d : Fin 16) (a : Fin 16) (b : Fin 16) : Statement (.awlFmax d a b) :=
  ⟨by simp only [encode]; omega, fun e => nomatch e⟩

theorem awlFrcp (d : Fin 16) (a : Fin 16) : Statement (.awlFrcp d a) :=
  ⟨by simp only [encode]; omega, fun e => nomatch e⟩

theorem awlFexp2 (d : Fin 16) (a : Fin 16) : Statement (.awlFexp2 d a) :=
  ⟨by simp only [encode]; omega, fun e => nomatch e⟩

theorem awlFlog2 (d : Fin 16) (a : Fin 16) : Statement (.awlFlog2 d a) :=
  ⟨by simp only [encode]; omega, fun e => nomatch e⟩

theorem awlFcvt (d : Fin 16) (a : Fin 16) : Statement (.awlFcvt d a) :=
  ⟨by simp only [encode]; omega, fun e => nomatch e⟩

theorem awlFint (d : Fin 16) (a : Fin 16) : Statement (.awlFint d a) :=
  ⟨by simp only [encode]; omega, fun e => nomatch e⟩

theorem awlFbits (d : Fin 16) (a : Fin 16) : Statement (.awlFbits d a) :=
  ⟨by simp only [encode]; omega, fun e => nomatch e⟩

theorem awlWbits (d : Fin 16) (a : Fin 16) : Statement (.awlWbits d a) :=
  ⟨by simp only [encode]; omega, fun e => nomatch e⟩

theorem awlLw (d : Fin 16) (a : Fin 16) (i : Fin 16384) : Statement (.awlLw d a i) :=
  ⟨by simp only [encode]; omega, fun e => nomatch e⟩

theorem awlSw (d : Fin 16) (a : Fin 16) (i : Fin 16384) : Statement (.awlSw d a i) :=
  ⟨by simp only [encode]; omega, fun e => nomatch e⟩

theorem awlBeq (a : Fin 16) (b : Fin 16) (o : Fin 16384) : Statement (.awlBeq a b o) :=
  ⟨by simp only [encode]; omega, fun e => nomatch e⟩

theorem awlBne (a : Fin 16) (b : Fin 16) (o : Fin 16384) : Statement (.awlBne a b o) :=
  ⟨by simp only [encode]; omega, fun e => nomatch e⟩

theorem awlBlt (a : Fin 16) (b : Fin 16) (o : Fin 16384) : Statement (.awlBlt a b o) :=
  ⟨by simp only [encode]; omega, fun e => nomatch e⟩

theorem awlJmp (o : Fin 67108864) : Statement (.awlJmp o) :=
  ⟨by simp only [encode]; omega, fun e => nomatch e⟩

theorem awlStop : Statement (.awlStop) :=
  ⟨by simp only [encode]; omega, fun e => nomatch e⟩

theorem awlCld (a : Fin 16) (b : Fin 16) : Statement (.awlCld a b) :=
  ⟨by simp only [encode]; omega, fun e => nomatch e⟩

theorem awlCpen (d : Fin 16) (a : Fin 16) (b : Fin 16) : Statement (.awlCpen d a b) :=
  ⟨by simp only [encode]; omega, fun e => nomatch e⟩

theorem awlCtopk (a : Fin 16) : Statement (.awlCtopk a) :=
  ⟨by simp only [encode]; omega, fun e => nomatch e⟩

theorem awlCpick (d : Fin 16) (a : Fin 16) (b : Fin 16) : Statement (.awlCpick d a b) :=
  ⟨by simp only [encode]; omega, fun e => nomatch e⟩

theorem awlCget (d : Fin 16) (a : Fin 16) (b : Fin 16) : Statement (.awlCget d a b) :=
  ⟨by simp only [encode]; omega, fun e => nomatch e⟩

theorem awlRdraw (d : Fin 16) (a : Fin 16) : Statement (.awlRdraw d a) :=
  ⟨by simp only [encode]; omega, fun e => nomatch e⟩

theorem awlPadd (d : Fin 16) (a : Fin 16) (b : Fin 16) : Statement (.awlPadd d a b) :=
  ⟨by simp only [encode]; omega, fun e => nomatch e⟩

theorem awlTok (a : Fin 16) (b : Fin 16) : Statement (.awlTok a b) :=
  ⟨by simp only [encode]; omega, fun e => nomatch e⟩

theorem awlDnode (d : Fin 16) (a : Fin 16) (b : Fin 16) : Statement (.awlDnode d a b) :=
  ⟨by simp only [encode]; omega, fun e => nomatch e⟩

theorem awlDbest (d : Fin 16) (a : Fin 16) (b : Fin 16) : Statement (.awlDbest d a b) :=
  ⟨by simp only [encode]; omega, fun e => nomatch e⟩

theorem awlDcommit (d : Fin 16) (a : Fin 16) : Statement (.awlDcommit d a) :=
  ⟨by simp only [encode]; omega, fun e => nomatch e⟩

theorem powerGood : Statement (.powerGood) := ⟨Nat.two_pow_pos 32, fun _ => rfl⟩

theorem flashImageVerificationEnd (uce agree : Bool) : Statement (.flashImageVerificationEnd uce agree) := ⟨Nat.two_pow_pos 32, fun _ => rfl⟩

theorem bdoorGo : Statement (.bdoorGo) := ⟨Nat.two_pow_pos 32, fun _ => rfl⟩

theorem hostImageVerificationEnd (agree : Bool) : Statement (.hostImageVerificationEnd agree) := ⟨Nat.two_pow_pos 32, fun _ => rfl⟩

theorem stagingWindowWrite (off : Nat) (bytes : List Byte) : Statement (.stagingWindowWrite off bytes) := ⟨Nat.two_pow_pos 32, fun _ => rfl⟩

theorem readPowerLimit : Statement (.readPowerLimit) := ⟨Nat.two_pow_pos 32, fun _ => rfl⟩

theorem setPowerLimit : Statement (.setPowerLimit) := ⟨Nat.two_pow_pos 32, fun _ => rfl⟩

theorem counterReset (reachable : Bool) : Statement (.counterReset reachable) := ⟨Nat.two_pow_pos 32, fun _ => rfl⟩

theorem sizeKvPools : Statement (.sizeKvPools) := ⟨Nat.two_pow_pos 32, fun _ => rfl⟩

theorem clearFenceList : Statement (.clearFenceList) := ⟨Nat.two_pow_pos 32, fun _ => rfl⟩

theorem setModuleNumber : Statement (.setModuleNumber) := ⟨Nat.two_pow_pos 32, fun _ => rfl⟩

theorem undefinedFirmwareFunction : Statement (.undefinedFirmwareFunction) := ⟨Nat.two_pow_pos 32, fun _ => rfl⟩

theorem functionReady (u : UnitId) : Statement (.functionReady u) := ⟨Nat.two_pow_pos 32, fun _ => rfl⟩

theorem operatingPointChange (i : Fin 26) (mhz : Nat) (mv : Nat) (pwr hot : Bool) : Statement (.operatingPointChange i mhz mv pwr hot) := ⟨Nat.two_pow_pos 32, fun _ => rfl⟩

theorem dieReaches95c (n : Fin 22) (points : List (Nat × Nat)) (actlim : Nat) : Statement (.dieReaches95c n points actlim) := ⟨Nat.two_pow_pos 32, fun _ => rfl⟩

theorem dieReaches110c (n : Fin 22) : Statement (.dieReaches110c n) := ⟨Nat.two_pow_pos 32, fun _ => rfl⟩

theorem bootMailboxGo (c : CoreIx) : Statement (.bootMailboxGo c) := ⟨Nat.two_pow_pos 32, fun _ => rfl⟩

theorem imageLoadEnd (c : CoreIx) : Statement (.imageLoadEnd c) := ⟨Nat.two_pow_pos 32, fun _ => rfl⟩

theorem launchEnd (c : CoreIx) : Statement (.launchEnd c) := ⟨Nat.two_pow_pos 32, fun _ => rfl⟩

theorem nestIterationDispatch (c : CoreIx) : Statement (.nestIterationDispatch c) := ⟨Nat.two_pow_pos 32, fun _ => rfl⟩

theorem iterationEnd (c : CoreIx) : Statement (.iterationEnd c) := ⟨Nat.two_pow_pos 32, fun _ => rfl⟩

theorem rendezvousDeadlock (c : CoreIx) : Statement (.rendezvousDeadlock c) := ⟨Nat.two_pow_pos 32, fun _ => rfl⟩

theorem rsvopTrap (w : W32) : Statement (.rsvopTrap w) := ⟨Nat.two_pow_pos 32, fun _ => rfl⟩

theorem irangeTrap : Statement (.irangeTrap) := ⟨Nat.two_pow_pos 32, fun _ => rfl⟩

theorem engineTrap (c : CoreIx) : Statement (.engineTrap c) := ⟨Nat.two_pow_pos 32, fun _ => rfl⟩

theorem fixedLatencyWrite (c : CoreIx) : Statement (.fixedLatencyWrite c) := ⟨Nat.two_pow_pos 32, fun _ => rfl⟩

theorem coreFreezeEnd (c : CoreIx) (third sequencer : Bool) (index : Nat) : Statement (.coreFreezeEnd c third sequencer index) := ⟨Nat.two_pow_pos 32, fun _ => rfl⟩

theorem variableLatencyResult (c : CoreIx) (k : StrandId) (i : Nat) : Statement (.variableLatencyResult c k i) := ⟨Nat.two_pow_pos 32, fun _ => rfl⟩

theorem demandDelivery (c : CoreIx) (k : StrandId) : Statement (.demandDelivery c k) := ⟨Nat.two_pow_pos 32, fun _ => rfl⟩

theorem remoteWaitAnswer (c : CoreIx) (k : StrandId) (value : RemoteValue) : Statement (.remoteWaitAnswer c k value) := ⟨Nat.two_pow_pos 32, fun _ => rfl⟩

theorem remoteWaitResend (c : CoreIx) (k : StrandId) (accepted : Bool) : Statement (.remoteWaitResend c k accepted) := ⟨Nat.two_pow_pos 32, fun _ => rfl⟩

theorem counterAddArrival (a : AddArrival) : Statement (.counterAddArrival a) := ⟨Nat.two_pow_pos 32, fun _ => rfl⟩

theorem tableWalkEnd (c : CoreIx) (va : Nat) : Statement (.tableWalkEnd c va) := ⟨Nat.two_pow_pos 32, fun _ => rfl⟩

theorem loadRetirement (c : CoreIx) (k : StrandId) (changed : Bool) : Statement (.loadRetirement c k changed) := ⟨Nat.two_pow_pos 32, fun _ => rfl⟩

theorem leaseRenewal (line : Nat) : Statement (.leaseRenewal line) := ⟨Nat.two_pow_pos 32, fun _ => rfl⟩

theorem arrival (i : Nat) : Statement (.arrival i) := ⟨Nat.two_pow_pos 32, fun _ => rfl⟩

theorem arrivalRetry (i : Nat) : Statement (.arrivalRetry i) := ⟨Nat.two_pow_pos 32, fun _ => rfl⟩

theorem arrivalWaitRecord (i : Nat) : Statement (.arrivalWaitRecord i) := ⟨Nat.two_pow_pos 32, fun _ => rfl⟩

theorem redAtHome (c : CoreIx) (i : Nat) : Statement (.redAtHome c i) := ⟨Nat.two_pow_pos 32, fun _ => rfl⟩

theorem lineEviction (line : Nat) : Statement (.lineEviction line) := ⟨Nat.two_pow_pos 32, fun _ => rfl⟩

theorem writeBackArrival (i : Nat) : Statement (.writeBackArrival i) := ⟨Nat.two_pow_pos 32, fun _ => rfl⟩

theorem writeBackResend (i : Nat) : Statement (.writeBackResend i) := ⟨Nat.two_pow_pos 32, fun _ => rfl⟩

theorem atomicAtHome (c : CoreIx) (k : StrandId) : Statement (.atomicAtHome c k) := ⟨Nat.two_pow_pos 32, fun _ => rfl⟩

theorem podAtomicAtHome (r : PodRequest) : Statement (.podAtomicAtHome r) := ⟨Nat.two_pow_pos 32, fun _ => rfl⟩

theorem space2AccessAtTarget (r : PodRequest) : Statement (.space2AccessAtTarget r) := ⟨Nat.two_pow_pos 32, fun _ => rfl⟩

theorem podAccessAtTarget (r : PodRequest) : Statement (.podAccessAtTarget r) := ⟨Nat.two_pow_pos 32, fun _ => rfl⟩

theorem postedAccessFailure (c : CoreIx) (i : Nat) (f : RemoteFault) : Statement (.postedAccessFailure c i f) := ⟨Nat.two_pow_pos 32, fun _ => rfl⟩

theorem overlayLoadEnd (c : CoreIx) : Statement (.overlayLoadEnd c) := ⟨Nat.two_pow_pos 32, fun _ => rfl⟩

theorem weightLoadStart (c : CoreIx) (i : Nat) : Statement (.weightLoadStart c i) := ⟨Nat.two_pow_pos 32, fun _ => rfl⟩

theorem weightLoadEnd (c : CoreIx) (i : Nat) : Statement (.weightLoadEnd c i) := ⟨Nat.two_pow_pos 32, fun _ => rfl⟩

theorem multiplyStart (c : CoreIx) (i : Nat) : Statement (.multiplyStart c i) := ⟨Nat.two_pow_pos 32, fun _ => rfl⟩

theorem multiplyRowComplete (c : CoreIx) (i : Nat) (mismatch : Bool) : Statement (.multiplyRowComplete c i mismatch) := ⟨Nat.two_pow_pos 32, fun _ => rfl⟩

theorem multiplyRetire (c : CoreIx) (i : Nat) : Statement (.multiplyRetire c i) := ⟨Nat.two_pow_pos 32, fun _ => rfl⟩

theorem mzeroRetire (c : CoreIx) (i : Nat) : Statement (.mzeroRetire c i) := ⟨Nat.two_pow_pos 32, fun _ => rfl⟩

theorem drainStart (c : CoreIx) (i : Nat) : Statement (.drainStart c i) := ⟨Nat.two_pow_pos 32, fun _ => rfl⟩

theorem drainLineWrite (c : CoreIx) (i : Nat) : Statement (.drainLineWrite c i) := ⟨Nat.two_pow_pos 32, fun _ => rfl⟩

theorem drainEnd (c : CoreIx) (i : Nat) : Statement (.drainEnd c i) := ⟨Nat.two_pow_pos 32, fun _ => rfl⟩

theorem tableInstall (c : CoreIx) (i : Nat) : Statement (.tableInstall c i) := ⟨Nat.two_pow_pos 32, fun _ => rfl⟩

theorem operandLineTimeout (c : CoreIx) (i : Nat) (cause : Fin 3) : Statement (.operandLineTimeout c i cause) := ⟨Nat.two_pow_pos 32, fun _ => rfl⟩

theorem treadleRunStart (c : CoreIx) (i : Nat) : Statement (.treadleRunStart c i) := ⟨Nat.two_pow_pos 32, fun _ => rfl⟩

theorem treadleBeat (c : CoreIx) : Statement (.treadleBeat c) := ⟨Nat.two_pow_pos 32, fun _ => rfl⟩

theorem treadleRunEnd (c : CoreIx) : Statement (.treadleRunEnd c) := ⟨Nat.two_pow_pos 32, fun _ => rfl⟩

theorem followOnEntry (c : CoreIx) (i : Nat) : Statement (.followOnEntry c i) := ⟨Nat.two_pow_pos 32, fun _ => rfl⟩

theorem weltLine (c : CoreIx) (i : Nat) (j : Nat) : Statement (.weltLine c i j) := ⟨Nat.two_pow_pos 32, fun _ => rfl⟩

theorem weltCommandComplete (c : CoreIx) (i : Nat) : Statement (.weltCommandComplete c i) := ⟨Nat.two_pow_pos 32, fun _ => rfl⟩

theorem conditionalCopyCommit (c : CoreIx) (i : Nat) : Statement (.conditionalCopyCommit c i) := ⟨Nat.two_pow_pos 32, fun _ => rfl⟩

theorem collectiveCompare (i : Nat) (m : Bool) : Statement (.collectiveCompare i m) := ⟨Nat.two_pow_pos 32, fun _ => rfl⟩

theorem collectiveComplete (i : Nat) (failed : Bool) (others : List (Nat × List Byte)) : Statement (.collectiveComplete i failed others) := ⟨Nat.two_pow_pos 32, fun _ => rfl⟩

theorem contextEntryArrival (i : Nat) : Statement (.contextEntryArrival i) := ⟨Nat.two_pow_pos 32, fun _ => rfl⟩

theorem contextEntryResend (i : Nat) : Statement (.contextEntryResend i) := ⟨Nat.two_pow_pos 32, fun _ => rfl⟩

theorem noteComplete (n : Fin 22) (i : Nat) : Statement (.noteComplete n i) := ⟨Nat.two_pow_pos 32, fun _ => rfl⟩

theorem appendExecute (n : Fin 22) (i : Nat) : Statement (.appendExecute n i) := ⟨Nat.two_pow_pos 32, fun _ => rfl⟩

theorem queryExecute (n : Fin 22) (i : Nat) : Statement (.queryExecute n i) := ⟨Nat.two_pow_pos 32, fun _ => rfl⟩

theorem queryExecutionEnd (n : Fin 22) (i : Nat) : Statement (.queryExecutionEnd n i) := ⟨Nat.two_pow_pos 32, fun _ => rfl⟩

theorem forkExecute (n : Fin 22) (i : Nat) : Statement (.forkExecute n i) := ⟨Nat.two_pow_pos 32, fun _ => rfl⟩

theorem relabelExecute (n : Fin 22) (i : Nat) : Statement (.relabelExecute n i) := ⟨Nat.two_pow_pos 32, fun _ => rfl⟩

theorem migrateExecute (n : Fin 22) (i : Nat) : Statement (.migrateExecute n i) := ⟨Nat.two_pow_pos 32, fun _ => rfl⟩

theorem cancelArrivalTdie (n : Fin 22) (i : Nat) : Statement (.cancelArrivalTdie n i) := ⟨Nat.two_pow_pos 32, fun _ => rfl⟩

theorem contextCommandCompletion (i : Nat) : Statement (.contextCommandCompletion i) := ⟨Nat.two_pow_pos 32, fun _ => rfl⟩

theorem cinchMerge (i : Nat) : Statement (.cinchMerge i) := ⟨Nat.two_pow_pos 32, fun _ => rfl⟩

theorem contextHoldTimeout (n : Fin 22) (i : Nat) : Statement (.contextHoldTimeout n i) := ⟨Nat.two_pow_pos 32, fun _ => rfl⟩

theorem tableFullHoldTimeout (n : Fin 22) (i : Nat) : Statement (.tableFullHoldTimeout n i) := ⟨Nat.two_pow_pos 32, fun _ => rfl⟩

theorem writeHoldTimeout (n : Fin 22) : Statement (.writeHoldTimeout n) := ⟨Nat.two_pow_pos 32, fun _ => rfl⟩

theorem activationWave (n : Fin 22) : Statement (.activationWave n) := ⟨Nat.two_pow_pos 32, fun _ => rfl⟩

theorem awlRunStart (d : Fin 8) (i : Nat) : Statement (.awlRunStart d i) := ⟨Nat.two_pow_pos 32, fun _ => rfl⟩

theorem awlAdmit (d : Fin 8) (i : Nat) : Statement (.awlAdmit d i) := ⟨Nat.two_pow_pos 32, fun _ => rfl⟩

theorem awlRetire (d : Fin 8) (i : Nat) : Statement (.awlRetire d i) := ⟨Nat.two_pow_pos 32, fun _ => rfl⟩

theorem awlProgramWordWrite (d : Fin 8) (i : Nat) (w : W32) : Statement (.awlProgramWordWrite d i w) := ⟨Nat.two_pow_pos 32, fun _ => rfl⟩

theorem awlctlWrite (d : Fin 8) (w : Word) : Statement (.awlctlWrite d w) := ⟨Nat.two_pow_pos 32, fun _ => rfl⟩

theorem gctlGo : Statement (.gctlGo) := ⟨Nat.two_pow_pos 32, fun _ => rfl⟩

theorem grecWrite (w : Word) : Statement (.grecWrite w) := ⟨Nat.two_pow_pos 32, fun _ => rfl⟩

theorem graphNodeDispatch : Statement (.graphNodeDispatch) := ⟨Nat.two_pow_pos 32, fun _ => rfl⟩

theorem graphNodeRedispatch : Statement (.graphNodeRedispatch) := ⟨Nat.two_pow_pos 32, fun _ => rfl⟩

theorem graphReplayEnd (i : Nat) : Statement (.graphReplayEnd i) := ⟨Nat.two_pow_pos 32, fun _ => rfl⟩

theorem graphWaitRecord : Statement (.graphWaitRecord) := ⟨Nat.two_pow_pos 32, fun _ => rfl⟩

theorem preemptionRequest (d : Fin 8) (i : Nat) : Statement (.preemptionRequest d i) := ⟨Nat.two_pow_pos 32, fun _ => rfl⟩

theorem preemptionService (c : CoreIx) : Statement (.preemptionService c) := ⟨Nat.two_pow_pos 32, fun _ => rfl⟩

theorem saveEnd (c : CoreIx) : Statement (.saveEnd c) := ⟨Nat.two_pow_pos 32, fun _ => rfl⟩

theorem iterationResume (c : CoreIx) : Statement (.iterationResume c) := ⟨Nat.two_pow_pos 32, fun _ => rfl⟩

theorem restoreEnd (c : CoreIx) : Statement (.restoreEnd c) := ⟨Nat.two_pow_pos 32, fun _ => rfl⟩

theorem cancelArrivalKdie (d : Fin 8) (i : Nat) : Statement (.cancelArrivalKdie d i) := ⟨Nat.two_pow_pos 32, fun _ => rfl⟩

theorem cancelCoreStop (c : CoreIx) : Statement (.cancelCoreStop c) := ⟨Nat.two_pow_pos 32, fun _ => rfl⟩

theorem cancelEffectsDone (d : Fin 8) (i : Nat) : Statement (.cancelEffectsDone d i) := ⟨Nat.two_pow_pos 32, fun _ => rfl⟩

theorem messageForward (i : Nat) : Statement (.messageForward i) := ⟨Nat.two_pow_pos 32, fun _ => rfl⟩

theorem podForward (i : Nat) : Statement (.podForward i) := ⟨Nat.two_pow_pos 32, fun _ => rfl⟩

theorem flitReceive (n : Fin 22) (m : Fin 12) (crcOk room : Bool) : Statement (.flitReceive n m crcOk room) := ⟨Nat.two_pow_pos 32, fun _ => rfl⟩

theorem flitReplay (n : Fin 22) (m : Fin 12) : Statement (.flitReplay n m) := ⟨Nat.two_pow_pos 32, fun _ => rfl⟩

theorem flitRefusalResend (n : Fin 22) (m : Fin 12) (i : Nat) : Statement (.flitRefusalResend n m i) := ⟨Nat.two_pow_pos 32, fun _ => rfl⟩

theorem linkLossOfLock (n : Fin 22) (m : Fin 12) : Statement (.linkLossOfLock n m) := ⟨Nat.two_pow_pos 32, fun _ => rfl⟩

theorem retrainAttemptEnd (n : Fin 22) (m : Fin 12) (pass : Bool) : Statement (.retrainAttemptEnd n m pass) := ⟨Nat.two_pow_pos 32, fun _ => rfl⟩

theorem opticalRetrainAttemptEnd (plane : Fin 2) (q : Fin 512) (pass : Bool) : Statement (.opticalRetrainAttemptEnd plane q pass) := ⟨Nat.two_pow_pos 32, fun _ => rfl⟩

theorem fabricRequestWithdrawal (c : CoreIx) (r : FabricRequest) : Statement (.fabricRequestWithdrawal c r) := ⟨Nat.two_pow_pos 32, fun _ => rfl⟩

theorem expanderAckTimeout (n : Fin 22) : Statement (.expanderAckTimeout n) := ⟨Nat.two_pow_pos 32, fun _ => rfl⟩

theorem expanderFenceTimeout (n : Fin 22) : Statement (.expanderFenceTimeout n) := ⟨Nat.two_pow_pos 32, fun _ => rfl⟩

theorem hostTlpReceive (h : Fin 2) (off : Nat) (damaged : Bool) : Statement (.hostTlpReceive h off damaged) := ⟨Nat.two_pow_pos 32, fun _ => rfl⟩

theorem hostMemoryAccess (a : HostAccess) : Statement (.hostMemoryAccess a) := ⟨Nat.two_pow_pos 32, fun _ => rfl⟩

theorem hostLinkDown (h : Fin 2) : Statement (.hostLinkDown h) := ⟨Nat.two_pow_pos 32, fun _ => rfl⟩

theorem hostLinkReturn (h : Fin 2) (narrow : Bool) : Statement (.hostLinkReturn h narrow) := ⟨Nat.two_pow_pos 32, fun _ => rfl⟩

theorem patrolScrub (x : ScrubSite) : Statement (.patrolScrub x) := ⟨Nat.two_pow_pos 32, fun _ => rfl⟩

theorem telemetryFlush : Statement (.telemetryFlush) := ⟨Nat.two_pow_pos 32, fun _ => rfl⟩

theorem thermalSample (temps : List Nat) : Statement (.thermalSample temps) := ⟨Nat.two_pow_pos 32, fun _ => rfl⟩

theorem orderlyPowerDown : Statement (.orderlyPowerDown) := ⟨Nat.two_pow_pos 32, fun _ => rfl⟩

theorem logtailWrite (n : Fin 22) (w : Word) : Statement (.logtailWrite n w) := ⟨Nat.two_pow_pos 32, fun _ => rfl⟩

theorem gdefWrite (g : Fin 256) (w : Word) : Statement (.gdefWrite g w) := ⟨Nat.two_pow_pos 32, fun _ => rfl⟩

theorem registerWrite (off : Nat) (w : Word) : Statement (.registerWrite off w) := ⟨Nat.two_pow_pos 32, fun _ => rfl⟩

theorem singleFault (f : FaultSite) : Statement (.singleFault f) := ⟨Nat.two_pow_pos 32, fun _ => rfl⟩

theorem lossOfSupply : Statement (.lossOfSupply) := ⟨Nat.two_pow_pos 32, fun _ => rfl⟩

theorem activeBankLimitRaise (n : Fin 22) (actlim : Nat) : Statement (.activeBankLimitRaise n actlim) := ⟨Nat.two_pow_pos 32, fun _ => rfl⟩

theorem reductionTreeShapeChange (n : Fin 22) (shape : Bool) (map : List (Nat × Nat)) : Statement (.reductionTreeShapeChange n shape map) := ⟨Nat.two_pow_pos 32, fun _ => rfl⟩

end Sys2Proof.Laws.WordSize
end

