-- ==== Sys2Proof/Laws/Traps.lean ====
section
/-! SUPPORT. What taking an exception and returning from one do. -/

namespace Sys2Proof.Machine

/-- A strand with EN = 1 and INH = 0 enters its handler (R385). -/
theorem trapWith_enters (s : State) (c : Nat) (k : StrandId) (synd : Nat) (addr info : Word) (epc : Nat) (past : Bool)
    (w : W32) (he : ((s.core c).strand k).trap.en = true) (hi : ((s.core c).strand k).trap.inh = false) :
    s.trapWith c k synd addr info none epc past w =
      s.setCore c ((s.core c).enterHandler k synd addr info epc past w) := by
  simp [State.trapWith, he, hi]

/-- A strand that cannot enter its handler abandons its unit of work at the next bundle boundary (R387). -/
theorem trapWith_abandons (s : State) (c : Nat) (k : StrandId) (synd : Nat) (addr info : Word) (epc : Nat) (past : Bool)
    (w : W32) (h : ¬(((s.core c).strand k).trap.en = true ∧ ((s.core c).strand k).trap.inh = false)) :
    s.trapWith c k synd addr info none epc past w = s.setCore c ((s.core c).loseAt k synd) := by
  simp only [State.trapWith]
  split
  · rename_i g; exact absurd ⟨g.1, by simpa using g.2⟩ h
  · rfl

@[simp] theorem enterHandler_strand (c : Core) (k : StrandId) (synd : Nat) (addr info : Word) (epc : Nat) (past : Bool)
    (w : W32) :
    (c.enterHandler k synd addr info epc past w).strand k =
      { c.strand k with
        pc := (c.strand k).trap.entry, readyAt := max (c.cycle + 2) (c.settled k), aside := (c.strand k).loops, loops := []
        asideBlock := (c.strand k).block, block := .none, join := none
        trap := { (c.strand k).trap with
          cause := causeWord synd past, epc := BitVec.ofNat 64 epc, word := w.setWidth 64, addr := addr, info := info } } := by
  simp [Core.enterHandler]

theorem enterHandler_strand_of_ne (c : Core) {k j : StrandId} (synd : Nat) (addr info : Word) (epc : Nat) (past : Bool)
    (w : W32) (h : j ≠ k) : (c.enterHandler k synd addr info epc past w).strand j = c.strand j := by
  simp only [Core.enterHandler, strand_setStrand_of_ne _ _ h]
  cases j <;> rfl

/-- Returning from a handler (R386). -/
@[simp] theorem returnFrom_strand (c : Core) (k : StrandId) :
    (c.returnFrom k).strand k =
      { c.strand k with
        pc := field (c.strand k).trap.epc 0 15, readyAt := max (c.strand k).readyAt (c.cycle + 1), loops := (c.strand k).aside
        aside := []
        block := resumedBlock (c.strand k).asideBlock
        asideBlock := .none
        trap := { (c.strand k).trap with cause := (c.strand k).trap.cause &&& BitVec.ofNat 64 (2 ^ 64 - 1 - 256) } } := by
  simp [Core.returnFrom]

theorem returnFrom_strand_of_ne (c : Core) {k j : StrandId} (h : j ≠ k) : (c.returnFrom k).strand j = c.strand j := by
  simp [Core.returnFrom, strand_setStrand_of_ne _ _ h]

end Sys2Proof.Machine
end

