-- ==== Sys2Proof/Tests/Slice0.lean ====
section
/-! SUPPORT. The model's own small tests: words written out in the spec decode to what they stand for, ill-formed terms are
refused, worked values of the spec, and states that meet the hypotheses of the statements. -/

set_option Elab.async false
set_option maxRecDepth 100000

namespace Sys2Proof.Tests

open Sys2Proof Sys2Proof.Machine

/-! ## Words of the spec -/

/-- R151: the word written out in the spec. -/
theorem test_decode_addi : decode (.strand .q) 0x50452FFF = .word (.addi ⟨1, 2⟩ 5 5 0x7FF) [] := by decide
/-- R170: the word written out in the spec. -/
theorem test_decode_bnez : decode (.strand .v) 0x02073FEC = .word (.bnez ⟨0, 0⟩ 7 0x1FEC) [] := by decide
/-- R171: the word written out in the spec. -/
theorem test_decode_loop : decode (.strand .m) 0x02A01802 = .word (.loop ⟨0, 0⟩ 3 2) [] := by decide
/-- R175: the word written out in the spec. -/
theorem test_decode_bar : decode (.strand .l) 0x03404242 = .word (.bar ⟨0, 0⟩ 8 9 2) [] := by decide
/-- R173: the word written out in the spec. -/
theorem test_decode_cadd : decode (.strand .q) 0x03004242 = .word (.cadd ⟨0, 0⟩ 8 9 2) [] := by decide
/-- R180: the word written out in the spec. -/
theorem test_decode_start : decode (.strand .q) 0x80260028 = .word (.start ⟨0, 0⟩ 3 40) [] := by decide
/-- R187: the word written out in the spec. -/
theorem test_decode_taskpop : decode (.strand .q) 0x80820000 = .word (.taskpop ⟨0, 0⟩ 2 0) [] := by decide
/-- R197: the word written out in the spec. -/
theorem test_decode_vfadd : decode (.strand .v) 0x80314088 = .word (.vfadd ⟨0, 0⟩ 0x45 1 8) [] := by decide
/-- R153: the word written out in the spec. -/
theorem test_decode_vshli : decode (.strand .v) 0x83C0C184 = .word (.vshli ⟨0, 0⟩ 3 3 4) [] := by decide
/-- R203: the word written out in the spec. -/
theorem test_decode_vcvtl8 : decode (.strand .v) 0x84808001 = .word (.vcvtl8 ⟨0, 0⟩ 2 0 1) [] := by decide
/-- R207: the word written out in the spec. -/
theorem test_decode_vredadd : decode (.strand .v) 0x8580A280 = .word (.vredadd ⟨0, 0⟩ 2 0x45) [] := by decide
/-- R209: the word written out in the spec. -/
theorem test_decode_vimm : decode (.strand .v) 0x8680007F = .word (.vimm ⟨0, 0⟩ 0 0x7F) [] := by decide
/-- R209: the word written out in the spec. -/
theorem test_decode_vbcast : decode (.strand .v) 0x86410E00 = .word (.vbcast ⟨0, 0⟩ 4 7) [] := by decide
/-- R209: the word written out in the spec. -/
theorem test_decode_vext : decode (.strand .v) 0x86610B10 = .word (.vext ⟨0, 0⟩ 4 5 17) [] := by decide
/-- R210: the word written out in the spec. -/
theorem test_decode_vld : decode (.strand .v) 0x86A9C183 = .word (.vld ⟨0, 0⟩ 0x27 12 3) [] := by decide
/-- R212: the word written out in the spec. -/
theorem test_decode_mvacc : decode (.strand .v) 0x870065A4 = .word (.mvaccRowPeek ⟨0, 0⟩ 1 2 3 9) [] := by decide
/-- R218: the word written out in the spec. -/
theorem test_decode_mma_tile : decode (.strand .m) 0x81090280 = .word (.mmaL8Tile ⟨0, 0⟩ 1 0 2 0 40) [] := by decide
/-- R218: the word written out in the spec. -/
theorem test_decode_mma_handle : decode (.strand .m) 0x813EEE00 = .word (.mmaL6Handle ⟨0, 0⟩ 3 1 5 1 14) [] := by decide
/-- R224: the word written out in the spec. -/
theorem test_decode_mzero : decode (.strand .m) 0x82220000 = .word (.mzero ⟨0, 0⟩ 2) [] := by decide
/-- R224: the word written out in the spec. -/
theorem test_decode_mwait : decode (.strand .m) 0x82E10000 = .word (.mwait ⟨0, 0⟩ 1) [] := by decide
/-- R225: the word written out in the spec. -/
theorem test_decode_mkrng : decode (.strand .m) 0x82611900 = .word (.mkrng ⟨0, 0⟩ 1 3 4) [] := by decide
/-- R225: the word written out in the spec. -/
theorem test_decode_mkall : decode (.strand .m) 0x82830000 = .word (.mkall ⟨0, 0⟩ 3) [] := by decide
/-- R225: the word written out in the spec. -/
theorem test_decode_mkld : decode (.strand .m) 0x82501220 = .word (.mkld ⟨0, 0⟩ 4 9 2) [] := by decide
/-- R226: the word written out in the spec. -/
theorem test_decode_mdrain : decode (.strand .m) 0x8200190E = .word (.mdrain ⟨0, 0⟩ 0 0 100 7) [] := by decide
/-- R231: the word written out in the spec. -/
theorem test_decode_mpbld : decode (.strand .m) 0x82A02800 = .word (.mpbld ⟨0, 0⟩ 5) [] := by decide
/-- R232: the word written out in the spec. -/
theorem test_decode_lutld : decode (.strand .m) 0x82C02800 = .word (.lutld ⟨0, 0⟩ 5) [] := by decide
/-- R234: the word written out in the spec. -/
theorem test_decode_trgo : decode (.strand .m) 0x83004000 = .word (.trgo ⟨0, 0⟩ 8) [] := by decide
/-- R247: the word written out in the spec. -/
theorem test_decode_ld : decode (.strand .l) 0x80255328 = .word (.ld ⟨0, 0⟩ 5 10 12 2 1) [] := by decide
/-- R248: the word written out in the spec. -/
theorem test_decode_st : decode (.strand .l) 0x80475030 = .word (.st ⟨0, 0⟩ 7 10 0 3) [] := by decide
/-- R251: the word written out in the spec. -/
theorem test_decode_amo : decode (.strand .l) 0x810552D8 = .word (.amoAdd ⟨0, 0⟩ 5 10 11 12 0) [] := by decide
/-- R142: the word written out in the spec. -/
theorem test_decode_one_word_two_maps : decode (.strand .l) 0x81090280 = .word (.amoAdd ⟨0, 0⟩ 9 0 10 0 0) [] := by decide
/-- R252: the word written out in the spec. -/
theorem test_decode_red : decode (.strand .l) 0x820052C1 = .word (.redAdd ⟨0, 0⟩ 10 11 0 1) [] := by decide
/-- R258: the word written out in the spec. -/
theorem test_decode_wcp_in : decode (.strand .l) 0x840A5B1A = .word (.wcpIn ⟨0, 0⟩ 10 11 12 13) [] := by decide
/-- R260: the word written out in the spec. -/
theorem test_decode_wcp_cond : decode (.strand .l) 0x848A5B1C = .word (.wcpCond ⟨0, 0⟩ 10 11 12 14) [] := by decide
/-- R261: the word written out in the spec. -/
theorem test_decode_wcp_mm : decode (.strand .l) 0x84AA5B1A = .word (.wcpMm ⟨0, 0⟩ 10 11 12 13) [] := by decide
/-- R263: the word written out in the spec. -/
theorem test_decode_coll : decode (.strand .l) 0x84EA5B1A = .word (.coll ⟨0, 0⟩ 10 11 12 13) [] := by decide
/-- R265: the word written out in the spec. -/
theorem test_decode_kvqry : decode (.strand .l) 0x852A5B1A = .word (.kvqry ⟨0, 0⟩ 10 11 12 13) [] := by decide
/-- R303: the word written out in the spec. -/
theorem test_decode_awl_addi : decode .awl 0x18883FFF = .word (.awlAddi 2 2 0x3FFF) [] := by decide
/-- R304: the word written out in the spec. -/
theorem test_decode_awl_cpick : decode .awl 0x8D840000 = .word (.awlCpick 6 1 0) [] := by decide
/-- R303: the word written out in the spec. -/
theorem test_decode_awl_bne : decode .awl 0x64483FFD = .word (.awlBne 1 2 0x3FFD) [] := by decide
/-- R304: the word written out in the spec. -/
theorem test_decode_awl_stop : decode .awl 0x70000000 = .word (.awlStop) [] := by decide
/-- R142, R187: a word whose map gives it an odd destination decodes to its instruction, which is not well-formed. -/
theorem test_decode_taskpop_odd : decode (.strand .q) 0x80830000 = .word (.taskpop ⟨0, 0⟩ 3 0) [] ∧ wf (.taskpop ⟨0, 0⟩ 3 0) = false := by
  decide
/-- R40, R143: the all-zero word is a reserved OP in every strand. -/
theorem test_decode_zero : ∀ k, decode (.strand k) 0 = .reserved := by
  intro k; cases k <;> decide
theorem test_ill_loop_zero : wf (.loop ⟨0, 0⟩ 3 0) = false := by decide
theorem test_ill_cadd_scope : wf (.cadd ⟨0, 0⟩ 1 2 5) = false := by decide
theorem test_ill_cwait_scope : wf (.cwait ⟨0, 0⟩ 1 2 7) = false := by decide
theorem test_ill_bar_scope : wf (.bar ⟨0, 0⟩ 1 2 5) = false := by decide
theorem test_ill_bar_core : wf (.bar ⟨0, 0⟩ 1 2 0) = false := by decide
theorem test_ill_sprd_number : wf (.sprd ⟨0, 0⟩ 1 0 0x7) = false := by decide
theorem test_ill_spwr_number : wf (.spwr ⟨0, 0⟩ 1 0x48) = false := by decide
theorem test_ill_sprd_dmdq : wf (.sprd ⟨0, 0⟩ 1 0 0x31) = false := by decide
theorem test_ill_spwr_joinmask : wf (.spwr ⟨0, 0⟩ 1 0x02) = false := by decide
theorem test_ill_spwr_spsplit : wf (.spwr ⟨0, 0⟩ 1 0x04) = false := by decide
theorem test_ill_spwr_mprog : wf (.spwr ⟨0, 0⟩ 1 0x20) = false := by decide
theorem test_ill_spwr_dmsub : wf (.spwr ⟨0, 0⟩ 1 0x30) = false := by decide
theorem test_ill_spwr_tret : wf (.spwr ⟨0, 0⟩ 1 0x46) = false := by decide
theorem test_ill_start_none : wf (.start ⟨0, 0⟩ 0 40) = false := by decide
theorem test_ill_start_entry : wf (.start ⟨0, 0⟩ 1 24576) = false := by decide
theorem test_ill_taskpop_x0 : wf (.taskpop ⟨0, 0⟩ 0 0) = false := by decide
theorem test_ill_taskpop_queue : wf (.taskpop ⟨0, 0⟩ 24 0) = false := by decide
theorem test_ill_vec_source : wf (.vfadd ⟨0, 0⟩ 1 9 2) = false := by decide
theorem test_ill_vec_source_b : wf (.vfadd ⟨0, 0⟩ 1 2 31) = false := by decide
theorem test_ill_vec_destination : wf (.vfadd ⟨0, 0⟩ 9 1 2) = false := by decide
theorem test_ill_vec_lat : wf (.vmov ⟨0, 0⟩ 8 1) = false := by decide
theorem test_ill_vext_source : wf (.vext ⟨0, 0⟩ 9 5 17) = false := by decide
theorem test_ill_vst_source : wf (.vst ⟨0, 0⟩ 10 12 3) = false := by decide
theorem test_ill_mvacc_row : wf (.mvaccRow ⟨0, 0⟩ 1 2 6 9) = false := by decide
theorem test_ill_mvacc_col : wf (.mvaccCol ⟨0, 0⟩ 1 2 4 9) = false := by decide
theorem test_ill_wld_own_queue : wf (.wldL8Handle ⟨0, 0⟩ 0 26) = false := by decide
theorem test_ill_mma_own_queue : wf (.mmaI8Handle ⟨0, 0⟩ 1 0 2 0 26) = false := by decide
theorem test_ill_ld_extend : wf (.ld ⟨0, 0⟩ 5 10 12 3 1) = false := by decide
theorem test_ill_wcp_own_queue : wf (.wcpIn ⟨0, 0⟩ 27 1 2 3) = false := by decide
theorem test_ill_wcp_cond_odd : wf (.wcpCond ⟨0, 0⟩ 10 11 13 14) = false := by decide
theorem test_ill_wcp_cond_queue : wf (.wcpCond ⟨0, 0⟩ 10 11 26 14) = false := by decide
theorem test_ill_coll_own_queue : wf (.coll ⟨0, 0⟩ 10 11 12 27) = false := by decide
theorem test_ill_kv_own_queue : wf (.kvcan ⟨0, 0⟩ 10 27 12) = false := by decide
theorem test_ill_awl_fadd_dest : wf (.awlFadd 8 1 2) = false := by decide
theorem test_ill_awl_cpick_draw : wf (.awlCpick 6 1 4) = false := by decide
theorem test_ill_awl_rdraw : wf (.awlRdraw 8 1) = false := by decide
theorem test_ill_awl_fint : wf (.awlFint 1 8) = false := by decide

/-! ## States that meet the hypotheses of the statements -/

/-- The PA of the level-0 table. -/
def tableRoot : Nat := 0x080000000000
/-- A page table of core 0's address space: its level-0 table, and a table of pages of 1 GiB with each matrix format. -/
def table : List Host.Cell :=
  [(0x80000000000, 0x01), (0x80000000002, 0x01), (0x80000000005, 0x08), (0x80000010000, 0x3F), (0x80000010003, 0x40),
   (0x80000010005, 0x08), (0x80000010008, 0x3F), (0x80000010009, 0x01), (0x8000001000B, 0x40), (0x8000001000D, 0x08),
   (0x80000010010, 0xBF), (0x80000010013, 0x40), (0x80000010015, 0x08), (0x80000010018, 0xBF), (0x80000010019, 0x01),
   (0x8000001001B, 0x40), (0x8000001001D, 0x08), (0x80000010020, 0xBF), (0x80000010021, 0x02), (0x80000010023, 0x40),
   (0x80000010025, 0x08)]
/-- A core whose four strands run a launched image. -/
def busy : Core := { root := tableRoot, q := { running := true }, v := { running := true }, m := { running := true }, l := { running := true }
                     loaded := true, work := .launch, spsplit := 3 }
/-- Core 0 is `f` of such a core and strand `k` acts; the first GiB of the address space is mapped, and core 0, its die's
schedulers and Awl, a T-die and the hub's units are ready. -/
def here (k : StrandId) (f : Core → Core) : State :=
  { State.reset with
    cur := { core := 0, strand := k }
    cores := [(0, f busy)]
    mem := table
    hub := { ready := [.core 0 0, .nest 0, .heap 0, .awl 0, .cinch 0, .ccu 8, .graph 0, .coll 0, .coll 1, .barr 0, .tele 0, .host 0] } }
/-- The same with registers of the acting strand. -/
def regs (k : StrandId) (x : SMap Word) : State := here k fun c => c.setStrand k { c.strand k with x := x }
/-- The same with one turn waiting. -/
def turned (m : Mover) (s : State) : State := { s with agenda := [⟨1, m⟩] }

/-- An outcome is a next state with a property. -/
def goesTo (o : Host.Outcome State Fault Refusal) (f : State → Bool) : Bool :=
  match o with
  | .next t => f t
  | _ => false

theorem witness_StepRunsTheWord :
    (let s := turned (.strand 511 .l) State.reset
     s.powered = true ∧ s.agenda = ⟨1, .strand 511 .l⟩ :: [] ∧ (511 < 512) ∧ ({ s with agenda := [], tick := s.tick + 1, now := s.now + 1 } : State).servesNow 511 = false ∧ (s.core 511).bundled .l = false ∧
     ((s.core 511).strand .l).pc < 24576 ∧ decode (.strand .l) 0x50452FFF = .word (.addi ⟨1, 2⟩ 5 5 0x7FF) [] ∧
     decode (.strand .l) 0xFFFFFFFF = .reserved) ∧
    (let s := turned (.strand 0 .q) (here .q fun c => { c with q := { c.q with pc := 24575 }, imem := [(24575, 0x10452FFF)] })
     s.powered = true ∧ s.servesNow 0 = false ∧ (s.core 0).bundled .q = false ∧ ((s.core 0).strand .q).pc < 24576 ∧
     decode (.strand .q) ((s.core 0).fetch .q).toNat = .word (.addi ⟨0, 2⟩ 5 5 0x7FF) []) ∧
    (let s := turned (.strand 0 .q) (here .q fun c => { c with q := { c.q with pc := 24576 } })
     s.powered = true ∧ s.servesNow 0 = false ∧ 24576 ≤ ((s.core 0).strand .q).pc) ∧
    (let s := turned (.strand 0 .q) (here .q fun c => { c with work := .iteration 0 0, preq := some ⟨1, 0, false⟩, imem := [(0, 0x50452FFF)] })
     s.servesNow 0 = true ∧ s.wouldTrap 0 .q = false) ∧
    (let r : AwlRun := ⟨⟨0, 255, 0, 8191, 0, 0, 0, 0, none⟩, none, 8191⟩
     let s : State := { State.reset with agenda := [⟨0, .awl 7 255⟩], kdies := [(7, { awl := { runs := [r], prog := [(8191, 0x70000000)] } })] }
     s.powered = true ∧ (s.kdie 7).awl.runOn 255 = some r ∧
     decode .awl (sget 0 (s.kdie 7).awl.prog r.pc).toNat = .word .awlStop []) ∧
    (let s := turned (.event .powerGood) State.reset
     s.powered = true ∧ s.agenda = [⟨1, .event .powerGood⟩] ∧ home .powerGood = .event ∧ s.trapFirst .powerGood = false) ∧
    State.reset.heldWrite = none ∧ ({ State.reset with heldWrite := some 128 } : State).heldWrite = some 128 ∧
    State.reset.agenda = [] := by decide
/-- Strands Q and L fetch S-marked words that issue, and V and M do not take part. -/
def join2 : State := turned (.strand 0 .l) (here .q fun c => { c with
  v := {}, m := {}, imem := [(0, 0x50452FFF)], joinmask := 0xF })
theorem witness_BundleIssuesTogether :
    let s := join2
    let u : State := { s with agenda := [], tick := s.tick + 1, now := s.now + 1 }
    s.powered = true ∧ s.agenda = ⟨1, .strand 0 .l⟩ :: [] ∧ (u.core 0).participants = [.q, .l] ∧
    u.servesNow 0 = false ∧ u.startsNow 0 = false ∧ (∀ p ∈ (u.core 0).participants, (u.core 0).bundled p = true ∧
      goesTo (u.tryWord 0 p false) (fun t => t.status = .issued [] [] ∧ t.heldWrite = none) = true) := by decide
theorem witness_WordsDecode : (0 < 2 ^ 31 ∧ 2 ^ 31 - 1 < 2 ^ 31) ∧ (2 ^ 31 ≤ 2 ^ 31 ∧ 2 ^ 32 - 1 < 2 ^ 32) := by decide
theorem witness_DecodeEncode :
    wf (.addi ⟨1, 7⟩ 31 0 2047) = true ∧ home (.addi ⟨1, 7⟩ 31 0 2047) = .shared ∧
    wf (.talloc ⟨0, 0⟩ 511 31) = true ∧ home (.talloc ⟨0, 0⟩ 511 31) = .only .l ∧
    wf (.vredadd ⟨1, 0⟩ 2 0x45) = true ∧ home (.vredadd ⟨1, 0⟩ 2 0x45) = .only .v ∧
    wf (.taskpop ⟨0, 0⟩ 2 0) = true ∧ home (.taskpop ⟨0, 0⟩ 2 0) = .only .q ∧
    wf (.mzero ⟨0, 0⟩ 3) = true ∧ home (.mzero ⟨0, 0⟩ 3) = .only .m ∧
    wf (.awlWli 15 262143) = true ∧ home (.awlWli 15 262143) = .awl := by decide
theorem witness_MemoryReadsAndWrites :
    Memory.wf [] = true ∧ Memory.wf [(0, 1), (2 ^ 64, 255)] = true := by decide
theorem witness_MemoryFormKept :
    goesTo (step (turned (.event .powerGood) State.reset)) (fun _ => true) = true ∧
    Memory.wf (turned (.event .powerGood) State.reset).mem = true := by decide
/-- Strand `k` has a handler and is not in it. -/
def handled (k : StrandId) : State := here k fun c => c.setStrand k { c.strand k with trap := { vec := 0x201 } }
theorem witness_TrapEntry :
    (∀ k, (((handled k).core 0).strand k).trap.en = true) ∧ (∀ k, (((handled k).core 0).strand k).trap.inh = false) ∧
    (255 < 256 ∧ 2 ^ 15 - 1 < 2 ^ 15) ∧
    (let s := handled .q
     s.ready [] none = true ∧ s.me.trap.en = true ∧ s.me.trap.inh = false) := by
  refine ⟨fun k => ?_, fun k => ?_, by decide, by decide⟩ <;> cases k <;> decide
theorem witness_TrapReturnAndAbandon :
    (let s := here .q id
     ((s.core 0).strand .q).trap.en = false) ∧
    (let s := here .l fun c => { c with l := { c.l with trap := { vec := 1, cause := 0x100 } } }
     ((s.core 0).strand .l).trap.inh = true) ∧
    (let s := here .l fun c => { c with lost := some 255 }
     (s.core 0).lost = some 255 ∧ (s.core 0).work = .launch ∧ (s.core 0).loading = false) := by decide
theorem witness_AluWords :
    (let s := regs .q []
     s.ready [wrx 31 16, rdx 0 11, rdx 23 6] (some 1) = true ∧ s.ready [wrx 31 16, rdx 0 11, rdx 23 6] (some 3) = true ∧
     s.ready [wrx 31 16, rdx 0 11, rdx 23 6] none = true ∧ s.ready [wrx 31 16, rdx 31 11] (some 1) = true) ∧
    (let s := here .v fun c => { c with queues := [(1, { entries := [⟨0, some (7, 0)⟩] })] }
     s.ready [wrx 24 16, rdx 24 11, rdx 1 6] (some 1) = true) := by decide
theorem witness_ImmediateWords :
    (let s := regs .m []
     s.ready [wrx 0 16, rdx 31 11] (some 1) = true ∧
     s.here.notYet s.cur.strand = false ∧ s.doomed s.cur.core s.cur.strand = false ∧ s.waitTrap s.cur.core s.cur.strand = none ∧
     ({ s with cur := { s.cur with format := [⟨6, false, none, 2⟩] } } : State).cur.format = [⟨6, false, none, 2⟩] ∧
     aliasOffences s.cur.strand [wrx 0 16, rdx 31 11] = []) ∧
    (∀ op ∈ [8, 9, 10], let w := op * 2 ^ 21 + 2 ^ 6
     w < 2 ^ 31 ∧ 8 ≤ w / 2 ^ 21 % 64 ∧ w / 2 ^ 21 % 64 ≤ 10 ∧ w / 2 ^ 6 % 32 ≠ 0) := by decide
theorem witness_MoveWords :
    (let s := regs .l []
     s.ready [wrx 31 16] (some 1) = true ∧ s.ready [⟨.x 31, true, true, 16⟩] (some 1) = true) ∧ aliasOf 24 = some .q ∧
    aliasOf 27 = some .l := by decide
theorem witness_IntegerWordsFrame :
    goesTo (exec (.div ⟨0, 0⟩ 31 0 1) (regs .q [])) (fun t => t.status = .issued [] []) = true := by decide
theorem witness_LandingFrame :
    let s := here .q fun c => { c with fixed := [⟨.q, 0, .x 31 7, 0, false⟩] }
    (s.core 0).fixed = ⟨.q, 0, .x 31 7, 0, false⟩ :: [] ∧ 0 ≤ (s.core 0).cycle ∧ aliasOf 31 = none ∧ aliasOf 0 = none := by decide
theorem witness_TransferWords :
    let s := here .q fun c => { c with q := { c.q with pc := 4096, x := [(1, 24575)] } }
    s.ready [rdx 1 16] none = true ∧ s.ready [] none = true ∧ s.ready [wrx 31 0] (some 1) = true ∧
    s.ready [rdx 1 11] none = true ∧ s.ready [wrx 2 16, rdx 1 11] (some 1) = true ∧ (s.rx 1).toNat ≤ 24575 ∧
    ((s.me.pc : Int) + (BitVec.ofNat 13 0x1000).toInt = (0 : Nat)) ∧ ((s.me.pc : Int) + (BitVec.ofNat 13 0xFFF).toInt = (8191 : Nat)) ∧
    ((s.me.pc : Int) + (BitVec.ofNat 21 20479).toInt = (24575 : Nat)) := by decide
theorem witness_LoopWord :
    let four : List LoopLevel := [⟨1, 9000, 2⟩, ⟨1, 9000, 2⟩, ⟨1, 9000, 2⟩, ⟨1, 9000, 2⟩]
    let s := fun (ls : List LoopLevel) (n : Word) (p : Nat) =>
      here .q fun c => { c with q := { c.q with pc := p, loops := ls, x := [(1, n)] } }
    ((s [] 1 23552).ready [rdx 1 11] none = true ∧ 23552 + 1023 ≤ 24575 ∧ (s [] 1 23552).rx 1 ≠ 0 ∧
      (∀ l ∈ (s [] 1 23552).me.loops.head?, 24575 ≤ l.stop) ∧ (s [] 1 23552).me.loops.length < 4) ∧
    ((s [] 0 0).ready [rdx 1 11] none = true ∧ (s [] 0 0).rx 1 = 0) ∧
    ((s four 1 0).ready [rdx 1 11] none = true ∧ 4 ≤ (s four 1 0).me.loops.length) ∧
    ((s [⟨0, 1, 1⟩] 1 1).ready [rdx 1 11] none = true ∧ (∃ l, (s [⟨0, 1, 1⟩] 1 1).me.loops.head? = some l ∧ l.stop < 1 + 1)) ∧
    ((s [] 1 24575).here.notYet .q = false ∧ (s [] 1 24575).doomed 0 .q = false ∧ (s [] 1 24575).waitTrap 0 .q = none ∧ (s [] 1 24575).cur.format = [] ∧
      aliasOf 1 ≠ some .q ∧ 24575 < 24575 + 1) ∧
    ((s [⟨0, 1, 1⟩] 1 1).me.loops = ⟨0, 1, 1⟩ :: [] ∧ (1 : Nat) = (s [⟨0, 1, 1⟩] 1 1).me.pc) := by decide
/-- The counter of a scope with an index, of die 0, core or quad 0. -/
def ctr (scope i module : Nat) : Word := BitVec.ofNat 64 (i + 2 ^ 23 * module + 2 ^ 35 * scope)
theorem witness_CounterWords :
    (let s := fun (h v : Word) => regs .q [(1, h), (2, v)]
     let legal := fun (s : State) (c : Nat) => s.ready [rdx 1 11, rdx 2 6] none = true ∧ hScope (s.rx 1) = c ∧
       handleOk (s.rx 1) = true ∧ s.counterBad (s.rx 1) = false ∧ s.foreign s.cur.core (s.rx 1) = false
     (∀ c < 5, legal (s (ctr c 0 0) 0) c ∧ hModule ((s (ctr c 0 0) 0).rx 1) = (s (ctr c 0 0) 0).hub.module) ∧
     (∀ c < 5, legal (s (ctr c 0 0) 1) c ∧ (s (ctr c 0 0) 1).rx 2 ≠ 0) ∧
     (∀ c < 5, (s (ctr c 0 0) (2 ^ 32)).ready [rdx 1 11, rdx 2 6] none = true ∧ ((s (ctr c 0 0) (2 ^ 32)).rx 2).toNat ≤ 2 ^ 32) ∧
     (legal (s (ctr 4 0 4095) 1) 4 ∧ hModule ((s (ctr 4 0 4095) 1).rx 1) ≠ (s (ctr 4 0 4095) 1).hub.module)) ∧
    (let s := regs .l []
     s.ready [namedx 0 16, namedx 31 11] none = true ∧ s.me.block = .none ∧ s.here.slotOf s.cur.strand 31 = none ∧
     s.fenceDone s.cur.core s.cur.strand 31 s.tok = true ∧ s.here.slotOf s.cur.strand 0 = none) := by decide +kernel
theorem witness_SpecialRegisterReads :
    (let s := regs .q []
     s.ready [wrx 31 16, namedx 0 11] (some 2) = true ∧ ¬reservedSpr 0 ∧ ¬reservedSpr 0x45 ∧ (0x45 : Nat) ≠ 0x31) ∧
    (let s := here .m fun c => { c with demands := [(2, [1, 2])] }
     s.ready [wrx 31 16, namedx 0 11] none = true ∧ sget [] s.here.demands StrandId.m.index = 1 :: [2]) := by
  decide
theorem witness_SpecialRegisterWrites :
    let s := regs .q [(1, 15)]
    s.ready [rdx 1 11] none = true ∧ ¬reservedSpr 0x45 ∧ s.here.sprOffences .q 0x45 (s.rx 1) = [] ∧ (0x45 : Nat) ≠ 4 ∧
    s.cur.strand = .q ∧ (s.rx 1).toNat < 16 := by decide +kernel
theorem witness_SpecialRegisterWrites_spsplit :
    let s := regs .q [(1, 3)]
    s.ready [rdx 1 11] none = true ∧ (s.rx 1).toNat < 4 ∧ s.here.welt = [] ∧ s.here.tiles = [] := by decide +kernel
/-- Strand M is in its handler for a stopped multiply, with a value in x1. -/
def stoppedM (v : Word) : State := here .m fun c => { c with
  mprog := 0x180, m := { c.m with x := [(1, v)], trap := { cause := BitVec.ofNat 64 (256 + OPND), vec := 1 } } }
theorem witness_SpecialRegisterWrites_mprog :
    ∀ v : Word, v = 128 ∨ v = 0x180 → let s := stoppedM v
      s.ready [rdx 1 11] none = true ∧ s.cur.strand = .m ∧
      s.me.trap.inh = true ∧ field s.me.trap.cause 0 8 = OPND ∧ bitOf s.here.mprog.toNat 8 = true ∧
       (s.rx 1).toNat < 512 ∧ (s.rx 1).toNat % 256 ≤ 128 ∧
      ((s.rx 1).toNat < 256 ∨ s.rx 1 = s.here.mprog) := by
  rintro v (rfl | rfl) <;> decide +kernel
theorem witness_SpecialRegisterWrites_tret :
    let s := stoppedM 1
    s.ready [rdx 1 11] none = true ∧ s.rx 1 = 1 ∧ s.me.trap.inh = true := by decide +kernel
theorem witness_SpecialRegisterWrites_dmsub :
    let s := regs .v [(1, 255)]
    s.ready [rdx 1 11] none = true ∧ (s.rx 1).toNat < 256 := by decide +kernel
theorem witness_StrandWords :
    (∀ k, (here k id).ready [] none = true) ∧
    (let s := here .q fun c => { c with v := {}, l := {} }
     s.ready [] none = true ∧ s.cur.strand = .q ∧ (7 : Fin 8).val ≠ 0 ∧ (24575 : Nat) < 24576 ∧
     (s.here.strand .v).running = false ∧ (s.here.strand .m).running = true) := by
  refine ⟨fun k => ?_, by decide⟩
  cases k <;> decide
/-- The bytes of 64-bit words. -/
def words (l : List Nat) : List Byte := l.flatMap (bytesOf 8)
/-- Bytes placed in core 0's address space, after those that are there. -/
def put (va : Nat) (bs : List Byte) (s : State) : State :=
  { s with mem := s.mem ++ bs.zipIdx.filterMap fun p => if p.1 = 0 then none else some (0x80040000000 + va + p.2, p.1) }
/-- A nest record of one loop of 4: one core, entry 24,575. -/
def nestBytes : List Byte :=
  words [1, 0, 24575 + 2 ^ 32 * 1 + 2 ^ 40 * 0, 0, 0, 0, 0, 0, 4 * 2 ^ 32, 1, 0, 0, 0, 0, 0, 0]
theorem witness_WorkWords :
    (let s := put 0x80 nestBytes (regs .q [(2, 0x80), (3, 7)])
     s.cur.strand = .q ∧ s.storesWait = [] ∧ s.ready [wrx 1 16, rdx 2 11, rdx 3 6] none = true ∧
     (s.rx 3).toNat ≤ 7 ∧ (s.rx 2).toNat % 128 = 0 ∧ (s.blockHere (s.rx 2) 128 PR).fault = none ∧
     nestOffences (s.blockHere (s.rx 2) 128 PR).bytes 11 = [] ∧
     (s.rx 2).toNat % 32 = 0 ∧ (s.blockHere 0x2000 32 PR).fault = none ∧
     taskOffences (s.blockHere 0x2000 32 PR).bytes 11 = []) := by
  decide +kernel
theorem witness_WorkWords_taskpop :
    (let e : HeapEntry := ⟨3, 0, 0, {}, 0, 0, false⟩
     let c := fun (n : Word) (h : List HeapEntry) => ({ here .q fun c => { c with
       v := {}, m := {}, l := {}, q := { c.q with x := [(3, n)] } } with kdies := [(0, { heap := h })] } : State)
     ((c 0 [e]).ready [wrx 30 16, wrx 31 16, rdx 3 11] none = true ∧ (30 : Fin 32).val ≠ 0 ∧ 30 % 2 = 0 ∧ 27 < 30 ∧
       (c 0 [e]).here.othersRun = false ∧ ((c 0 [e]).rx 3).toNat ≤ 1 ∧ (c 0 [e]).isReady (.heap 0) = true ∧
       ((c 0 [e]).kdie 0).choose (c 0 [e]).free = some e) ∧
     ((c 1 []).ready [wrx 2 16, wrx 3 16, rdx 3 11] none = true ∧ (c 1 []).here.othersRun = false ∧
       ((c 1 []).kdie 0).choose (c 1 []).free = none ∧ (c 1 []).rx 3 = 1) ∧
     (c 0 []).ready [] none = true) := by
  refine ⟨⟨by decide, by decide, by decide, by decide, by decide, by decide, by decide, ?_⟩,
    ⟨by decide, by decide, ?_, by decide⟩, by decide⟩
  · show ([_] : List HeapEntry)[_ % 1]? = _
    rw [Nat.mod_one]; rfl
  · rfl
theorem witness_SubmissionStatus :
    (State.reset.isReady (.nest 7) = false ∧ State.reset.isReady (.heap 7) = false) ∧
    (let r := nestRec nestBytes 0 0 0
     let s := fun (n : Nat) (p : List Lineage) => ({ here .q id with kdies := [(0, { recs := List.replicate n r, prefixes := p })] } : State)
     (s 0 []).isReady (.nest 0) = true ∧ 64 ≤ ((s 64 []).kdie 0).recs.length ∧ ((s 63 []).kdie 0).recs.length < 64 ∧
     coveredBy ((s 63 [{ depth := 1, lo := 1 }]).kdie 0).prefixes (nestRec (nestBytes.set 0x24 1 |>.set 0x28 1) 0 0 0).lin = true ∧ coveredBy ((s 63 []).kdie 0).prefixes r.lin = false ∧
     r.total ≠ 0 ∧ (nestRec (nestBytes.set 0x44 0) 0 0 0).total = 0 ∧
     (s 0 []).isReady (.heap 0) = true) := by decide +kernel
theorem witness_SubmissionStatus_heap :
    coveredBy [] (taskEntry (List.replicate 32 0) 0).lin = false ∧
    coveredBy [{ depth := 1 }] (taskEntry (List.replicate 32 0) 0).lin = false ∧
    ∀ n, (({ heap := List.replicate n (taskEntry (List.replicate 32 0) 0) } : KDie)).heap.length = n :=
  ⟨by decide, by decide, fun n => List.length_replicate⟩
theorem witness_SystemWords :
    (let s := regs .q [(2, 255)]
     s.cur.strand = .q ∧ s.ready [wrx 31 16] (some 2) = true ∧ s.isReady graphUnit = true ∧ (s.rx 2).toNat ≤ 255 ∧
     s.ready [rdx 2 11, rdx 3 6] none = true ∧  s.ready [wrx 1 16, rdx 2 11] none = true) ∧
    (let s := regs .q [(1, ctr 0 7 0), (2, 0x0000FFFFFFFF00FF), (3, 8)]
     s.ready [rdx 1 16, rdx 2 11, rdx 3 6] none = true ∧ (sget [] s.here.awlq 0).length < 8 ∧ s.optHandle 1 16 = [] ∧
     field (s.rx 2) 8 8 = 0 ∧ field (s.rx 2) 48 16 = 0 ∧ (s.rx 3).toNat % 8 = 0 ∧ s.isReady (.awl 0) = true) := by decide
/-- An image header with one overlay of 4 words at word 24,572. -/
def ovlBytes : List Byte := words [0, 0, 0x40 + 2 ^ 32, 0, 0, 0, 0, 0, 0x80, 24572 + 2 ^ 34]
theorem witness_SystemWords_ovl :
    let s := put 0x1000 ovlBytes (here .q fun c => { c with header := some 0x1000 })
    s.ready [wrx 1 16, rdx 2 11] none = true ∧ s.here.header = some 0x1000 ∧
    (s.readOvl 0x1000 (s.rx 2)).offs = [] ∧ (s.readOvl 0x1000 (s.rx 2)).fault = false ∧
    (s.readOvl 0x1000 (s.rx 2)).count = 4 := by decide +kernel
/-- Strand Q alone runs. -/
def alone (x : SMap Word) : State := here .q fun c => { c with q := { c.q with x := x }, v := {}, m := {}, l := {} }
theorem witness_SaveWords :
    let s := alone [(2, 0x200000)]
    s.cur.strand = .q ∧ s.here.othersRun = false ∧ s.saveWaits = [] ∧ (s.rx 2).toNat % 2 ^ 21 = 0 ∧
    s.ready [wrx 1 16, rdx 2 11] none = true ∧
    s.checkRange s.here.asid s.here.root PRW (s.rx 2).toNat 0x200000 = none := by decide +kernel
theorem no_reds (s : State) (l : List Nat) (h : s.reds = []) : s.mergeLines l = s := by
  unfold State.mergeLines State.mergeLinesBy
  induction l with
  | nil => rfl
  | cons a l ih => simpa [State.mergeLineBy, h, slook] using ih
theorem clean_walk (s : State) (asid root va : Nat) (h : s.reds = []) (hd : s.damaged = []) : s.settleWalk asid root va = s := by
  unfold State.settleWalk
  generalize s.path asid root va = l
  induction l with
  | nil => rfl
  | cons a l ih => simpa [State.mergeLine, State.mergeLineBy, h, slook, State.markDamaged, hd] using ih
theorem clean_settle (s : State) (asid root va len : Nat) (h : s.reds = []) (hd : s.damaged = []) :
    s.settleVa asid root va len = s := by
  have : s.settleWalks asid root va len = s := by
    unfold State.settleWalks
    generalize pagesOf va len = l
    induction l with
    | nil => rfl
    | cons a l ih => simpa [clean_walk _ _ _ _ h hd] using ih
  simp [State.settleVa, this, no_reds _ _ h]
theorem clean_block (s : State) (acc asid root va len need : Nat) (h : s.reds = []) (hd : s.damaged = []) (hp : s.poison = [])
    (hc : s.checkRange asid root need va len = none) : (s.readBlock acc asid root va len need).fault = none := by
  simp [State.readBlock, hc, clean_settle _ _ _ _ _ h hd, State.dataFault, State.firstBadLine, hd, hp,
    List.find?_eq_none.2 (fun _ _ => Bool.false_ne_true)]
theorem witness_SaveWords_restore : ((alone [(2, 0)]).readBlock 0 0 tableRoot 0 0x200000 PRW).fault = none :=
  clean_block _ _ _ _ _ _ _ rfl rfl rfl (by decide +kernel)
theorem witness_MaintenanceWords :
    let s := regs .q [(2, 2 ^ 57 - 1), (3, 2 ^ 30), (4, 65535)]
    s.cur.strand = .q ∧  s.ready [rdx 2 11] none = true ∧ (s.rx 2).toNat < 2 ^ 57 ∧
    s.ready [] none = true ∧ s.ready [rdx 0 11, rdx 3 6] none = true ∧ s.cleanWait = [] ∧ (s.rx 3).toNat ≤ 2 ^ 30 ∧
    s.checkRange s.here.asid s.here.root PR (s.rx 0).toNat (s.rx 3).toNat = none ∧
    s.ready [wrx 1 16, rdx 4 11, rdx 5 6] none = true ∧ (s.rx 4).toNat < 2 ^ 16 ∧ s.counterInUse (s.rx 5) = false := by decide +kernel
theorem witness_FloatLaneWords :
    let s := here .v id
    s.cur.strand = .v ∧ vdst 0x47 14 = [] ∧ vsrc 0x40 7 = [] ∧ vsrc 8 0 = [] ∧
    (∀ old n, (old = true ∨ old = false) → (n = 4 ∨ n = 5) → s.ready [⟨.vec 0x47, old, true, 14⟩, rdv 0x40 7, rdv 8 0] (some n) = true) := by
  refine ⟨rfl, by decide, by decide, by decide, ?_⟩
  rintro old n (rfl | rfl) (rfl | rfl) <;> decide +kernel
theorem witness_IntegerLaneWords :
    let s := here .v id
    s.cur.strand = .v ∧ vdst 0 14 = [] ∧ vsrc 0x40 7 = [] ∧ vsrc 8 0 = [] ∧
    s.ready [⟨.vec 0, false, true, 14⟩, rdv 0x40 7, rdv 8 0] (some 2) = true ∧
    s.ready [⟨.vec 0, false, true, 14⟩, rdv 0x40 7, rdv 8 0] (some 3) = true ∧
    s.ready [⟨.vec 0, true, true, 14⟩, rdv 0x40 7, rdv 8 0] (some 2) = true ∧
    s.ready [wrv 0 14, rdv 0x40 7] (some 2) = true ∧ s.ready [wrv 0 14, rdv 0x40 7] (some 3) = true := by decide +kernel
theorem witness_ConversionWords :
    let s := here .v id
    s.cur.strand = .v ∧ vdst 0x47 14 = [] ∧ vsrc 0 7 = [] ∧ vsrc 0x47 0 = [] ∧
    s.ready [⟨.vec 0x47, false, true, 14⟩, rdv 0 7, rdv 0x47 0] (some 3) = true ∧
    s.ready [wrv 0x47 14, rdv 0 7] (some 8) = true ∧ s.ready [wrv 0x47 14, rdv 0 7] (some 6) = true := by decide +kernel
theorem witness_VectorMoveWords :
    let s := here .v fun c => { c with v := { c.v with x := [(1, 127), (2, 191)] } }
    s.cur.strand = .v ∧ vdst 0x40 14 = [] ∧ vsrc 0x40 14 = [] ∧ s.ready [wrv 0x40 14] (some 2) = true ∧
    s.ready [wrv 0x40 14, rdx 31 9] (some 2) = true ∧ s.ready [wrx 31 9, rdv 0x40 14] (some 3) = true ∧
    s.ready [wrv 0x40 14] none = true ∧ s.ready [rdv 0x40 14] none = true ∧ 319 < s.here.tileCount ∧ 0 < s.here.tileCount ∧
    s.ready [wrv 0x40 14, rdx 1 2] none = true ∧ s.ready [wrv 0x40 14, rdx 2 2] none = true ∧ (s.rx 1).toNat < 128 ∧
    (s.rx 2).toNat < 192 ∧ s.here.accBusy 3 = false ∧
    s.sourceOffence s.cur.core (4096 * 319 + 128 * 31) 128 5 = [] := by decide +kernel
/-- Core 0 with every tile FULL and both planes tagged with a format, strand M acting; x1 names a page of the format. -/
def matrixHere (fmt : Nat) : State :=
  here .m fun c => { c with
    tiles := (List.range 320).map fun i => (i, { state := 2 })
    w0 := { issueTag := some fmt }, w1 := { issueTag := some fmt }
    m := { c.m with x := [(1, BitVec.ofNat 64 (2 ^ 30 * (fmt + 1)))] } }
theorem witness_MultiplyWords_tile :
    ∀ fmt < 4, let s := matrixHere fmt
      s.cur.strand = .m ∧  s.here.arr.length < 8 ∧ s.ready [] none = true ∧
      (∀ rows, (rows = 128 ∨ rows = 192) → let t := 320 - groupTiles fmt rows
        t + groupTiles fmt rows ≤ s.here.tileCount ∧ s.here.allFull (tilesFrom t (groupTiles fmt rows)) = true ∧
        s.here.firstBad (32 * t) (32 * groupTiles fmt rows) = none) ∧
      s.here.maskBusy 7 = false ∧ (s.here.plane 1).issueTag = some fmt := by
  intro fmt h
  have : fmt = 0 ∨ fmt = 1 ∨ fmt = 2 ∨ fmt = 3 := by omega
  rcases this with rfl | rfl | rfl | rfl <;>
    exact ⟨by decide, by decide, by decide +kernel, by rintro rows (rfl | rfl) <;> decide +kernel,
      by decide +kernel, by decide⟩
theorem witness_MultiplyWords_handle :
    ∀ fmt < 4, ∀ rows, (rows = 128 ∨ rows = 192) → let s := matrixHere fmt
      let o := s.handleOperand 1 fmt rows
      s.ready [rdx 1 8] none = true ∧ (1 : Nat) ≠ 26 ∧ o.checks = [] ∧ o.fault.isNone = true ∧ o.bits = [] ∧ o.waits = [] ∧
      o.accs = [rdx 1 8] := by
  intro fmt h
  have : fmt = 0 ∨ fmt = 1 ∨ fmt = 2 ∨ fmt = 3 := by omega
  rcases this with rfl | rfl | rfl | rfl <;> rintro rows (rfl | rfl) <;> decide +kernel
/-- A TCB of one stitch, one entry and one end drain. -/
def tcbBytes : List Byte :=
  [1, 0, 0, 0, 1, 1, 0, 1] ++ List.replicate 56 0 ++ [0x64] ++ List.replicate 63 0 ++ [0x32] ++ List.replicate 255 0
theorem witness_ArrayQueueWords :
    let s := matrixHere 0
    let u := here .m id
    s.cur.strand = .m ∧  s.here.arr.length < 8 ∧ s.ready [] none = true ∧
    u.ready [rdx 31 1] none = true ∧ u.here.maskBusy 7 = false ∧ 296 + drainTiles (dOfmt (u.rx 31)) ≤ u.here.tileCount ∧
    296 < u.here.tileCount ∧ drainOffences u.here.tileCount 296 (u.rx 31) 1 id = [] ∧
    u.drainOffence 296 (u.rx 31) 6 = [] ∧ dScb (u.rx 31) = false ∧ u.storesWait = [] ∧
    u.ready [rdx 0 11] none = true ∧ (u.rx 0).toNat % 128 = 0 ∧ (u.blockHere (u.rx 0) 2048 PR).fault.isNone = true := by
  decide +kernel
theorem witness_ArrayQueueWords_mpbld :
    ∀ rows, (rows = 1 ∨ rows = 128) → let u := put 0 [BitVec.ofNat 8 rows] (here .m id)
      (u.blockHere 0 16 PR).fault = none ∧ num (u.blockHere 0 16 PR).bytes 0 2 = rows ∧
      zeroOffences (u.blockHere 0 16 PR).bytes 2 14 11 = [] ∧ (u.blockHere 0 (16 + 24 * rows) PR).fault.isNone = true := by
  rintro rows (rfl | rfl) <;> decide +kernel
theorem witness_ArrayQueueWords_trgo :
    let u := put 0x100 [0x32] (put 0xC0 [0x64] (put 0x80 (tcbBytes.take 8) (here .m fun c => { c with w0 := { issueTag := some 0 } })))
    u.ready [rdx 1 11] none = true ∧ (u.blockHere 0x80 384 PR).fault.isNone = true ∧
    (u.blockHere 0x80 384 PR).bytes = tcbBytes ∧ (∀ m ∈ tcbMasks tcbBytes, u.here.maskBusy m = false) ∧
    tcbOffences u.here.tileCount tcbBytes 11 = [] ∧ u.here.tcbPlanes tcbBytes = false ∧
    (∀ y ∈ tcbDrains tcbBytes, u.drainOffence y.2.1 y.2.2 0 = []) := by
  refine ⟨?_, ?_, ?_, ?_, ?_, ?_, ?_⟩ <;> decide +kernel
/-- A treadle run at its first beat. -/
def run0 : Run := ⟨0, 0, tcbBytes, [], 8, 4, 1, 0, 0, [], 0⟩
theorem witness_MaskAndWaitWords :
    (let s := here .m id
     s.cur.strand = .m ∧ s.ready [] none = true ∧  s.here.run = none ∧ s.here.maskBusy 7 = false ∧
     319 < s.here.tileCount) ∧
    (let s := here .m fun c => { c with run := some run0 }
     s.ready [] none = true ∧ s.here.run = some run0) ∧
    (∀ v w : Word, (v = 0 ∧ w = 0) ∨ (v = 0x8000 ∧ w = 0xC000) ∨ (v = 0x0180 - 0x100 ∧ w = 0x01BF) →
      let s := here .m fun c => { c with m := { c.m with x := [(1, v), (2, w)] } }
      s.ready [rdx 1 11, rdx 2 6] none = true ∧ (s.rx 1).toNat < 2 ^ 16 ∧ (s.rx 2).toNat < 2 ^ 16 ∧
      (s.rx 1).toNat % 256 + (s.rx 1).toNat / 256 ≤ 128 ∧ (s.rx 2).toNat % 256 + (s.rx 2).toNat / 256 ≤ 192) := by
  refine ⟨by decide +kernel, by decide +kernel, ?_⟩
  rintro v w (⟨rfl, rfl⟩ | ⟨rfl, rfl⟩ | ⟨rfl, rfl⟩) <;> decide +kernel
/-- An access policy of a space, an order and a scope. -/
def policy (space ord scope : Nat) : Word := BitVec.ofNat 64 (2 ^ 20 * scope + 2 ^ 23 * space + 2 ^ 26 * ord)
theorem witness_AccessWords_load :
    ∀ q ∈ ([(0, 0), (0, 3), (1, 0), (1, 3), (2, 0), (2, 3), (3, 3), (4, 0), (4, 3)] : List (Nat × Nat)),
      let space := q.1
      let n := q.2
      let s := regs .l [(1, if space = 3 then ctr 0 8 0 else BitVec.ofNat 64 (2 ^ n)), (2, policy space 1 4)]
      s.cur.strand = .l ∧ s.ready [wrx 31 16, rdx 1 11, rdx 2 6] none = true ∧
      policyOffences (s.rx 2) 6 = [] ∧ polSpace (s.rx 2) = space ∧ polOrd (s.rx 2) = 1 ∧
      s.here.accessOffences space (s.rx 1) (2 ^ n) 11 = [] ∧ s.ready [rdx 1 11, rdx 2 6] none = true := by decide +kernel
theorem witness_AccessWords_misaligned :
    let s := regs .l [(1, ctr 2 4 0), (2, policy 3 0 0)]
    s.ready [wrx 31 16, rdx 1 11, rdx 2 6] none = true ∧ policyOffences (s.rx 2) 6 = [] ∧ polSpace (s.rx 2) = 3 ∧ polOrd (s.rx 2) ≤ 1 ∧
    addressOffences 3 (s.rx 1) 11 = [] ∧ (s.rx 1).toNat % 8 ≠ 0 := by decide +kernel
theorem witness_AccessWords_store :
    ∀ space ∈ [0, 1, 2, 4], ∀ n < 4,
      let s := regs .l [(1, BitVec.ofNat 64 (2 ^ n)), (2, policy space 2 4)]
      s.ready [rdx 31 16, rdx 1 11, rdx 2 6] none = true ∧ policyOffences (s.rx 2) 6 = [] ∧ polSpace (s.rx 2) = space ∧
      polOrd (s.rx 2) = 2 ∧ s.here.accessOffences space (s.rx 1) (2 ^ n) 11 = [] ∧
      s.storeOffence space (s.rx 1) (2 ^ n) 11 = [] := by decide +kernel
theorem witness_AccessWords_atomic :
    ∀ space ∈ [0, 4], ∀ n ∈ [4, 8],
      let s := regs .l [(1, BitVec.ofNat 64 n), (2, policy space 2 4)]
      s.ready [⟨.x 30, true, true, 16⟩, rdx 1 11, rdx 3 6, rdx 2 1] none = true ∧
      s.ready [⟨.x 30, false, true, 16⟩, rdx 1 11, rdx 3 6, rdx 2 1] none = true ∧
      s.ready [rdx 1 11, rdx 3 6, rdx 2 1] none = true ∧ policyOffences (s.rx 2) 1 = [] ∧ polSpace (s.rx 2) = space ∧
      s.here.accessOffences space (s.rx 1) n 11 = [] ∧
      (space = 0 → s.checkRange s.here.asid s.here.root PATOM (s.rx 1).toNat 4 = none) := by decide +kernel
theorem witness_AccessWords_prefetch :
    let s := regs .l [(1, 8)]
    s.ready [rdx 1 11, rdx 2 6] none = true ∧ policyOffences (s.rx 2) 6 = [] ∧ polSpace (s.rx 2) = 0 ∧ polOrd (s.rx 2) = 0 ∧
    s.here.accessOffences 0 (s.rx 1) 8 11 = [] := by decide +kernel
theorem witness_TileWords :
    let s := here .l id
    s.cur.strand = .l ∧ 319 < s.here.tileCount ∧ s.ready [] none = true ∧ (s.here.tile 319).state = 0 ∧ s.sealOffence 319 7 = [] ∧
    s.ready [wrx 31 16] (some 2) = true ∧ s.here.tileOrder = [] := by decide +kernel
theorem witness_CopyWords :
    let s := fun (a b d : Word) => { matrixHere 0 with
      cur := { core := 0, strand := .l }
      cores := [(0, { busy with l := { running := true, x := [(1, a), (2, b), (4, d), (5, 7)] } })] }
    let fits := fun (s : State) =>
      s.cur.strand = .l ∧ s.here.welt.length < 32 ∧ s.optHandle 0 1 = [] ∧
      s.ready [rdx 1 16, rdx 2 11, rdx 4 6, rdx 0 1] none = true
    let free := fun (g : GlobalSide) => g.checks = [] ∧ g.fault.isNone = true
    let len := fun (n : Nat) => BitVec.ofNat 64 (2 ^ 25 * n)
    let panel : Word := BitVec.ofNat 64 (1 + 2 ^ 8 * 128 + 2 ^ 16 * 128)
    (let x := s 0x3FFFFF80 0x13FF80 (len 128)
     fits x ∧ copyOffences 0x20 (x.rx 4) = [] ∧ free (x.globalSide false (x.rx 1) (copyNeed (x.rx 4) PR 4 none) 0) ∧
     cpRemote (x.rx 4) = false ∧ x.here.padOffences (x.rx 2) 128 128 11 = [] ∧ x.storeOffence 1 (x.rx 2) 128 11 = [] ∧
     copyOffences 0x21 (x.rx 4) = [] ∧ free (x.globalSide false (x.rx 1) (copyNeed (x.rx 4) PW 5 none) 0)) ∧
    (let x := s 0x80 0x80 (len 1310592 + 64)
     fits x ∧ copyOffences 0x22 (x.rx 4) = [] ∧ sprOffences (x.rx 1) 128 16 = [] ∧ x.here.padOffences (x.rx 2) 128 1310592 11 = [] ∧
     x.storeOffence 2 (x.rx 1) 1310592 16 = []) ∧
    (let x := s 0 0x1000 (len 4096)
     fits x ∧ copyOffences 0x23 (x.rx 4) = [] ∧ free (x.globalSide false (x.rx 1) (bytesNeed PR 4 4096) 0) ∧
     free (x.globalSide false (x.rx 2) (bytesNeed PW 5 4096) 0) ∧ meets 0 4096 0x1000 4096 = false) ∧
    (let x := s 0x40000000 0x81090280 panel
     fits x ∧ copyOffences 0x25 (x.rx 4) = [] ∧ x.here.followOffences (x.rx 2) = [] ∧
     x.sourceOffence x.cur.core (4096 * followTile (x.rx 2)) (4096 * groupTiles (followFmt (x.rx 2)) 128) 11 = [] ∧
     free (x.globalSide false (x.rx 1) (panelNeed (x.rx 4) PR 4 (some (followFmt (x.rx 2)))) 0)) ∧
    (let x := s 0 0 (len 3968)
     copyOffences 0x24 (x.rx 4) = [] ∧ 4 % 2 = 0 ∧ (x.rx 1).toNat % 128 = 0 ∧ (x.rx 1).toNat % 4096 + 128 + 3968 ≤ 4096 ∧
     x.here.padOffences (x.rx 2) 128 3968 11 = [] ∧ free (x.globalSide false (x.rx 1) (bytesNeed PATOM 5 (128 + 3968)) 0) ∧
     x.ready [rdx 1 16, rdx 2 11, rdx 4 6, rdx 5 6, rdx 0 1] none = true) := by decide +kernel
/-- A context record of one T-die, and a command block for each context command. -/
def ctxBlock : Nat → List Byte
  | 0x28 => words [16 * 2 ^ 32 + 2 ^ 48, 1, 0, 0, 0, 0, 0, 0]
  | 0x29 => words [16 * 2 ^ 32 + 2 ^ 48, 64, 0, 0, 0, 0, 0, 0]
  | 0x2A => words [0, 0, 0x2000, 0, 0, 2 ^ 32, 0, 0]
  | 0x2B => words [0, 0, 0, 0, 0, 16, 0, 0]
  | _ => words [0, 0, 0, 0, 0, 0, 0, 0]
def ctxHere (op : Nat) : State :=
  put 0x1000 (ctxBlock op) (put 0xA0 [8] (put 0x85 [1] (regs .l [(1, 0x80), (2, 0x1000)])))
theorem witness_CommandWords :
    ∀ op ∈ [0x28, 0x29, 0x2A, 0x2B, 0x2C, 0x2D], let s := ctxHere op
      s.cur.strand = .l ∧ s.takeWaits = [] ∧ s.optHandle 0 1 = [] ∧
      s.ready [rdx 1 16, rdx 2 11, rdx 3 6, rdx 0 1] none = true ∧ s.ready [rdx 1 16, rdx 2 11, rdx 0 1] none = true ∧
      (let x := s.ctxSide s.cur.core s.here.asid s.here.root op (s.rx 1) (s.rx 2) (s.rx 3)
       x.checks = [] ∧ x.notReady = none ∧ x.fault.isNone = true) := by
  simp only [List.forall_mem_cons]
  refine ⟨?_, ?_, ?_, ?_, ?_, ?_, fun _ h => nomatch h⟩ <;> decide +kernel
theorem witness_CommandWords_coll :
    let s : State := { regs .l [(1, 0x100), (2, 255), (3, BitVec.ofNat 64 (2 ^ 22 * 128))] with
      hub := { (regs .l []).hub with gdef := [(255, 0x2001)], glist := [(255, 0x1000)], graph := { root := tableRoot } } }
    s.ready [rdx 1 16, rdx 2 11, rdx 3 6, rdx 0 1] none = true ∧ s.optHandle 0 1 = [] ∧ (s.rx 2).toNat < 256 ∧
    s.hub.groupDefined 255 = true ∧ (s.groupBlock 255).fault.isNone = true ∧ s.hub.module ∈ memberList (s.groupBlock 255).bytes ∧
    collOffences (s.rx 3) (s.hub.groupCount 255) = [] ∧ (s.rx 1).toNat % 128 = 0 ∧
    s.rangeFault false PRW (s.rx 1).toNat 128 = none ∧ (∀ u ∈ collUnits, s.isReady u = true) := by decide +kernel
/-- A run in slot 255 of die 7's Awl at a word index, with the slot's state. -/
def awlAt (pc : Nat) (x : AwlSlot) : State :=
  { State.reset with
    cur := { die := 7, slot := 255 }
    mem := table
    kdies := [(7, { awl := { runs := [⟨⟨0, 255, 0, 0, 0, 0, 0, tableRoot, none⟩, none, pc⟩], slots := [(255, x)] } })] }
theorem witness_AwlArithmetic :
    (let s := awlAt 8190 {}
     ((s.kdie 7).awl.runOn s.cur.slot).isSome = true ∧ s.cur.format = [] ∧ 8190 + 1 < 8192 ∧
     ((8190 : Int) + (BitVec.ofNat 14 8192).toInt ≤ 8190) ∧ ((8190 : Int) + (BitVec.ofNat 14 1).toInt = (8191 : Nat)) ∧
     ((8190 : Int) + (BitVec.ofNat 26 67100674).toInt = (0 : Nat))) := by decide
theorem witness_AwlUnits_memory :
    (let s := awlAt 0 { w := [(1, 8192), (2, 512)], nblk := 1 }
     let r : AwlRun := ⟨⟨0, 255, 0, 0, 0, 0, 0, tableRoot, none⟩, none, 0⟩
     let x := (s.kdie 7).awl.slot 255
     (s.kdie 7).awl.runOn 255 = some r ∧ s.cur.format = [] ∧ r.pc + 1 < 8192 ∧
     (r.req.arg + (x.wr 1).setWidth 64 + BitVec.ofInt 64 (BitVec.ofNat 14 8192).toInt).toNat % 4 = 0 ∧
     (s.readBlock 0 0 tableRoot 0 4 PR).fault.isNone = true ∧ s.checkRange 0 tableRoot PW 0 4 = none ∧
     (x.wr 1).toNat % 8 = 0 ∧ (x.wr 2).toNat ≤ x.cap ∧ (x.wr 0).toNat ≤ x.cap ∧
     (s.readBlock 0 0 tableRoot 8192 4096 PR).fault.isNone = true ∧
     (x.wr 1).toNat % 16 = 0 ∧ s.checkRange 0 tableRoot PW 8192 16 = none) := by decide +kernel
/-- Two candidates, and registers for the words on them. -/
def candSlot : AwlSlot :=
  { w := [(1, 1), (2, 4096), (3, 0xFFFFFFFF)], f := [(0, 0x3F800000)], cands := [(7, 0x40000000), (9, 0x3F800000)] }
theorem witness_AwlUnits_candidates :
    let x := candSlot
    x.badBelow 2 = false ∧ 1 ≤ (x.wr 1).toNat ∧ (x.wr 2).toNat ≤ 4096 ∧ (x.cands.all fun c => !(f32 c.2).isNan) = true ∧
    x.node (x.wr 3) = some none ∧ x.cands[(x.wr 1).toNat]? = some (9, 0x3F800000) ∧ x.badBlocks.contains 0 = false := by
  decide +kernel
theorem witness_AwlUnits_pick :
    let x := candSlot
    let sums : List (W32 × W32) := [(0x3F800000, 0x3F800000), (0x3F000000, 0x3FC00000)]
    pickSums 0x40000000 (x.fr 0) 0 x.cands = sums ∧ pickNan 0x40000000 (x.fr 0) x.cands sums = false ∧
    mulF (drawF 0) ((sums.map Prod.snd).getLastD 0) = 0 ∧ (f32 0).isNan = false ∧
    (f32 0).ltNum (f32 (sums.getD 0 (0, 0)).2) = true := by decide +kernel
theorem witness_AwlUnits_trees :
    (({} : AwlSlot).penalise 7 65535).1 = some 65535 ∧
    (({ pen := List.replicate 1024 (7, 1) } : AwlSlot).penalise 2000 1).1 = none ∧
    (let x : AwlSlot := { tree := (List.range 63).map fun i => (BitVec.ofNat 32 i, none) }
     x.node 62 = some (some 62) ∧ x.node 0xFFFFFFFF = some none ∧ x.tree.length < 64 ∧ (62 : W32).toNat < x.tree.length) := by
  decide +kernel
theorem witness_StoreFrame :
    let m : MemOp := { strand := .l, tok := 0, kind := .store [1, 2, 3, 4, 5, 6, 7, 8], space := 0, addr := 0x3FFFFFF8, len := 8,
                       ord := 0, scope := 0, sent := 0, snap := (here .l id).snapshot }
    let s := here .l fun c => { c with mops := [m] }
    (s.core 0).nextOrdinary .l = some m ∧ m.space = 0 ∧ ([1, 2, 3, 4, 5, 6, 7, 8] : List Byte).length = m.len ∧
    s.mayPerform 0 m = true ∧ m.segs = [] ∧ s.mopSegs 0 m ≠ [] ∧ (∀ line ∈ segLines (s.mopSegs 0 m), s.sealed line = false) ∧
    s.reds = [] ∧ s.damaged = [] ∧ s.mopFault 0 m = none ∧ s.walkSealed 0 tableRoot m.addr.toNat = false ∧
    ((segPas (s.mopSegs 0 m)).map Prod.fst).length = 8 ∧ s.checkRange (s.core 0).asid (s.core 0).root m.accNeed.2 m.addr.toNat m.len = none ∧
    Memory.wf s.mem = true := by decide +kernel
/-- An outstanding access of strand L. -/
def acc (kind : MopKind) (space : Nat) (addr : Word) (len : Nat) : MemOp :=
  { strand := .l, tok := 0, kind := kind, space := space, addr := addr, len := len, ord := 0, scope := 0, sent := 0,
    snap := (here .l id).snapshot }
/-- A state with that access alone outstanding. -/
def accHere (m : MemOp) : State := here .l fun c => { c with mops := [m] }
/-- What AccessEvents asks of every ordinary access, and of one in space 0. -/
def ordinary (m : MemOp) : Bool :=
  let s := accHere m
  s.mayPerform 0 m && decide ((s.core 0).nextOrdinary .l = some m) &&
  (m.space ≠ 0 || (s.checkRange (s.core 0).asid (s.core 0).root m.accNeed.2 m.addr.toNat m.len).isNone &&
    ((segLines (s.mopSegs 0 m)).all fun l => !s.sealed l) &&
    (((s.settleWalks 0 tableRoot m.addr.toNat m.len).mergeLines (segLines (s.mopSegs 0 m))).dataFault (s.mopLines 0 m)).isNone)
theorem witness_AccessEvents_ordinary :
    ordinary (acc (.load 1 true) 0 0x3FFFFFFF 1) = true ∧ ordinary (acc (.store [1]) 0 0 1) = true ∧
    ordinary (acc (.amo .cas 1 0 0) 0 0x3FFFFFF8 8) = true ∧ ordinary (acc (.load 1 false) 1 0x13FFF8 8) = true ∧
    ordinary (acc (.load 1 false) 3 (ctr 0 0 0) 8) = true ∧ (accHere (acc (.load 1 false) 3 (ctr 0 0 0) 8)).counterBad (ctr 0 0 0) = false ∧
    (accHere (acc (.load 1 false) 3 (ctr 0 0 0) 8)).counterDown (ctr 0 0 0) = false ∧
    (let s : State := { accHere (acc (.load 1 false) 3 (ctr 0 0 0) 8) with badCounters := [(ctr 0 0 0).toNat] }
     s.counterBad (ctr 0 0 0) = true) := by decide +kernel
theorem witness_AccessEvents_red :
    let m : MemOp := { acc (.red .add false 1) 0 8 4 with home := some (8, false, false) }
    (accHere m).mayPerform 0 m = true ∧ ((accHere m).core 0).mops[0]? = some m ∧ (accHere m).sealed (lineOf 8) = false := by decide +kernel
theorem witness_AccessEvents_own :
    ∀ m ∈ [acc (.load 1 false) 2 0 8, acc (.amo .add 1 0 0) 4 0 8, acc (.load 1 false) 4 8 8],
      (accHere m).mayPerform 0 m = true ∧ ((accHere m).core 0).mopOf .l 0 = some m ∧ m.module = (accHere m).hub.module := by
  decide +kernel
theorem witness_AccessEvents_other :
    ∀ m ∈ [acc (.load 1 false) 2 (BitVec.ofNat 64 (2 ^ 32)) 8, acc (.amo .add 1 0 0) 4 (BitVec.ofNat 64 (2 ^ 52)) 8,
        acc (.load 1 false) 4 (BitVec.ofNat 64 (2 ^ 52)) 8, acc (.load 1 false) 3 (ctr 4 0 1) 8],
      let s : State := { accHere m with hub := { (accHere m).hub with valid := true, rowmap := 2, colmap := 1 } }
      s.mayPerform 0 m = true ∧ (s.core 0).mopOf .l 0 = some m ∧ m.module = 1 ∧ m.module ≠ s.hub.module ∧
      s.hub.sends m.module = true ∧ (m.space = 3 → (s.core 0).seenOf m = 0) ∧ m.posted = false ∧ s.mayFail m .poison = true := by
  decide +kernel
/-- An access of a tile: what AccessEvents asks of it. -/
def tileAcc (m : MemOp) (t : TileEntry) : Bool :=
  let s := here .l fun c => { c with mops := [m], tiles := [(319, t)] }
  s.mayPerform 0 m && decide ((s.core 0).nextOrdinary .l = some m) && !(s.core 0).heldStore m
theorem witness_AccessEvents_tiles :
    ([acc (.load 1 true) 1 0x13FFFF 1, acc (.vld 0x40) 1 0x13FF80 128, acc (.mkld 7) 1 0x13FF80 128, acc (.store [7]) 1 0x13FFFF 1,
      acc (.vst (List.replicate 128 7)) 1 0x13FF80 128, acc (.tseal 319) 1 0x13F000 4096,
      acc (.tdrop 319) 1 0x13F000 4096].all fun m => tileAcc m { state := 2, pres := BitVec.allOnes 32 }) = true ∧
    ({ state := 2, pres := BitVec.allOnes 32 } : TileEntry).present 31 = true ∧ tileAcc (acc (.load 1 true) 1 0x13FFFF 1) {} = true ∧
    ({} : TileEntry).present 31 = false ∧ tileAcc (acc (.tseal 319) 1 0x13F000 4096) { state := 1 } = true ∧
    tileAcc (acc (.tdrop 319) 1 0x13F000 4096) {} = true ∧ (here .l id).here.padBad 10239 = false := by decide +kernel
/-- An access of this module's own windows, with its number set and its first page exported. -/
def ownAcc (m : MemOp) (t : TileEntry) : State :=
  let s := here .l fun c => { c with mops := [m], tiles := [(0, t)] }
  { s with hub := { s.hub with valid := true, exports := [(0, 0)], exportRoot := tableRoot } }
theorem witness_AccessEvents_targets :
    (∀ m ∈ [acc (.load 1 false) 2 0 8, acc (.store [7]) 2 0 1, acc (.load 1 false) 4 8 8, acc (.store [7]) 4 8 1,
        acc (.amo .cas 1 0 0) 4 8 8, acc (.red .add false 1) 4 8 4],
      let s := ownAcc m { state := 2, pres := 1 }
      s.mayPerform 0 m = true ∧ (s.core 0).mopOf .l 0 = some m ∧ m.module = s.hub.module ∧
      (m.space = 2 → s.dieDown (dieOf (sprCore m.addr)) = false ∧ s.bad2 m.addr = none ∧ s.refuses2 m.addr = false ∧
        ((s.core 0).tile 0).present 0 = true ∧ ((s.core 0).tile 0).state ≠ 3) ∧
      (m.space = 4 → s.podCheck m.addr m.accNeed.2 = .ok 8 ∧ s.podSealed 8 m.len = false ∧
        ((s.settleVa 0 tableRoot 8 m.len).dataFault ((s.settleVa 0 tableRoot 8 m.len).linesOf 0 tableRoot 8 m.len)).isNone = true)) ∧
    (let m := acc (.load 1 false) 2 0 8
     ((ownAcc m {}).core 0).mopOf .l 0 = some m ∧ (((ownAcc m {}).core 0).tile 0).present 0 = false ∧
     ((accHere m).bad2 m.addr).any (fun f => f.synd == XLATE) = true) ∧
    (let m := acc (.load 1 false) 4 8 8
     match (accHere m).podCheck m.addr m.accNeed.2 with
     | .error _ => true
     | .ok _ => false) = true := by decide +kernel
theorem witness_AccessEvents_posted :
    let m := acc (.store [1]) 4 0 1
    let s := accHere m
    s.mayPerform 0 m = true ∧ (s.core 0).mops[0]? = some m ∧ m.posted = true ∧ m.fabric = true ∧ m.module = s.hub.module ∧
    s.ownFailure m = some (remoteFault m (.xlate 0 false)) := by decide +kernel
/-- An arrival at core 0 of the last line of its scratchpad, refused since a time. -/
def arrival0 (r : Option Nat) : Arrival := ⟨0, some 0, 0, 0, 10239, List.replicate 128 0, [false], r, false, 0⟩
/-- A Welt command of core 0. -/
def welt0 (op : Nat) : WeltCmd := 
  { tok := 0, op := op, a := 0, b := 0, desc := BitVec.ofNat 64 (2 ^ 25 * 128), extra := 0, k := noCounter, segs := [⟨0, 4096, false⟩]
    dsegs := [⟨0, 4096, false⟩] }
theorem witness_LineEvents :
    (∀ b : Bool, let w : WriteBack := ⟨0, 1024 + 32 * 8, 128, [], false, b, 0, true⟩
      let s : State := { State.reset with wbs := [w] }
      s.wbs[0]? = some w ∧ s.inFlight 0 w = true ∧ s.hub.egress = false) ∧
    (let t : CacheLine := ⟨0, 128, 1⟩
      let s : State := { State.reset with cached := [t, ⟨0, 256, 2⟩] }
      t ∈ s.cached ∧ t.line = lineOf 130 ∧ s.evictable t = true) ∧
    (∀ r, (r = none ∨ r = some 0) → let s : State := { here .l fun c => { c with welt := [welt0 0x20] } with
        arrivals := [arrival0 r], now := 1000000 }
      s.arrivals[0]? = some (arrival0 r) ∧ (arrival0 r).module = s.hub.module ∧ s.dieDown (dieOf (arrival0 r).target) = false ∧
      s.isReady (coreUnit (arrival0 r).target) = true ∧ (arrival0 r).line / 32 < (s.core (arrival0 r).target).tileCount ∧
      s.sender (arrival0 r) = some (welt0 0x20) ∧ (arrival0 r).logged = false ∧ 0 + 1000000 ≤ s.now) := by
  refine ⟨fun b => by cases b <;> decide, by decide, ?_⟩
  rintro r (rfl | rfl) <;> decide +kernel
theorem witness_TrapEvents :
    (let s := here .v fun c => { c with imem := [(0, 0xFFFFFFFF)] }
     s.here.fetch s.cur.strand = 0xFFFFFFFF ∧ s.me.pc < 24576 ∧ decode (.strand s.cur.strand) 0xFFFFFFFF = .reserved) ∧
    24576 ≤ (here .q fun c => { c with q := { c.q with pc := 24576 } }).me.pc ∧
    (let t : EngineTrap := ⟨.m, OPND, 0, 0, 0⟩
     let s := here .m fun k => { k with traps := [t] }
     s.nextEngineTrap 0 = some t ∧ (s.core 0).frozen = none) ∧
    (let k : Core := { busy with
       q := { running := true, join := some ⟨0, [.pop .v], [.v], []⟩ }
       v := { running := true, join := some ⟨0, [.other], [], [.q]⟩ }, m := {}, l := {} }
     k.deadlocked = true ∧ k.participants = [.q, .v]) := by decide +kernel
theorem witness_ResultEvents :
    (let k : Core := { busy with fixed := [⟨.q, 0, .x 1 1, 0, false⟩] }
     k.fixed = ⟨.q, 0, .x 1 1, 0, false⟩ :: [] ∧ 0 ≤ k.cycle) ∧
    (let v : VarResult := ⟨.m, 0, [.x 1 1], true⟩
     let k : Core := { busy with vars := [v] }
     k.varOf .m 0 = some v ∧ v.known = true ∧ k.fixed = []) ∧
    (let v : VarResult := ⟨.q, 0, [], true⟩
     let k : Core := { busy with vars := [v] }
     k.varOf .q 0 = some v ∧ v.known = true ∧ v.res = [] ∧ State.reset.wbs.all (fun w => w.src ≠ 0) = true) ∧
    (let k : Core := { busy with demands := [(2, List.replicate 31 0)], demandNet := [(2, [7])] }
     sget [] k.demandNet StrandId.m.index = 7 :: [] ∧ (sget [] k.demands StrandId.m.index).length < 32) ∧
    (∀ x ∈ [2, 3], let k : Core := { busy with frozen := some (.q, 5, x) }
     k.frozen = some (.q, 5, x) ∧ k.acted = false ∧ (x < 3 ∨ 3 ≤ x)) := by decide +kernel
theorem witness_CounterEvents :
    (let d : Add := ⟨ctr 0 0 0, 1, some (0, .q, 0), none, 0, .port 0⟩
     let s : State := { here .q id with adds := [d] }
     s.adds[0]? = some d ∧ s.addReady d = true ∧ s.addNext 0 d = true ∧ s.counterDown d.handle = false ∧ hModule d.handle = s.hub.module ∧ handleOk d.handle = true ∧
     ({ s with hub := { s.hub with valid := true } } : State).hub.valid = true) ∧
    (let d : Add := ⟨ctr 4 0 1, 1, some (0, .q, 0), some 2, 0, .port 0⟩
     let s : State := { here .q id with adds := [d], hub := { (here .q id).hub with valid := true, rowmap := 2, colmap := 1 } }
     s.adds[0]? = some d ∧ s.addReady d = true ∧ s.addNext 0 d = true ∧ s.counterDown d.handle = false ∧ hModule d.handle ≠ s.hub.module ∧ s.hub.sends (hModule d.handle) = true) ∧
    (∀ b : Bool, let t := here .q fun c => { c with q := { c.q with block := .remote (ctr 4 0 1) 5 b 0 [] } }
     let s : State := { t with hub := { t.hub with valid := true, rowmap := 2, colmap := 1 } }
     s.hub.sends (hModule (ctr 4 0 1)) = true ∧
     ((s.core 0).strand .q).block = .remote (ctr 4 0 1) 5 b 0 [] ∧ (5 : Word) ≤ 5) := by
  refine ⟨by decide +kernel, by decide +kernel, ?_⟩
  intro b; cases b <;> decide +kernel
/-- A core in cycle 1 whose array queue holds an entry, with a plane in a state. -/
def queued (op : ArrOp) (plane : Nat) (started : Bool) (beat fails : Nat) : Core :=
  { busy with cycle := 1, w0 := { state := plane }, arr := [{ tok := 0, op := op, started := started, beat := beat, fails := fails }] }
theorem witness_MultiplyEvents_start :
    (∀ p ∈ [0, 2], let k := queued (.wld 3 0 (.tile 319)) p false 0 0
      k.startable 0 = some ({ tok := 0, op := .wld 3 0 (.tile 319) }, []) ∧ (k.plane 0).state = p) ∧
    (∀ p ∈ [2, 3], let k := queued (.mma 3 3 0 {} true (.tile 0)) p false 0 0
      k.startable 0 = some ({ tok := 0, op := .mma 3 3 0 {} true (.tile 0) }, []) ∧ (k.plane 0).state = p) ∧
    (queued (.mzero 3) 0 false 0 0).startable 0 = some ({ tok := 0, op := .mzero 3 }, []) ∧
    (queued (.mpbld [1]) 0 false 0 0).startable 0 = some ({ tok := 0, op := .mpbld [1] }, []) ∧
    (queued (.lutld [1]) 0 false 0 0).startable 0 = some ({ tok := 0, op := .lutld [1] }, []) := by decide +kernel
/-- Every line of an operand that an entry without lines wants has arrived. -/
theorem all_arrived (e : ArrEntry) (b : List Byte) (h : e.lines = []) :
    ({ e with lines := e.wanted.map fun n => (n, b) } : ArrEntry).wanted = [] := by
  have hl : ∀ l : List Nat, ∀ n ∈ l, (slook (l.map fun n => (n, b)) n).isNone = false := by
    intro l
    induction l with
    | nil => intro n hn; nomatch hn
    | cons a l ih =>
      intro n hn
      by_cases hne : a = n
      · simp [slook, hne]
      · simpa [slook, hne] using ih n ((List.mem_cons.1 hn).resolve_left fun h => hne h.symm)
  have hw : e.wanted = (e.needs.map (· / 128)).eraseDups := by
    rw [ArrEntry.wanted, h]
    exact List.filter_eq_self.2 fun _ _ => rfl
  exact List.filter_eq_nil_iff.2 fun n hn => by
    rw [hl e.wanted n (hw ▸ hn)]
    exact Bool.false_ne_true
theorem witness_MultiplyEvents_load :
    (let e : ArrEntry := { tok := 0, op := .wld 0 0 (.tile 0), started := true }
     (queued e.op 1 true 0 0).moving 0 = some (e, []) ∧ e.wanted = []) ∧
    (let e : ArrEntry := { tok := 0, op := .wld 0 0 (.handle 0x80), started := true, segs := [⟨0, 65536, false⟩] }
     let k := { queued e.op 1 true 0 0 with arr := [e] }
     k.moving 0 = some (e, []) ∧ e.wanted ≠ [] ∧
     ({ e with lines := e.wanted.map fun n => (n, List.replicate 128 0) } : ArrEntry).wanted = []) :=
  ⟨by decide +kernel, rfl, List.ne_nil_of_mem (a := 0) (List.mem_filter.2
    ⟨List.mem_eraseDups.2 (List.mem_map.2 ⟨0, List.mem_range.2 (by decide), rfl⟩), rfl⟩), all_arrived _ _ rfl⟩
theorem witness_MultiplyEvents_move :
    (let op : ArrOp := .mma 0 0 0 {} false (.tile 0)
     let e : ArrEntry := { tok := 0, op := op, started := true, beat := 128 }
     (queued op 3 true 128 0).moving 0 = some (e, [])) ∧
    (∀ f ∈ [1, 2], let op : ArrOp := .mma 0 0 0 {} false (.tile 0)
     let e : ArrEntry := { tok := 0, op := op, started := true, beat := 127, fails := f }
     let k := queued op 3 true 127 f
     k.moving 0 = some (e, []) ∧ k.run.isNone = true ∧ k.unstopped = true ∧ e.wanted = [] ∧ e.nextLines = [] ∧ k.acted = false ∧
     (f < 2 ∨ 2 ≤ f)) := by decide +kernel
/-- A drain that has written all its lines has none due. -/
theorem all_written (e : ArrEntry) (f : Nat) (h : e.wrote = List.range (drainLines f)) : e.linesDue f = [] := by
  simp +contextual [ArrEntry.linesDue, h]
theorem witness_DrainEvents :
    (let op : ArrOp := .mdrain 3 0 {} 0
     let k := queued op 0 false 0 0
     k.startable 0 = some ({ tok := 0, op := op }, []) ∧ ((tilesFrom 0 (drainTiles 0)).all fun x => (k.tile x).state == 0) = true ∧
     k.sbReady 0 = true) ∧
    (let op : ArrOp := .mdrain 3 0 {} (BitVec.ofNat 64 1)
     let e : ArrEntry := { tok := 0, op := op, started := true, beat := 127, wrote := List.range (drainLines 1) }
     { queued op 0 true 127 0 with arr := [e] }.moving 0 = some (e, []) ∧ e.linesDue 1 = []) ∧
    (let op : ArrOp := .mdrain 3 0 {} 0
     let e : ArrEntry := { tok := 0, op := op, started := true, beat := 128 }
     let k := { queued op 0 true 128 0 with tiles := [(0, { state := 1 })] }
     k.moving 0 = some (e, []) ∧ 0 ∈ e.linesDue 0 ∧ 0 < drainLines 0 ∧ e.wrote.contains 0 = false ∧
     (k.arrive 0 [(drainLine 0 0 fun r => k.drainRow 0 {} [] r (sget [] e.image r), false)]).isSome = true) ∧
    (let op : ArrOp := .mdrain 3 0 {} 0
     let e : ArrEntry := { tok := 0, op := op, started := true, beat := 128, wrote := List.range (drainLines 0) }
     { queued op 0 true 128 0 with arr := [e] }.moving 0 = some (e, []) ∧ e.linesDue 0 = []) :=
  ⟨by decide +kernel, ⟨rfl, all_written _ _ rfl⟩,
    ⟨by decide, List.mem_filter.2 ⟨List.mem_range.2 (by decide), by decide +kernel⟩, by decide, by decide, rfl⟩, rfl, all_written _ _ rfl⟩
theorem witness_DrainEvents_timeout :
    let op : ArrOp := .mma 0 0 0 {} false (.handle 0)
    let e : ArrEntry := { tok := 0, op := op, started := true, beat := 127, segs := [⟨0, 65536, false⟩] }
    let k := { queued op 3 true 127 0 with arr := [e] }
    let s : State := { here .m fun _ => k with poison := (List.range 512).map (128 * ·) }
    k.moving 0 = some (e, []) ∧ e.handle? = some 0 ∧ e.beat < 128 ∧ s.handleModule 0 = s.hub.module ∧
    (s.failedLine e 0 0).isSome = true := by decide +kernel
theorem witness_TreadleEvents_start :
    let e : ArrEntry := { tok := 0, op := .trgo tcbBytes [] 8 4 }
    let k : Core := { busy with cycle := 1, arr := [e], w0 := { state := 2 } }
    k.startable 0 = some (e, []) ∧ k.planesLoaded tcbBytes = true := by decide +kernel
/-- A core with a run and the state of the tiles that its beats read. -/
def running (r : Run) (st : Nat) : Core := { busy with run := some r, tiles := (List.range 320).map fun i => (i, { state := st }) }
theorem witness_TreadleEvents_beat :
    (running run0 2).arrayRuns = true ∧ run0.due ≤ (running run0 2).cycle ∧ run0.g < run0.beats ∧
    (running run0 2).beatWaits run0 0 = none ∧ (running run0 2).beatPoison run0 0 = none ∧
    (({ running run0 2 with padPoison := List.range 10240 } : Core).beatPoison run0 0).isSome = true := by decide +kernel
theorem witness_TreadleEvents_wait :
    (let r := { run0 with tcb := tcbBytes.set 6 1 }
     ((running r 0).beatWaits r 0).isSome = true ∧ bitOf (num r.tcb 6 1) 0 = true) ∧
    ((running run0 0).beatWaits run0 0).isSome = true ∧ bitOf (num run0.tcb 6 1) 0 = false ∧
    (let r := { run0 with g := run0.beats }
     r.beats ≤ r.g ∧ ((running r 0).retryLines r).2.slots = []) := by decide +kernel
theorem witness_WeltEvents_lines :
    (let s := here .l fun c => { c with welt := [welt0 0x23] }
     let w := welt0 0x23
     (s.core 0).welt[0]? = some w ∧ 0 < w.units ∧ w.done.contains 0 = false ∧ w.sent.contains 0 = false ∧
     (slook w.held 0).isNone = true ∧ (s.core 0).weltMayRead w = true) ∧
    (let w := { welt0 0x23 with held := [(0, (List.replicate 128 0, false))] }
     let s := here .l fun c => { c with welt := [w] }
     (s.core 0).welt[0]? = some w ∧ w.toTiles = false ∧ w.op ≠ 0x24 ∧ slook w.held 0 = some (List.replicate 128 0, false) ∧
     s.globalModule w w.target = s.hub.module ∧ w.matrix = false ∧ s.dieDown (homeOf (segPa w.dsegs (w.extent 0).1)) = false ∧
     s.sealed (lineOf (segPa w.dsegs (w.extent 0).1)) = false) := by
  decide +kernel
theorem witness_WeltEvents_ends :
    (let w := { welt0 0x23 with done := [0] }
     w.units ≤ w.done.length ∧ w.op ≠ 0x24 ∧ w.op ≠ 0x25) ∧
    (let w := { welt0 0x25 with done := List.range 200, extra := 0x81090280, desc := 0x808001 }
     let k : Core := { busy with welt := [w], tiles := (List.range 320).map fun i => (i, { state := 2 }), w0 := { issueTag := some 0 } }
     let t := followTile w.extra
     k.welt[0]? = some w ∧ w.units ≤ w.done.length ∧ (k.plane (field w.extra 18 1)).issueTag = some (followFmt w.extra) ∧
     (k.firstBad (32 * t) (32 * groupTiles (followFmt w.extra) 128)).isNone = true ∧ k.arr.length < 8 ∧
     k.maskBusy (field w.extra 15 3) = false ∧ w.follow.isNone = true ∧ k.allFull (tilesFrom t (groupTiles (followFmt w.extra) 128)) = true) ∧
    (let w := { welt0 0x24 with held := [(0, (List.replicate 128 0, false))] }
     let s := here .l fun c => { c with welt := [w] }
     w.units ≤ w.held.length ∧ s.globalModule w w.a = s.hub.module ∧ s.dieDown (homeOf (segPa w.dsegs 0)) = false ∧
     (s.commit w).1 = 1 ∧ (s.commit { w with extra := 7 }).1 = 2 ^ 32) := by decide +kernel
/-- A collective of this module alone, or of two modules. -/
def coll0 (ms : List Nat) (b : Bool) : Coll := ⟨0, 0, 255, BitVec.ofNat 64 (2 ^ 22 * 128), noCounter, [⟨0, 128, false⟩], ms, b, 0⟩
theorem witness_EngineEvents_coll :
    (∀ b : Bool, let s : State := { here .l id with colls := [coll0 [0] b] }
      s.oldestColl 0 = some (coll0 [0] b) ∧ s.allReached (coll0 [0] b) = true) ∧ 1 < (coll0 [0, 1] false).members.length ∧
    (let s : State := { here .l id with colls := [coll0 [0] true] }
     let x := coll0 [0] true
     s.collPoisoned x [0] = false ∧ x.supplied 0 [] = true ∧ (coll0 [0, 1] true).supplied 0 [] = false) ∧
    (let s : State := { here .l id with colls := [coll0 [0, 1] false], now := 100000000 }
     s.collReleased (coll0 [0, 1] false) = true ∧ s.allReached (coll0 [0, 1] false) = false ∧
     (coll0 [0, 1] false).members.any s.hub.absent = true ∧ s.late 0 = true) := by
  refine ⟨fun b => ?_, by decide, by decide +kernel, by decide +kernel⟩
  cases b <;> decide +kernel
theorem witness_EngineEvents_overlay :
    let o : OvlLoad := ⟨0, 1, 0x1000, 24572, 4, [⟨0x80040001000, 16, false⟩], [], 0, (here .q id).snapshot⟩
    let s := here .q fun c => { c with ovl := [o] }
    (s.core 0).ovl = o :: [] ∧ s.badLines ((segLines o.segs).map fun l => (o.src, l)) = false ∧
    ({ s with poison := [0x80040001000] } : State).ovlFault 0 o = true := by decide +kernel
theorem witness_EngineEvents_withdrawal :
    ∀ m ∈ [acc (.store [1]) 4 (BitVec.ofNat 64 (65 * 2 ^ 52)) 1, acc (.load 1 false) 3 (ctr 4 0 1) 8],
      let s : State := { accHere m with now := 100000 }
      (s.core 0).mops[0]? = some m ∧ 2 ≤ m.space ∧ m.module ≠ s.hub.module ∧ (m.space = 3 ∨ s.hub.absent m.module = false) ∧
      s.late m.sent = true ∧ s.mayPerform 0 m = true ∧ m.orphan = false ∧
      (m.posted = true ∨ (s.core 0).retires m = true) := by decide +kernel
/-- The page table of `here`, and cells by their virtual address in it. -/
def at0 (l : List Host.Cell) : List Host.Cell := table ++ l.map fun c => (0x80040000000 + c.1, c.2)
/-- A context command of core 0 with an L opcode and a block. -/
def cmd0 (op : Nat) (block : List Byte) : CtxCmd :=
  { id := 1, core := 0, tok := 0, op := op, ctx := 7, seq := 0, set := [8], lin := {}, recVa := 0, blockVa := 0, block := block,
    xc := 0, k := noCounter, child := [], pending := [8] }
/-- A block for context 7's layer 0, group 0: HDIM 16, HEADS 1, COUNT 1. -/
def block0 : List Byte := [0, 0, 0, 0, 16, 0, 1, 0, 1] ++ List.replicate 55 0
/-- An entry of that command at T-die 8. -/
def entry0 (op : Nat) : TEntry := { cmd := 1, ctx := 7, seq := 0, op := op, lin := {}, since := 0 }
/-- Context 7 at T-die 8, with groups. -/
def ctx7 (gs : List KvGroup) : CtxEntry := ⟨7, {}, [8], 0, gs⟩
/-- A module with the command `k` and T-die 8 as given. -/
def atTdie (k : CtxCmd) (t : TDie) : State := { here .l id with cmds := [k], tdies := [(8, t)] }
theorem witness_ContextEvents_arrival :
    (let s (r : Bool) : State := { atTdie (cmd0 0x2D block0) {} with ctxMsgs := [⟨1, 8, r⟩] }
     [true, false].all (fun r => (s r).ctxMsgs[0]? == some ⟨1, 8, r⟩ && (s r).cmdOf 1 == some (cmd0 0x2D block0) &&
       ((s r).loadSource (cmd0 0x2D block0)).isSome && (s r).inOrder 0 ⟨1, 8, r⟩ 0) = true) ∧
    (let s : State := { atTdie (cmd0 0x2B block0) {} with ctxMsgs := [⟨1, 8, false⟩] }
     s.ctxMsgs[0]? = some ⟨1, 8, false⟩ ∧ s.cmdOf 1 = some (cmd0 0x2B block0) ∧ s.inOrder 0 ⟨1, 8, false⟩ 0 = true ∧
     s.isReady (ccuUnit 8) = true ∧ ({ s with hub := {} } : State).isReady (ccuUnit 8) = false) := by decide +kernel
theorem witness_ContextEvents_run :
    ([0, 0x28, 0x2A, 0x2C, 0x2D].all fun op =>
      let t : TDie := { ctxs := [(7, ctx7 [])], entries := [entry0 op] }
      let s := atTdie (cmd0 op block0) t
      s.linked 8 && t.reached (entry0 op) && t.mayStart (entry0 op) && !t.foreign 8 (entry0 op) (cmd0 op block0) && (s.entryOf 8 0 == some (entry0 op, cmd0 op block0)) &&
      (slook t.ctxs 7 == some (ctx7 []))) = true := by decide +kernel
theorem witness_ContextEvents_fork :
    (let t : TDie := { ctxs := [(7, ctx7 [])], entries := [entry0 0x2A] }
     let lin := childLineage {} 0
     coveredBy [lin] lin = true ∧ coveredBy t.prefixes lin = false ∧ slook t.ctxs (num block0 0x2C 3) = none ∧
     t.roomy = true ∧ slook ({ t with ctxs := [(0, ctx7 []), (7, ctx7 [])] } : TDie).ctxs (num block0 0x2C 3) ≠ none) := by
  decide +kernel
theorem witness_ContextEvents_migrate :
    let g : KvGroup := ⟨0, 0, 1, 16, 4096, [(1, 5)]⟩
    let c := ctx7 [g]
    c.find 0 0 = some g ∧ (ctx7 []).find 0 0 = none ∧ cbCount block0 < pageCount g.n (pageTokens g.heads g.hdim) ∧
    slook g.table (cbCount block0) = some 5 ∧
    (∀ m ∈ [0, 1], slook ({ descs := [(5, ⟨some 0, m, 0, false, 1⟩)] } : TDie).descs 5 = some ⟨some 0, m, 0, false, 1⟩) := by
  decide +kernel
theorem witness_ContextEvents_end :
    (let k := { cmd0 0x29 block0 with pending := [], partials := [(8, [[0, 0, 0]])] }
     let s := atTdie k {}
     s.cmds[0]? = some k ∧ k.results = true ∧ k.merged = false ∧ s.isReady (.cinch (Fin.ofNat 8 (dieOf k.core))) = true ∧
     ({ k with merged := true } : CtxCmd).kpending = [] ∧ s.arrivals = []) ∧
    (let k := { cmd0 0x2A block0 with pending := [] }
     k.results = false ∧ k.add = some 1 ∧ ({ k with noAdd := true } : CtxCmd).add = none) := by decide +kernel
theorem witness_QueryEvents :
    (let t : TDie := { ctxs := [(7, ctx7 [])], entries := [entry0 0x29] }
     let s := atTdie (cmd0 0x29 block0) t
     s.entryOf 8 0 = some (entry0 0x29, cmd0 0x29 block0) ∧ t.mayStart (entry0 0x29) = true ∧ (ctx7 []).find 0 0 = none ∧
     (let e := { entry0 0x29 with started := true }
      ({ s with tdies := [(8, { t with entries := [e] })] } : State).entryOf 8 0 = some (e, cmd0 0x29 block0))) ∧
    (∀ w ∈ [0, 1], ∀ c ∈ [0, 3],
     let e := { entry0 0x29 with started := true, running := true, conflicts := c, rsig := 1, wsig := BitVec.ofNat 512 w }
     (e.rsig &&& e.wsig = 0 ↔ w = 0) ∧ (e.holding = false ↔ c = 0)) ∧
    (∀ q ∈ [0, 1], let e := { entry0 0x28 with seq := q, held := true }
     let s : State := { atTdie (cmd0 0x28 block0) { entries := [e] } with now := 1000001 }
     s.entryOf 8 0 = some (e, cmd0 0x28 block0) ∧ e.since + 1000000 < s.now ∧ e.logged = false) ∧
    (let x := { entry0 0x29 with running := true, waits := [(128, 0, false)] }
     let s : State := { atTdie (cmd0 0x29 block0) { entries := [x] } with now := 100001 }
     let late := fun (w : Nat × Nat × Bool) => !w.2.2 && decide (w.2.1 + 100000 < s.now)
     ((s.tdie 8).entries.find? fun y => y.running && y.waits.any late) = some x ∧ x.waits.find? late = some (128, 0, false)) ∧
    tdieOk [] 15 = true ∧ tdieOk [21] 21 = true ∧ (16 ≤ 1024 ∧ 1024 % 16 = 0) := by decide +kernel
/-- A run waiting for slot 255. -/
def run255 (entry gen : Nat) : AwlReq := ⟨0, 255, gen, entry, 0, noCounter, 0, tableRoot, none⟩
/-- The Awl of K-die 0 with that run first in the graph engine's queue. -/
def atAwl (q : AwlReq) (x : AwlSlot) : State :=
  { here .l id with kdies := [(0, { awl := { hold := false, graphq := [q], slots := [(255, x)] } })] }
/-- A read gives an admission record of `n` candidate blocks. -/
def admits (n : Nat) : Except (Nat × Word) (List Byte) → Bool
  | .ok b => !admissionBad b && num b 32 1 == n
  | .error _ => false
theorem witness_AwlEvents :
    ([8191, 8192, 0xFFFD, 0xFFFE, 0xFFFF].all fun e => [0, 1].all fun g => [true, false].all fun o =>
      (atAwl (run255 e g) { occ := o, gen := 1 }).startable 0 256 == some (run255 e g)) = true ∧
    (let s := atAwl (run255 0xFFFF 0) {}
     let a (n : Nat) : State := { s with mem := at0 [(32, BitVec.ofNat 8 n)] }
     awlPlace 256 = (256, 0) ∧
     (∀ n ∈ [1, 8], admits n ((a n).awlRead ⟨run255 0xFFFF 0, none, 0xFFFF⟩ 0 64).2 = true)) ∧
    (here .l id).hostReach = true ∧ ({} : Awl).hold = true ∧ ({} : Awl).runs = [] ∧ (8191 < 8192 ∧ ¬ 8192 < 8192) := by decide +kernel
/-- A graph node ADD of 1 to counter 0 whose WAITH is `w`. -/
def node0 (w : Nat) : List Byte := [5, 0, 0, 0, 0, 0, 0, 0] ++ bytesOf 8 w ++ List.replicate 24 0 ++ [1] ++ List.replicate 23 0
/-- A replay of that node. -/
def replay0 (w : Nat) : Replay := { gen := 1, recVa := 0, done := noCounter, nodes := [node0 w], snapshot := [] }
/-- A module with replays. -/
def graphed (rs : List Replay) : State :=
  let s := here .l id
  { s with hub := { s.hub with graph := { replays := rs, root := tableRoot } } }
theorem witness_GraphEvents_latch :
    (graphed []).hostReach = true ∧ (graphed []).isReady graphUnit = true ∧ ((graphed []).readGraph 0).synd ≠ 0 ∧
    (let s : State := { graphed [] with mem := at0 [(0, 0x46), (1, 0x41), (2, 0x52), (3, 0x47), (4, 1), (64, 5), (104, 1)] }
     (s.readGraph 0).synd = 0) ∧ 2 ≤ (graphed [replay0 0, replay0 0]).hub.graph.replays.length := by decide +kernel
/-- A node is refused with status 1. -/
def isRefused : NodeEnd → Bool
  | .refused => true
  | _ => false
theorem witness_GraphEvents_node :
    (let s := graphed [replay0 0]
     s.hub.graph.current = some (replay0 0, node0 0) ∧ (replay0 0).refused = none ∧ s.nodeReady (node0 0) = true) ∧
    (let n : List Byte := [2, 0, 0, 0] ++ List.replicate 60 0
     let r := { replay0 0 with nodes := [n], refused := some 0 }
     let s := graphed [r]
     let full : State := { s with now := 1000000, kdies := [(0, { heap := List.replicate 16384 ⟨0, 0, 0, {}, 0, 0, false⟩ })]
                                  hub := { s.hub with ready := .heap 0 :: s.hub.ready } }
     s.hub.graph.current = some (r, n) ∧ full.hub.graph.current = some (r, n) ∧ 0 + 1000000 ≤ full.now ∧
     isRefused (full.dispatchNode r n).1 = true) ∧
    (let r := { replay0 0 with refused := some 0 }
     let s := graphed [r]
     s.hub.graph.current = some (r, node0 0) ∧ isRefused (s.dispatchNode r (node0 0)).1 = false) := by decide +kernel
theorem witness_GraphEvents_wait :
    (let n : List Byte := [5, 0, 0, 0, 0, 0, 0, 0] ++ bytesOf 8 8 ++ bytesOf 8 1 ++ List.replicate 40 0
     let r := { replay0 0 with nodes := [n] }
     let s : State := { graphed [r] with now := 100000000 }
     s.hub.graph.current = some (r, n) ∧ s.nodeUnmet n = true ∧ s.nodeReady n = false ∧ 0 + 100000000 ≤ s.now) ∧
    (let r := { replay0 0 with next := 1, openRuns := [0], openCmds := [1] }
     let s := graphed [r]
     s.hub.graph.replays[0]? = some r ∧ r.busy = false ∧ s.runOpen 0 = false ∧ s.cmdOf 1 = none ∧ s.adds = []) := by decide +kernel
/-- A stopped core. -/
def stopped0 (w : Work) : Core := { work := w, loaded := true }
/-- A module with core 0 and K-die 0. -/
def withCore (k : Core) (d : KDie) : State := { here .q (fun _ => k) with kdies := [(0, d)] }
/-- A loop-nest record of core 0 with one iteration. -/
def rec0 (cores flags : Nat) : NestRec := ⟨0, BitVec.ofNat 64 cores, 0, 0, [0, 1, 2, 3], List.replicate 4 (0, 1, 1), noCounter, 0, flags, {}, 0, 0, 1, 0, [], [], [], 0, false, false⟩
theorem witness_LaunchEvents_mailbox :
    (withCore {} {}).hostReach = true ∧ (withCore {} {}).isReady (coreUnit (1 : CoreIx)) = false ∧ (Work.iteration 0 0).ofWalker = true ∧
    (withCore {} {}).isReady (coreUnit (0 : CoreIx)) = true ∧ ({} : Core).loading = false ∧ ({} : Core).work.ofWalker = false ∧
    ({} : Mailbox).state ≠ 1 ∧ ({} : Mailbox).state ≠ 2 ∧
    (let k : Core := { loading := true, mbox := { latchedImage := 0x1000, state := 1 } }
     let s := withCore k {}
     let m : State := { s with mem := at0 [(0x1000, 0x41), (0x1001, 0x4B), (0x1002, 0x49), (0x1003, 0x4D), (0x1004, 1), (0x1008, 1)] }
     s.drained 0 = true ∧ k.work.ofWalker = false ∧ (s.readImage 0 tableRoot 0x1000).synd ≠ 0 ∧ (m.readImage 0 tableRoot 0x1000).synd = 0) := by decide +kernel
theorem witness_LaunchEvents_end :
    (∀ w ∈ [Work.launch, .iteration 0 0], let k := stopped0 w
     let s := withCore k {}
     (s.core 0).work = w ∧ k.leftOver = none ∧ k.lost = none ∧ k.settledMops = true ∧
     s.drained 0 = true ∧ (s.setCore 0 k.dropStuck).drained 0 = true ∧ (allStrands.all fun n => !(k.strand n).running) = true ∧
     ({ k with deferred := [(7, some ⟨LDOWN, 0, 0⟩)] } : Core).leftOver = some LDOWN) ∧
    (let s := withCore (stopped0 .idle) { recs := [rec0 1 0] }
     s.firstServed 0 = true ∧ s.search 0 = some (rec0 1 0, false)) := by decide +kernel
theorem witness_ScheduleEvents_preempt :
    (let d : KDie := { recs := [rec0 1 3, { rec0 1 0 with id := 1, next := 1, running := [(0, 0)] }] }
     let s := withCore { busy with work := .iteration 1 0 } d
     (s.kdie 0).recs[0]? = some (rec0 1 3) ∧ coveredBy d.prefixes (rec0 1 3).lin = false ∧ (rec0 1 3).next < (rec0 1 3).total ∧
     s.isFree 0 = false ∧ d.areas.length < 64 ∧ ((List.range 64).all fun j => ((s.core (64 * 0 + j)).preq).isNone) = true ∧ s.isReady (.nest 0) = true ∧
     ((((List.range 64).filter fun j => bitOf (rec0 1 3).cores.toNat j).map fun j => 64 * 0 + j).foldl (s.lowerOf 3) none) = some 0) ∧
    (let k : Core := { busy with work := .iteration 1 0, preq := some ⟨0, 0, false⟩ }
     let s := withCore k { areas := List.range 63 }
     k.allStopped = false ∧ k.acted = false ∧ k.lost = none ∧ k.frozen = none ∧ s.nextEngineTrap 0 = none ∧ k.deadlocked = false ∧
     (s.kdie 0).areas.length < 64 ∧ ((List.range 64).find? fun a => !(s.kdie 0).areas.contains a) = some 63) := by decide +kernel
theorem witness_ScheduleEvents_save :
    (let k : Core := { busy with work := .saving 0 0 63 }
     let d : KDie := { recs := [rec0 1 0], areas := [63] }
     let s := withCore k d
     s.saveSettled 0 = true ∧ d.rec? 0 = some (rec0 1 0) ∧ coveredBy [] k.lineage = false ∧
     coveredBy [{}] k.lineage = true) ∧
    (let it : SavedIter := ⟨0, 63, busy, [], []⟩
     let r := { rec0 1 0 with saved := [it], next := 1 }
     let s := withCore (stopped0 .idle) { recs := [r], areas := [63] }
     s.firstServed 0 = true ∧ s.search 0 = some (r, true) ∧ r.firstSaved = some it) := by decide +kernel
theorem witness_ScheduleEvents_cancel :
    (∀ w ∈ [Work.iteration 0 0, .restoring 0 0 63], let s := withCore { busy with work := w } { cancels := [⟨1, {}⟩] }
     (s.core 0).work = w ∧ (s.core 0).acted = false ∧ (s.kdie 0).cancels[0]? = some ⟨1, {}⟩ ∧ s.matched 0 {} = true) ∧
    (let s := withCore busy { cancels := [⟨1, {}⟩] }
     (s.kdie 0).cancels[0]? = some ⟨1, {}⟩ ∧ ((List.range 64).all fun x => !s.matched (64 * 0 + x) {}) = true) ∧
    (let s : State := { atTdie (cmd0 0x2B block0) {} with ctxMsgs := [⟨1, 0, false⟩] }
     s.ctxMsgs[0]? = some ⟨1, 0, false⟩ ∧ s.cmdOf 1 = some (cmd0 0x2B block0) ∧ s.inOrder 0 ⟨1, 0, false⟩ 0 = true) := by
  decide +kernel
/-- A module with a boot block. -/
def booted (b : Boot) : State := { State.reset with hub := { boot := b } }
/-- One reason for which an image without its magic number fails. -/
theorem no_magic (room : Nat) : 1 ∈ verifyReasons room [] := by
  simp [verifyReasons, num, ofBytes]
theorem witness_BootEvents :
    State.reset.powered = true ∧ State.reset.hub.boot.img = 0 ∧ (booted { img := 1 }).hub.boot.img = 1 ∧
    (booted { img := 3 }).hostReach = true ∧ (booted { img := 4 }).hub.boot.blen = 0 ∧
    State.reset.isReady (.tele 0) = false ∧ (here .q id).isReady (.tele 0) = true := by decide
theorem witness_BootEvents_wrong (room : Nat) : verifyReasons room [] ≠ [] := by
  intro h
  have := no_magic room
  rw [h] at this
  cases this
theorem witness_FirmwareRequests :
    (∀ i ∈ [0, 2, 5], (booted { img := i, fgo := true }).hub.boot.fgo = true) ∧
    (∀ f ∈ [1, 2, 3, 4, 5, 6], field ({ fcmd := BitVec.ofNat 64 f } : Boot).fcmd 0 16 = f) ∧
    (field ({ fcmd := 0xFFFF } : Boot).fcmd 0 16 > 6 ∧ field ({ fcmd := 0x10000 } : Boot).fcmd 0 16 = 0) := by decide
theorem witness_PlatformEvents :
    (booted { img := 2 }).mayReady (.core 7 63) = true ∧ (booted { img := 5 }).isReady (.core 7 63) = false ∧
    (let s : State := { booted { img := 2 } with hub := { (booted { img := 2 }).hub with
       islands := (List.range 26).map fun i => (i, ⟨600, 690, false, false⟩), expanders := [21] } }
     s.lowers (dieIslands 15) [(599, 690)] = true ∧ tdieOk s.hub.expanders 15 = true ∧ (16 ≤ 1008 ∧ 1008 % 16 = 0 ∧ 1008 < (s.tdie 15).actlim) ∧
     s.lowers (dieIslands 0) [(600, 689), (599, 690)] = true ∧ tdieOk s.hub.expanders 0 = false) ∧
    (0 < (nominal 23).1 ∧ 0 < 600 ∧ 600 ≤ (nominal 23).1 ∧ 0 ≤ trimmed 23 ∧
     (true || false) = decide (600 < (nominal 23).1 ∨ 0 < trimmed 23)) ∧
    (∀ t ∈ [999999999, 1000000000], ({ State.reset with now := t } : State).hub.sampled + 1000000 ≤ t) := by
  refine ⟨by decide, by decide, by decide +kernel, ⟨by decide, by decide, by decide, Nat.zero_le _, by decide⟩, by decide⟩
/-- A module with link modules ready. -/
def linked (us : List UnitId) : State := { State.reset with hub := { valid := true, expanders := [21], ready := us } }
theorem witness_LinkEvents_flits :
    (let s : State := { linked [.link 0 0, .link 8 0] with msgs := [⟨1, 8, 0, 0, 5, 0, 0⟩] }
     s.msgs[0]? = some ⟨1, 8, 0, 0, 5, 0, 0⟩ ∧ linkTo 0 8 = some 0 ∧ s.linkOpen 0 0 = true ∧ s.roomy 0 0 = true) ∧
    (let s := linked [.link 16 0, .link 0 10, .link 17 0, .link 0 11]
     s.routes 16 17 = [0] ∧ s.routes 17 16 = [0] ∧ s.hub.valid = true ∧ s.hub.egress = false) ∧
    (∀ r ∈ [3, 4], let u := linked [.link 0 0, .link 8 0]
     let s : State := { u with hub := { u.hub with links := [(0, { row := r }), (12 * 8, { discard := true })] } }
     peerEnd 0 0 = some (8, 0) ∧ s.linkOpen 0 0 = true ∧ (s.linkAt 8 0).discard = true ∧
     (s.linkAt 0 0).row = r ∧ (s.linkAt 0 0).crcs = 0) ∧
    (let u := linked [.link 0 0, .link 8 0]
     let s : State := { u with hub := { u.hub with links := [(0, { refused := [⟨1, 8, 0, 0, 5, 0, 0⟩] })] } }
     (s.linkAt 0 0).refused[0]? = some ⟨1, 8, 0, 0, 5, 0, 0⟩ ∧ s.linkOpen 0 0 = true ∧ s.roomy 0 0 = true) := by decide +kernel
theorem witness_LinkEvents_retrain :
    (∀ a ∈ [0, 1, 2], let u := linked [.link 17 7, .link 7 11]
     let s : State := { u with hub := { u.hub with links := [(12 * 17 + 7, { train := true, attempt := a, width := 2 })] } }
     (s.linkAt 17 7).train = true ∧ s.linkUp 17 7 = true ∧ (s.linkAt 17 7).attempt = a ∧ (s.linkAt 17 7).width = 2 ∧
     (s.linkAt 17 7).rate = 0 ∧ peerEnd 17 7 = some (7, 11)) ∧
    (∀ a ∈ [0, 2], let u := linked [portOf 21, .link 21 0]
     let s : State := { u with hub := { u.hub with links := [(12 * 21, { train := true, attempt := a, width := 2 })] } }
     (s.linkAt 21 0).train = true ∧ s.linkUp 21 0 = true ∧ (s.linkAt 21 0).attempt = a ∧ (s.linkAt 21 0).width = 2) ∧
    (let s := linked [.fibre (Fin.ofNat 256 (128 * 1 + 511 / 8))]
     s.hub.lost.contains (512 * 1 + 511) = false ∧ s.isReady (.fibre (Fin.ofNat 256 (128 * 1 + 511 / 8))) = true ∧
     (sget {} s.hub.channels (512 * 1 + 511)).train = false ∧
     (sget {} [(512 * 1 + 511, { train := true, fails := 2 })] (512 * 1 + 511) : Link).fails = 2) ∧
    (let u := linked [portOf 21]
     let s : State := { u with now := 10000000, hub := { u.hub with held := [⟨17, 21, 21, 0, 0, 0, 0⟩] } }
     s.hub.expanders.contains 21 = true ∧ s.isReady (portOf 21) = true ∧ s.unacked 21 = some 0 ∧ slook s.hub.xsince 21 = none ∧
     slook (sput s.hub.xsince 21 0) 21 = some 0 ∧ s.linkOpen 21 0 = false ∧ 0 + 10000000 ≤ s.now) := by decide +kernel
theorem witness_LinkEvents_receive :
    ∀ d : Bool, let u := linked [.link 0 0, .link 8 0]
      let s : State := { u with hub := { u.hub with links := [(0, { buffer := [(0, ⟨1, 8, 0, 0, 5, 0, 0⟩)] }), (12 * 8, { discard := d })] } }
      peerEnd 8 0 = some (0, 0) ∧ s.linkOpen 8 0 = true ∧ (s.linkAt 0 0).buffer = (0, ⟨1, 8, 0, 0, 5, 0, 0⟩) :: [] ∧ (s.linkAt 8 0).discard = d ∧
      (s.linkAt 8 0).expect = 0 := by
  intro d; cases d <;> decide +kernel
theorem witness_HostEvents_registers :
    let s := here .q id
    s.hostReach = true ∧ s.bar0 0xA18 = 0 ∧ bitOf (1 : Word).toNat 0 = true ∧ s.hub.boot.img ≠ 2 ∧ s.hub.boot.img ≠ 5 ∧
    (let t : State := { s with hub := { s.hub with boot := { img := 2 } } }
     t.hostReach = true ∧ t.bar0 0xA18 = 0) ∧
    ((s.bar0 (0x102000 + 0x4000 * 21) - 0).toNat % 2 ^ 32 ≤ 256 ∧ 256 < (s.bar0 (0x102000 + 0x4000 * 21) - 1).toNat % 2 ^ 32) := by
  decide +kernel
theorem witness_HostEvents_memory :
    let s := here .q id
    s.hostWindow 16 (2 ^ 36 - 8 + 8) = true ∧ s.hub.egress = false ∧ s.reds = [] ∧ Memory.wf s.mem = true ∧
    (homePa [] (2 ^ 47 + (2 ^ 36 - 8))).isSome = true ∧ s.damaged = [] ∧ s.poison = [] ∧
    (({ s with damaged := [128] } : State).damaged.contains 128) = true := by decide +kernel
theorem witness_HostEvents_links :
    let s := here .q id
    (16 + (0 : Fin 2).val) ∉ s.hub.hostDown ∧ s.isReady (.host 0) = true ∧ (sget {} s.hub.logs 16).head - (sget {} s.hub.logs 16).tail ≠ 256 ∧
    (let l : FaultLog := { head := 256 }
     l.head - l.tail = 256) ∧
    (let t : State := { s with hub := { hostDown := [17] } }
     (16 + (1 : Fin 2).val) ∈ t.hub.hostDown) := by decide +kernel
theorem witness_HostEvents_faults :
    (let h := ctr 0 7 0
     let s := here .q id
     handleOk h = true ∧ hModule h = s.hub.module ∧ s.silent (counterUnit h).1 (counterUnit h).2.1 (counterUnit h).2.2 = false ∧
     s.silent (dieOf 0) 0 0 = false ∧ (s.core 0).acted = false ∧ (s.core 0).frozen = none ∧ ((s.core 0).strand .q).running = true ∧
     sequenced (.nest 0) = true ∧ s.isReady (.nest 0) = true ∧ s.hub.mismatched (.nest 0) = 0 ∧
     ({ s.hub with mismatches := [(.nest 0, 2)] } : Hub).mismatched (.nest 0) = 2) ∧
    (let e := { entry0 0x29 with running := true }
     ((atTdie (cmd0 0x29 block0) { entries := [e] }).tdie 8).entries[0]? = some e ∧ tdieOk [] 8 = true) ∧
    (let r : RedLine := ⟨.add, false, [], false⟩
     slook ({ State.reset with reds := [(0, r)] } : State).reds (lineOf 5) = some r) ∧
    (let s : State := { State.reset with kdies := [(0, { heap := [⟨0, 0, 0, {}, 0, 0, false⟩] })] }
     (s.kdie 0).heap[0]? = some ⟨0, 0, 0, {}, 0, 0, false⟩) := by decide +kernel

/-! ## Worked values of the spec -/

/-- The results of a word. -/
def results (o : Host.Outcome State Fault Refusal) : List Result :=
  match o with
  | .next t => t.here.fixed.map FixedWrite.res ++ t.here.vars.flatMap VarResult.res
  | _ => []
/-- The scalar results of a word. -/
def scalars (o : Host.Outcome State Fault Refusal) : List (Nat × Word) :=
  (results o).filterMap fun r => match r with
    | .x d v => some (d, v)
    | _ => none
/-- The first lanes that a word writes. -/
def lanes (n : Nat) (o : Host.Outcome State Fault Refusal) : List W32 :=
  (results o).flatMap fun r => match r with
    | .vec _ v => v.take n
    | _ => []
/-- The acting strand of the next state. -/
def after (o : Host.Outcome State Fault Refusal) (f : Strand → Bool) : Bool := goesTo o fun t => f t.me
/-- Strand V with lanes of the o registers: (register, lane, value). -/
def lanesIn (l : List (Nat × Nat × W32)) : State :=
  here .v fun c => { c with vec := { ofile := l.foldl (fun m p => sput m (32 * p.1 + p.2.1) p.2.2) [] } }

/-- R167's example: -7 by 2. -/
theorem test_div : scalars (exec (.div ⟨0, 0⟩ 3 1 2) (regs .q [(1, BitVec.ofInt 64 (-7)), (2, 2)])) = [(3, 0xFFFFFFFFFFFFFFFD)] := by
  decide +kernel
theorem test_rem : scalars (exec (.rem ⟨0, 0⟩ 3 1 2) (regs .q [(1, BitVec.ofInt 64 (-7)), (2, 2)])) = [(3, BitVec.ofInt 64 (-1))] := by
  decide +kernel
/-- R167's example: 5 by 0. -/
theorem test_divu_zero : scalars (exec (.divu ⟨0, 0⟩ 3 1 2) (regs .q [(1, 5)])) = [(3, BitVec.allOnes 64)] := by decide +kernel
/-- R169's example. -/
theorem test_movi : scalars (exec (.movi ⟨0, 0⟩ 9 0x8000) (regs .q [])) = [(9, 0xFFFFFFFFFFFF8000)] := by decide +kernel
theorem test_movk : scalars (exec (.movk1 ⟨0, 0⟩ 9 0) (regs .q [(9, 0xFFFFFFFFFFFF8000)])) = [(9, 0xFFFFFFFF00008000)] := by
  decide +kernel
/-- The example of R149: offset -20 from word 120. -/
theorem test_bnez : after (exec (.bnez ⟨0, 1⟩ 7 0x1FEC)
    (here .q fun c => { c with q := { c.q with pc := 120, x := [(7, 1)] } })) (fun k => k.pc == 100) = true := by decide +kernel
/-- R187's example. -/
theorem test_taskpop : (⟨5, 0x000301, 2, ⟨1, 7, 0⟩, 0x102000, 0, false⟩ : HeapEntry).words = (0x102000, 0x0200030100000005) := by
  decide +kernel
/-- R201's example: one rounding. -/
theorem test_vfma : lanes 1 (exec (.vfma ⟨0, 0⟩ 3 1 2)
    (lanesIn [(3, 0, 0x3F800000), (1, 0, 0x45800800), (2, 0, 0x457FF000)])) = [0x4B800000] := by decide +kernel
/-- R202's example. -/
theorem test_vbadd : lanes 2 (exec (.vbadd ⟨0, 0⟩ 3 1 2)
    (lanesIn [(1, 0, 0x3F803F80), (1, 1, 0x3F803F80), (2, 0, 0x3B80C000), (2, 1, 0x3C00C000)])) = [0x3F80BF80, 0x3F81BF80] := by
  decide +kernel
/-- R203's example. -/
theorem test_vcvtfb : lanes 1 (exec (.vcvtfb ⟨0, 0⟩ 3 1 2) (lanesIn [(1, 0, 0x3F800000), (2, 0, 0xC0200000)])) = [0xC0203F80] := by
  decide +kernel
theorem test_vcvtbf : lanes 2 (exec (.vcvtbf ⟨0, 0⟩ 3 1 2) (lanesIn [(1, 0, 0xC0203F80), (1, 1, 0xC0203F80), (2, 1, 1)])) =
    [0x3F800000, 0xC0200000] := by decide +kernel
theorem test_vcvtfi : lanes 2 (exec (.vcvtfi ⟨0, 0⟩ 3 1 2)
    (lanesIn [(1, 0, 0x40200000), (1, 1, 0x40200000), (2, 0, 2), (2, 1, 0xFFFFFFFF)])) = [10, 1] := by decide +kernel
theorem test_vcvtif : lanes 1 (exec (.vcvtif ⟨0, 0⟩ 3 1 2) (lanesIn [(1, 0, 3), (2, 0, 0xFFFFFFFE)])) = [0x3F400000] := by
  decide +kernel
/-- R205's example. -/
theorem test_vcvtl8 : lanes 17 (exec (.vcvtl8 ⟨0, 0⟩ 2 0 1) (lanesIn [(0, 0, 0x42200000), (0, 1, 0x40400000)])) =
    [0x2965] ++ List.replicate 15 0 ++ [0x0C] := by decide +kernel
theorem test_vxl8 : lanes 3 (exec (.vxl8 ⟨0, 0⟩ 3 2 1) (lanesIn [(2, 0, 0x2965), (2, 16, 0x0C)])) =
    [0x421EF532, 0x403D08A4, 0] := by decide +kernel
/-- R87's examples. -/
theorem test_vexp2 : lanes 3 (exec (.vexp2 ⟨0, 0⟩ 3 1)
    (lanesIn [(1, 0, 0x3F800000), (1, 1, 0x3F000000), (1, 2, 0xBF000000)])) = [0x40000000, 0x3FB504F3, 0x3F3504F3] := by
  decide +kernel
/-- R88's examples. -/
theorem test_vlog2 : lanes 2 (exec (.vlog2 ⟨0, 0⟩ 3 1) (lanesIn [(1, 0, 0x3E000000), (1, 1, 0x3F800000)])) = [0xC0400000, 0] := by
  decide +kernel
/-- R89's examples. -/
theorem test_vrcp : lanes 2 (exec (.vrcp ⟨0, 0⟩ 3 1) (lanesIn [(1, 0, 0x40400000), (1, 1, 0x40800000)])) = [0x3EAAAAAB, 0x3E800000] := by
  decide +kernel
/-- R207's example. -/
theorem test_vredadd : lanes 2 (exec (.vredadd ⟨0, 0⟩ 2 1)
    (lanesIn [(1, 0, 0x4B800000), (1, 1, 0x3F800000), (1, 2, 0x3F800000)])) = [0x4B800001, 0x4B800001] := by decide +kernel
/-- R281's example. -/
theorem test_merge : mergeF [0x40400000, 0x40000000, 0x40800000] [0x3F800000, 0x40800000, 0x41000000] =
    [0x40400000, 0x40400000, 0x40C00000] := by decide +kernel
/-- R64's example: die counter 17 on K-die 3 of module 5. -/
theorem test_handle : hScope 0x10028C0011 = 2 ∧ hModule 0x10028C0011 = 5 ∧ handleOk 0x10028C0011 = true := by decide
/-- R99's example: the PA 0x8000_0000_5010 lies on T-die 13 at offset 0x010. -/
theorem test_interleave : homePa [] 0x800000005010 = some 0x0D0000000010 := by decide
/-- R396's example. -/
theorem test_tinfo : memInfo 0 0 false PR 8 ⟨0x20, 0, 3, false, 0, 5⟩ = 0x0000000800501300 ∧
    memInfo 1 0 false PW 4 ⟨0x21, 0, 2, false, 1, 5⟩ = 0x0000000400512201 := by decide
/-- R14's example: island 3 at 600 MHz and 690 mV after being lowered for power. -/
theorem test_island : ({ State.reset with hub := { islands := [(3, ⟨600, 690, true, false⟩)] } } : State).islandWord 3 = 0x0000000102B20258 := by
  decide
/-- R82's example: one rounding of the whole sum; a poison code gives NaN. -/
theorem test_mma :
    let row (f : Nat → Nat) : List Nat := (List.range 128).map f
    let a : MatRow := ⟨row fun k => if k ∈ [0, 64, 65] then 0x40 else 0, [48, 0]⟩
    mmaElem 0 0 a a = 0x4B800001 ∧ mmaElem 0 0 ⟨a.codes.set 5 0x80, a.scales⟩ a = 0x7FC00000 := by decide +kernel
/-- R61's example: 64 rows and 96 columns; R225's operands of `mkrng` give it. -/
theorem test_mkrng :
    ((results (exec (.mkrng ⟨0, 0⟩ 1 3 4) (regs .m [(3, 0x4000), (4, 0x6000)]))).any fun r => match r with
      | .mask k m => k == 1 && m.active 63 95 && !m.active 64 0 && !m.active 0 96
      | _ => false) = true := by decide +kernel
/-- R232's examples: a drained value with its column's scale and an activation. -/
theorem test_drain :
    let sb : List W32 := [0x3F000000, 0x3F000000]
    let k : Core := { busy with lut := List.replicate 512 0 ++ bytesOf 4 0x40400000 ++ bytesOf 4 0x3E800000 }
    k.drainValue 0x51 sb 0 0 0x40000000 = 0x3F800000 ∧ k.drainValue 0x51 sb 0 1 0xC0400000 = 0 ∧
    k.drainValue 0x21 sb 0 0 0x40000000 = 0x40C80000 := by decide +kernel
/-- R390's examples: a reserved output format, a reserved activation, and a group that ends past the last tile. -/
theorem test_tinfo_format : after (exec (.mdrain ⟨0, 0⟩ 0 0 100 7)
    (here .m fun c => { c with m := { c.m with x := [(7, 0x86)], trap := { vec := 1 } } })) (fun k => k.trap.info == 0x161) = true := by
  decide +kernel
theorem test_tinfo_group : after (exec (.mmaL8Tile ⟨0, 0⟩ 0 0 0 0 188)
    (here .m fun c => { c with spsplit := 1, m := { c.m with trap := { vec := 1 } } })) (fun k => k.trap.info == 0x604) = true := by
  decide +kernel
/-- R309's example: the counts of a draft tree. -/
theorem test_draft :
    let x : AwlSlot := { pen := [(5, 1)], tree := [(5, none), (7, some 0), (5, some 0)] }
    let n := x.base 5 + (x.pathTokens 2).count 5
    let y := (x.commit (x.pathTokens 2)).2
    n = 3 ∧ penalLogit 0x3F800000 0x3F000000 0x3E800000 n = 0xBE800000 ∧ x.best 5 = some 2 ∧ y.base 5 = 3 ∧ y.base 7 = 0 := by
  decide +kernel
end Sys2Proof.Tests
end

section
/-! SUPPORT. Bits, sparse tables, records and counts: what a report changes in the hub, and that it changes nothing else. -/

namespace Sys2Proof.Machine

/-! ## Bits, folds and sparse tables -/

theorem bitOf_eq_testBit (n i : Nat) : bitOf n i = n.testBit i := by
  rw [bitOf, Nat.testBit_eq_decide_div_mod_eq]; rfl

/-- What every step of a fold leaves, the fold leaves. -/
theorem foldl_keeps {α β γ : Type} (f : β → α → β) (p : β → γ) (h : ∀ s x, p (f s x) = p s) (l : List α) (s : β) :
    p (l.foldl f s) = p s := by
  induction l generalizing s with
  | nil => rfl
  | cons x r ih => rw [List.foldl_cons, ih, h]

theorem slook_sdel {α : Type} (m : SMap α) (k j : Nat) : slook (sdel m k) j = if j = k then none else slook m j := by
  induction m with
  | nil => simp [sdel, slook]
  | cons p r ih =>
    obtain ⟨i, v⟩ := p
    simp only [sdel]
    by_cases hik : i = k
    · rw [if_pos hik, ih]
      by_cases hj : j = k
      · simp [hj]
      · simp [slook, hj, hik, Ne.symm hj]
    · by_cases hj : i = j
      · subst hj; simp [slook, hik]
      · simp [slook, hik, hj, ih]

/-! ## The host interrupt (R367) -/

/-- Raising a bit changes HISTAT and the interrupts raised only. -/
theorem raise_shape (h : Hub) (i : Nat) : ∃ x n, h.raise i = { h with histat := x, interrupts := n } := by
  unfold Hub.raise
  dsimp only
  split
  · exact ⟨_, _, rfl⟩
  · exact ⟨h.histat, h.interrupts, rfl⟩

/-- A raised bit of HISTAT is 1. -/
theorem getLsbD_histat_raise (h : Hub) (i : Nat) (hi : i < 26) : (h.raise i).histat.getLsbD i = true := by
  have hb : BitVec.ofNat 26 (2 ^ i) = BitVec.twoPow 26 i := BitVec.eq_of_toNat_eq (by simp)
  unfold Hub.raise
  simp only [hb]
  split
  · simp [hi]
  · rename_i hne
    by_contra hc
    exact hne (by rw [BitVec.and_twoPow, if_neg hc]; rfl)

/-! ## Records (R365, R366) -/

/-- A record changes its die's log, HISTAT and the interrupts raised. -/
theorem record_hub_shape (s : State) (n d uk ui synd cls : Nat) (intr trap : Bool) (addr info : Word) :
    ∃ x m, (s.record n d uk ui synd cls intr trap addr info).hub = { s.hub with
      logs := sput s.hub.logs n ((sget {} s.hub.logs n).push ⟨s.now, synd, d, uk, cls, ui, intr, trap, addr, info⟩)
      histat := x, interrupts := m } := by
  cases intr with
  | false => exact ⟨s.hub.histat, s.hub.interrupts, rfl⟩
  | true =>
    obtain ⟨x, m, e⟩ := raise_shape { s.hub with
      logs := sput s.hub.logs n ((sget {} s.hub.logs n).push ⟨s.now, synd, d, uk, cls, ui, true, trap, addr, info⟩) } n
    exact ⟨x, m, e⟩

section Record
variable (s : State) (n d uk ui synd cls : Nat) (intr trap : Bool) (addr info : Word)

@[simp] theorem record_badCounters : (s.record n d uk ui synd cls intr trap addr info).badCounters = s.badCounters := rfl
@[simp] theorem record_logs : (s.record n d uk ui synd cls intr trap addr info).hub.logs =
    sput s.hub.logs n ((sget {} s.hub.logs n).push ⟨s.now, synd, d, uk, cls, ui, intr, trap, addr, info⟩) := by
  obtain ⟨x, m, e⟩ := record_hub_shape s n d uk ui synd cls intr trap addr info; rw [e]
@[simp] theorem record_ready : (s.record n d uk ui synd cls intr trap addr info).hub.ready = s.hub.ready := by
  obtain ⟨x, m, e⟩ := record_hub_shape s n d uk ui synd cls intr trap addr info; rw [e]
@[simp] theorem record_mismatches : (s.record n d uk ui synd cls intr trap addr info).hub.mismatches = s.hub.mismatches := by
  obtain ⟨x, m, e⟩ := record_hub_shape s n d uk ui synd cls intr trap addr info; rw [e]
@[simp] theorem record_hostDown : (s.record n d uk ui synd cls intr trap addr info).hub.hostDown = s.hub.hostDown := by
  obtain ⟨x, m, e⟩ := record_hub_shape s n d uk ui synd cls intr trap addr info; rw [e]

/-- A record that interrupts sets its log's bit of HISTAT. -/
theorem getLsbD_histat_record (hn : n < 26) :
    (s.record n d uk ui synd cls true trap addr info).hub.histat.getLsbD n = true :=
  getLsbD_histat_raise _ n hn

end Record

/-- What a log becomes as a record comes: it takes the record, or, with its ring full, counts one more as lost (R365). -/
def FaultLog.noted (l l1 : FaultLog) (synd die : Nat) (addr : Word) (now : Nat) : Prop :=
  (l.head - l.tail ≠ 256 → l1.head = l.head + 1 ∧
    ∃ r, slook l1.ring (l.head % 256) = some r ∧ r.synd = synd ∧ r.die = die ∧ r.addr = addr ∧ r.time = now) ∧
  (l.head - l.tail = 256 → l1.head = l.head ∧ l1.lost = min (l.lost + 1) (2 ^ 32 - 1))

theorem push_noted (l : FaultLog) (r : FaultRec) : l.noted (l.push r) r.synd r.die r.addr r.time := by
  unfold FaultLog.push
  constructor
  · intro h
    rw [if_neg h]
    exact ⟨rfl, r, slook_sput_self _ _ _, rfl, rfl, rfl, rfl⟩
  · intro h
    rw [if_pos h]
    exact ⟨rfl, rfl⟩

/-- A record of a host link comes to the link's log. -/
theorem hostRecord_noted (s : State) (h : Fin 2) (synd cls : Nat) (intr : Bool) (addr : Word) :
    (sget {} s.hub.logs (16 + h.val)).noted (sget {} (s.hostRecord h synd cls intr addr).hub.logs (16 + h.val))
      synd (16 + h.val) addr s.now := by
  rw [State.hostRecord, record_logs, sget_sput_self]
  exact push_noted ..

/-! ## Counted events (R363) -/

/-- A corrected event changes the hub only, and there no sequencer's mismatches. -/
theorem corrected_shape (s : State) (d uk ui : Nat) :
    ∃ h, s.corrected d uk ui = { s with hub := h } ∧ h.mismatches = s.hub.mismatches := by
  unfold State.corrected
  split
  · exact ⟨s.hub, rfl, rfl⟩
  extract_lets s1 key sec old n _ s2
  split
  · exact ⟨_, rfl, record_mismatches s2 d d uk ui CEBURST 1 false false 0 0⟩
  · exact ⟨s2.hub, rfl, rfl⟩

theorem corrected_eq (s : State) (d uk ui : Nat) : s.corrected d uk ui = { s with hub := (s.corrected d uk ui).hub } := by
  obtain ⟨h, e, _⟩ := corrected_shape s d uk ui; rw [e]

@[simp] theorem corrected_mem (s : State) (d uk ui : Nat) : (s.corrected d uk ui).mem = s.mem := by
  rw [corrected_eq]
@[simp] theorem corrected_cores (s : State) (d uk ui : Nat) : (s.corrected d uk ui).cores = s.cores := by
  rw [corrected_eq]
@[simp] theorem corrected_kdie (s : State) (d uk ui e : Nat) : (s.corrected d uk ui).kdie e = s.kdie e := by
  rw [corrected_eq]; rfl
@[simp] theorem corrected_tdie (s : State) (d uk ui n : Nat) : (s.corrected d uk ui).tdie n = s.tdie n := by
  rw [corrected_eq]; rfl

@[simp] theorem corrected_mismatches (s : State) (d uk ui : Nat) :
    (s.corrected d uk ui).hub.mismatches = s.hub.mismatches := by
  obtain ⟨h, e, he⟩ := corrected_shape s d uk ui; rw [e]; exact he

end Sys2Proof.Machine
end

section
/-! SUPPORT. The registers of hub control space: what a host read shows of each, and what a host write of each sets. -/

namespace Sys2Proof.Machine

/-! ## Reads (R25, R26, R36, R312, R339, R365, R367) -/

theorem bar0_fdoor (s : State) : s.bar0 0xA18 = BitVec.ofNat 64 (flag s.hub.boot.fgo 0) := rfl
theorem bar0_fres (s : State) : s.bar0 0xA20 = s.hub.boot.fres := rfl
theorem bar0_fstat (s : State) : s.bar0 0xA28 = BitVec.ofNat 64 s.hub.boot.fstat := rfl
theorem bar0_histat (s : State) : s.bar0 0x170000 = s.hub.histat.setWidth 64 := rfl
theorem bar0_himask (s : State) : s.bar0 0x170008 = s.hub.himask.setWidth 64 := rfl

theorem bar0_image (s : State) (c : CoreIx) : s.bar0 (0x20000 + 64 * c) = (s.core c).mbox.image := by
  have hc : (0x20000 + 64 * c.val - 0x20000) / 64 = c.val := by omega
  have ho : (0x20000 + 64 * c.val) % 64 = 0 := by omega
  simp (disch := omega) only [State.bar0, if_neg, if_pos, hc, ho]
  rfl

theorem bar0_arg (s : State) (c : CoreIx) : s.bar0 (0x20008 + 64 * c) = (s.core c).mbox.arg := by
  have hc : (0x20008 + 64 * c.val - 0x20000) / 64 = c.val := by omega
  have ho : (0x20008 + 64 * c.val) % 64 = 8 := by omega
  simp (disch := omega) only [State.bar0, if_neg, if_pos, hc, ho]
  rfl

theorem bar0_param (s : State) (g : Fin 256) : s.bar0 (0xC0800 + 8 * g) = sget 0 s.hub.graph.gp g := by
  have hg : (0xC0800 + 8 * g.val - 0xC0000 - 0x800) / 8 = g.val := by omega
  simp (disch := omega) only [State.bar0, Graph.read, if_neg, if_pos, hg]

theorem bar0_gdef (s : State) (g : Fin 256) : s.bar0 (0xE0000 + 16 * g) = sget 0 s.hub.gdef g := by
  have hg : (0xE0000 + 16 * g.val - 0xE0000) / 16 = g.val := by omega
  simp (disch := omega) only [State.bar0, if_neg, if_pos, hg]

theorem bar0_glist (s : State) (g : Fin 256) : s.bar0 (0xE0008 + 16 * g) = sget 0 s.hub.glist g := by
  have hg : (0xE0008 + 16 * g.val - 0xE0000) / 16 = g.val := by omega
  simp (disch := omega) only [State.bar0, if_neg, if_pos, hg]

theorem bar0_loghead (s : State) (n : Fin 22) :
    s.bar0 (0x102000 + 0x4000 * n) = BitVec.ofNat 64 ((sget {} s.hub.logs n).head % 2 ^ 32) := by
  have hn : (0x102000 + 0x4000 * n.val - 0x100000) / 0x4000 = n.val := by omega
  have ho : (0x102000 + 0x4000 * n.val) % 0x4000 = 0x2000 := by omega
  simp (disch := omega) only [State.bar0, State.logWord, if_neg, if_pos, hn, ho]

theorem bar0_logtail (s : State) (n : Fin 22) :
    s.bar0 (0x102008 + 0x4000 * n) = BitVec.ofNat 64 ((sget {} s.hub.logs n).tail % 2 ^ 32) := by
  have hn : (0x102008 + 0x4000 * n.val - 0x100000) / 0x4000 = n.val := by omega
  have ho : (0x102008 + 0x4000 * n.val) % 0x4000 = 0x2008 := by omega
  simp (disch := omega) only [State.bar0, State.logWord, if_neg, if_pos, hn, ho]

/-- A bit of HISTAT as the host reads it. -/
theorem bitOf_bar0_histat (s : State) (i : Nat) (hi : i < 26) : bitOf (s.bar0 0x170000).toNat i = s.hub.histat.getLsbD i := by
  rw [bar0_histat, bitOf_eq_testBit, BitVec.testBit_toNat, BitVec.getLsbD_setWidth, decide_eq_true (by omega), Bool.true_and]

/-! ## Writes (R5, R25, R26, R36, R312, R339, R367) -/

theorem writeMailbox_shape (s : State) (c off : Nat) (w : Word) :
    ∃ cs, s.writeMailbox c off w = { s with cores := cs } := by
  unfold State.writeMailbox
  split
  · exact ⟨_, rfl⟩
  · exact ⟨_, rfl⟩
  · exact ⟨s.cores, rfl⟩

theorem writeGraph_shape (s : State) (off : Nat) (w : Word) : ∃ h, s.writeGraph off w = { s with hub := h } := by
  unfold State.writeGraph
  split
  · exact ⟨_, rfl⟩
  · split
    · exact ⟨_, rfl⟩
    · exact ⟨s.hub, rfl⟩

/-- A register write changes cores and the hub only. -/
theorem writeRegister_shape (s : State) (off : Nat) (w : Word) :
    ∃ cs h, s.writeRegister off w = { s with cores := cs, hub := h } := by
  unfold State.writeRegister
  extract_lets h
  split
  · exact ⟨s.cores, s.hub, rfl⟩
  split
  · exact ⟨s.cores, _, rfl⟩
  split
  · obtain ⟨cs, e⟩ := writeMailbox_shape s ((off - 0x20000) / 64) (off % 64) w
    exact ⟨cs, s.hub, e⟩
  split
  · obtain ⟨h, e⟩ := writeGraph_shape s (off - 0xC0000) w
    exact ⟨s.cores, h, e⟩
  split
  · exact ⟨s.cores, _, rfl⟩
  split
  · exact ⟨s.cores, _, rfl⟩
  split
  · exact ⟨s.cores, _, rfl⟩
  · exact ⟨s.cores, s.hub, rfl⟩

theorem writeRegister_image (s : State) (c : CoreIx) (w : Word) :
    s.writeRegister (0x20000 + 64 * c) w = s.setCore c { s.core c with mbox := { (s.core c).mbox with image := w } } := by
  have hc : (0x20000 + 64 * c.val - 0x20000) / 64 = c.val := by omega
  have ho : (0x20000 + 64 * c.val) % 64 = 0 := by omega
  simp (disch := omega) only [State.writeRegister, if_neg, if_pos, hc, ho]
  rfl

theorem writeRegister_arg (s : State) (c : CoreIx) (w : Word) :
    s.writeRegister (0x20008 + 64 * c) w = s.setCore c { s.core c with mbox := { (s.core c).mbox with arg := w } } := by
  have hc : (0x20008 + 64 * c.val - 0x20000) / 64 = c.val := by omega
  have ho : (0x20008 + 64 * c.val) % 64 = 8 := by omega
  simp (disch := omega) only [State.writeRegister, if_neg, if_pos, hc, ho]
  rfl

theorem writeRegister_param (s : State) (g : Fin 256) (w : Word) :
    s.writeRegister (0xC0800 + 8 * g) w = s.setGraph { s.hub.graph with gp := sput s.hub.graph.gp g w } := by
  have hg : (0xC0800 + 8 * g.val - 0xC0000 - 0x800) / 8 = g.val := by omega
  simp (disch := omega) only [State.writeRegister, State.writeGraph, if_neg, if_pos, hg]

theorem writeRegister_glist (s : State) (g : Fin 256) (w : Word) :
    s.writeRegister (0xE0008 + 16 * g) w =
      { s with hub := { s.hub with glist := sput s.hub.glist g (BitVec.ofNat 64 (field w 0 57)) } } := by
  have hg : (0xE0008 + 16 * g.val - 0xE0000) / 16 = g.val := by omega
  simp (disch := omega) only [State.writeRegister, if_neg, if_pos, hg]

theorem writeRegister_gstat (s : State) (w : Word) : s.writeRegister 0xC0010 w = s.setGraph { s.hub.graph with
    drop := s.hub.graph.drop && !bitOf w.toNat 34, fault := s.hub.graph.fault && !bitOf w.toNat 35 } := rfl

theorem writeRegister_histat (s : State) (w : Word) :
    s.writeRegister 0x170000 w = { s with hub := { s.hub with histat := s.hub.histat &&& ~~~(w.setWidth 26) } } := rfl

theorem writeRegister_himask (s : State) (w : Word) :
    s.writeRegister 0x170008 w = { s with hub := { s.hub with himask := w.setWidth 26 } } := rfl

theorem writeRegister_fdoor (s : State) (w : Word) :
    s.writeRegister 0xA18 w = { s with hub := { s.hub with boot := s.hub.boot.write 0xA18 w } } := rfl

/-- Offsets that lie in no writable block, and unaligned ones. -/
theorem writeRegister_ignored (s : State) (off : Nat) (w : Word)
    (h : off % 8 ≠ 0 ∨ (0x1000 ≤ off ∧ off < 0x20000) ∨ (0xD0000 ≤ off ∧ off < 0xE0000) ∨
      (0xF0000 ≤ off ∧ off < 0x170000) ∨ 0x170010 ≤ off) : s.writeRegister off w = s := by
  unfold State.writeRegister
  by_cases ha : off % 8 = 0
  · simp (disch := omega) only [if_neg]
  · exact if_pos ha

end Sys2Proof.Machine
end

section
/-! SUPPORT. What each host write of a register shows in the registers that a host read returns. -/

namespace Sys2Proof.Machine

/-- A register write, while the host reaches hub control space: memory, counters and reduce state stay. -/
theorem registerWrite_next (s : State) (off : Nat) (w : Word) (p : State → Prop) (hr : s.hostReach = true)
    (hp : p (s.writeRegister off w)) :
    ∃ t, exec (.registerWrite off w) s = .next t ∧ t.mem = s.mem ∧ t.counters = s.counters ∧ t.reds = s.reds ∧ p t := by
  obtain ⟨cs, h, e⟩ := writeRegister_shape s off w
  exact ⟨s.writeRegister off w, congrArg Host.Outcome.next (if_pos hr), by rw [e], by rw [e], by rw [e], hp⟩

theorem glistWrite_reads (s : State) (g k : Fin 256) (w : Word) (t : State) (ht : t = s.writeRegister (0xE0008 + 16 * g) w) :
    t.bar0 (0xE0008 + 16 * g) = BitVec.ofNat 64 (field w 0 57) ∧
      (k ≠ g → t.bar0 (0xE0008 + 16 * k) = s.bar0 (0xE0008 + 16 * k)) ∧
      t.bar0 (0xE0000 + 16 * k) = s.bar0 (0xE0000 + 16 * k) := by
  rw [writeRegister_glist] at ht
  simp only [bar0_glist, bar0_gdef, ht]
  exact ⟨sget_sput_self .., fun hk => sget_sput_of_ne _ _ _ (Fin.val_ne_of_ne hk), trivial⟩

/-- The W1C bits of HISTAT, in the register's 64 bits. -/
theorem setWidth_and_not (x : BitVec 26) (w : Word) :
    (x &&& ~~~(w.setWidth 26)).setWidth 64 = x.setWidth 64 &&& ~~~w := by
  ext i hi
  by_cases h26 : i < 26
  · simp [hi, h26]
  · simp [BitVec.getLsbD_of_ge x i (by omega), h26]

/-- The 26 bits of HIMASK, in the register's 64 bits. -/
theorem setWidth_mask (w : Word) : (w.setWidth 26).setWidth 64 = w &&& 0x3FFFFFF := by
  apply BitVec.eq_of_toNat_eq
  have hm : w.toNat &&& (0x3FFFFFF : Word).toNat = w.toNat % 2 ^ 26 := Nat.and_two_pow_sub_one_eq_mod w.toNat 26
  rw [BitVec.toNat_setWidth, BitVec.toNat_setWidth, BitVec.toNat_and, hm]
  omega

theorem histatWrite_reads (s : State) (w : Word) (t : State) (ht : t = s.writeRegister 0x170000 w) :
    t.bar0 0x170000 = s.bar0 0x170000 &&& ~~~w ∧ t.bar0 0x170008 = s.bar0 0x170008 := by
  rw [writeRegister_histat] at ht
  simp only [bar0_histat, bar0_himask, ht, setWidth_and_not, and_self]

theorem himaskWrite_reads (s : State) (w : Word) (t : State) (ht : t = s.writeRegister 0x170008 w) :
    t.bar0 0x170008 = w &&& 0x3FFFFFF ∧ t.bar0 0x170000 = s.bar0 0x170000 := by
  rw [writeRegister_himask] at ht
  simp only [bar0_histat, bar0_himask, ht, setWidth_mask, and_self]

theorem imageWrite_reads (s : State) (c : CoreIx) (w : Word) (t : State) (ht : t = s.writeRegister (0x20000 + 64 * c) w) :
    t.bar0 (0x20000 + 64 * c) = w ∧ t.bar0 (0x20008 + 64 * c) = s.bar0 (0x20008 + 64 * c) := by
  rw [writeRegister_image] at ht
  simp [bar0_image, bar0_arg, ht]

theorem argWrite_reads (s : State) (c : CoreIx) (w : Word) (t : State) (ht : t = s.writeRegister (0x20008 + 64 * c) w) :
    t.bar0 (0x20008 + 64 * c) = w ∧ t.bar0 (0x20000 + 64 * c) = s.bar0 (0x20000 + 64 * c) := by
  rw [writeRegister_arg] at ht
  simp [bar0_image, bar0_arg, ht]

theorem paramWrite_reads (s : State) (g k : Fin 256) (w : Word) (t : State) (ht : t = s.writeRegister (0xC0800 + 8 * g) w) :
    t.bar0 (0xC0800 + 8 * g) = w ∧ (k ≠ g → t.bar0 (0xC0800 + 8 * k) = s.bar0 (0xC0800 + 8 * k)) := by
  rw [writeRegister_param] at ht
  simp only [bar0_param, ht]
  exact ⟨sget_sput_self .., fun hk => sget_sput_of_ne _ _ _ (Fin.val_ne_of_ne hk)⟩

theorem gstatWrite_clears (s : State) (w : Word) (t : State) (ht : t = s.writeRegister 0xC0010 w) :
    (t.hub.graph.drop = true ↔ s.hub.graph.drop = true ∧ bitOf w.toNat 34 = false) ∧
      (t.hub.graph.fault = true ↔ s.hub.graph.fault = true ∧ bitOf w.toNat 35 = false) := by
  rw [writeRegister_gstat] at ht
  simp [State.setGraph, ht]

theorem flag_eq_zero {b : Bool} (h : BitVec.ofNat 64 (flag b 0) = 0) : b = false := by
  cases b with
  | false => rfl
  | true => exact absurd h (by decide)

/-- A doorbell of the firmware mailbox: a request begins while firmware runs, and ends at once while none does. -/
theorem fdoorWrite_reads (s : State) (w : Word) (t : State) (ht : t = s.writeRegister 0xA18 w) (h0 : s.bar0 0xA18 = 0)
    (hw : bitOf w.toNat 0 = true) :
    (s.hub.boot.img = 2 ∨ s.hub.boot.img = 5 → t.bar0 0xA18 = 1 ∧ t.bar0 0xA28 = 1) ∧
      (s.hub.boot.img ≠ 2 → s.hub.boot.img ≠ 5 →
        t.bar0 0xA18 = 0 ∧ t.bar0 0xA28 = 3 ∧ t.bar0 0xA20 = BitVec.allOnes 64) := by
  have hgo : s.hub.boot.fgo = false := flag_eq_zero h0
  rw [writeRegister_fdoor] at ht
  simp only [bar0_fdoor, bar0_fstat, bar0_fres, ht, Boot.write, hw, hgo]
  constructor
  · intro hi
    have hruns : s.hub.boot.runs = true := by simpa [Boot.runs] using hi
    simp [hruns, flag]
  · intro h2 h5
    have hruns : s.hub.boot.runs = false := by simp [Boot.runs, h2, h5]
    simp [hruns, flag]

/-- A group entry is written; with bit 13 the group is broken no more (R339, R434). -/
theorem gdefWrite_next (s : State) (g k : Fin 256) (w : Word) (hr : s.hostReach = true) :
    ∃ t, exec (.gdefWrite g w) s = .next t ∧ t.mem = s.mem ∧ t.bar0 (0xE0000 + 16 * g) = BitVec.ofNat 64 (field w 0 14) ∧
      (k ≠ g → t.bar0 (0xE0000 + 16 * k) = s.bar0 (0xE0000 + 16 * k)) ∧
      t.bar0 (0xE0008 + 16 * k) = s.bar0 (0xE0008 + 16 * k) ∧
      (g.val ∈ t.hub.broken ↔ g.val ∈ s.hub.broken ∧ bitOf w.toNat 13 = false) ∧
      (k ≠ g → (k.val ∈ t.hub.broken ↔ k.val ∈ s.hub.broken)) := by
  refine ⟨_, congrArg Host.Outcome.next (if_pos hr), rfl, ?_⟩
  simp only [bar0_gdef, bar0_glist]
  refine ⟨sget_sput_self .., fun hk => sget_sput_of_ne _ _ _ (Fin.val_ne_of_ne hk), trivial, ?_, fun hk => ?_⟩
  · cases bitOf w.toNat 13 <;> simp
  · cases bitOf w.toNat 13 <;> simp [Fin.val_ne_of_ne hk]

/-- How far a new TAIL is behind HEAD, modulo 2^32, as the registers show it and as the log holds it. -/
theorem logtail_distance (head : Nat) (w : Word) : (BitVec.ofNat 64 (head % 2 ^ 32) - w).toNat % 2 ^ 32 =
    (head % 2 ^ 32 + 2 ^ 32 - field w 0 32) % 2 ^ 32 := by
  have hw := w.isLt
  simp only [BitVec.toNat_sub, BitVec.toNat_ofNat, field]
  omega

/-- A tail that leaves HEAD − TAIL in 0 to 256 is taken, and another one ignored (R365). -/
theorem logtailWrite_next (s : State) (n : Fin 22) (w : Word) (hr : s.hostReach = true) :
    ∃ t, exec (.logtailWrite n w) s = .next t ∧
      let head := s.bar0 (0x102000 + 0x4000 * n)
      t.bar0 (0x102000 + 0x4000 * n) = head ∧
      ((head - w).toNat % 2 ^ 32 ≤ 256 → t.bar0 (0x102008 + 0x4000 * n) = BitVec.ofNat 64 (field w 0 32)) ∧
      (256 < (head - w).toNat % 2 ^ 32 → t = s) := by
  simp only [bar0_loghead, bar0_logtail, logtail_distance]
  have hf : field w 0 32 < 2 ^ 32 := Nat.mod_lt _ (Nat.two_pow_pos 32)
  by_cases hd : ((sget {} s.hub.logs n).head % 2 ^ 32 + 2 ^ 32 - field w 0 32) % 2 ^ 32 ≤ 256
  · refine ⟨_, congrArg Host.Outcome.next (if_pos ⟨hr, hd⟩), ?_, fun _ => ?_, fun h => absurd hd (Nat.not_le.2 h)⟩ <;>
      simp only [sget_sput_self]
    · congr 1; split <;> omega
    · congr 1; split <;> omega
  · exact ⟨s, congrArg Host.Outcome.next (if_neg fun h => hd h.2), rfl, fun h => absurd h hd, fun _ => rfl⟩

end Sys2Proof.Machine
end

section
/-! SUPPORT. The host's window onto memory: where its bytes lie, what a store leaves in them, and what a load returns. -/

namespace Sys2Proof.Machine

/-! ## The interleaved region (R100, R341) -/

/-- The die-local PA of byte `p` of the first half TiB of the interleaved region. -/
def windowPa (p : Nat) : Nat := p / 32768 * 4096 + p % 4096 + (8 + p / 4096 % 8) * 2 ^ 40

theorem homePa_window (p : Nat) (h : p < 2 ^ 39) : homePa [] (2 ^ 47 + p) = some (windowPa p) := by
  have e1 : p % 2 ^ 41 = p := by omega
  have e2 : p / 2 ^ 41 % 4 = 0 := by omega
  have e3 : p / 2 ^ 43 = 0 := by omega
  have e4 : p / 4096 / 8 = p / 32768 := by omega
  unfold homePa windowPa
  rw [if_neg (by omega)]
  simp only [Nat.add_sub_cancel_left, e1, e2, e3, e4]
  rw [if_pos ⟨trivial, Nat.two_pos, h⟩, Nat.zero_mul, Nat.add_zero]

theorem windowPa_inj {p q : Nat} (hp : p < 2 ^ 39) (hq : q < 2 ^ 39) (h : windowPa p = windowPa q) : p = q := by
  have split (x y i j : Nat) (hx : x < 2 ^ 40) (hy : y < 2 ^ 40) (e : x + (8 + i) * 2 ^ 40 = y + (8 + j) * 2 ^ 40) :
      x = y ∧ i = j := by omega
  obtain ⟨hofs, hdie⟩ := split _ _ _ _ (by omega) (by omega) h
  have hpage : p / 32768 = q / 32768 := by omega
  omega

/-- An access that a window has room for ends within the first half TiB. -/
theorem hostWindow_room {s : State} {last : Nat} (h : s.hostWindow 16 last = true ∨ s.hostWindow 17 last = true) :
    last ≤ 2 ^ 39 := by
  have key (n : Nat) (hn : s.hostWindow n last = true) : last ≤ 2 ^ 39 := by
    have := of_decide_eq_true (Bool.and_eq_true_iff.1 hn).2
    split at this <;> omega
  exact h.elim (key 16) (key 17)

theorem hostPas_eq (off n : Nat) (h : off + n ≤ 2 ^ 39) :
    hostPas off n = (List.range n).map fun i => windowPa (off + i) := by
  unfold hostPas
  rw [← List.filterMap_eq_map]
  refine List.filterMap_congr fun i hi => ?_
  have := List.mem_range.1 hi
  rw [Nat.add_assoc, homePa_window _ (by omega)]
  rfl

theorem hostPas_nodup (off n : Nat) (h : off + n ≤ 2 ^ 39) : (hostPas off n).Nodup := by
  rw [hostPas_eq off n h]
  refine List.Nodup.map_on (fun i hi j hj e => ?_) List.nodup_range
  have := List.mem_range.1 hi
  have := List.mem_range.1 hj
  have := windowPa_inj (by omega) (by omega) e
  omega

theorem mem_hostPas (off n a : Nat) : a ∈ hostPas off n ↔ ∃ i < n, homePa [] (2 ^ 47 + off + i) = some a := by
  simp [hostPas]

theorem getElem?_hostPas {off n i a : Nat} (h : off + n ≤ 2 ^ 39) (hi : i < n)
    (ha : homePa [] (2 ^ 47 + off + i) = some a) : (hostPas off n)[i]? = some a := by
  rw [Nat.add_assoc, homePa_window _ (by omega)] at ha
  simp [hostPas_eq off n h, hi, Option.some.inj ha]

theorem mem_linesOfPas (l : List Nat) (x : Nat) : x ∈ linesOfPas l ↔ ∃ a ∈ l, lineOf a = x := by
  simp [linesOfPas]

/-! ## Reduce state and marks (R117, R403, R404) -/

/-- With none of the lines in reduce state, nothing is merged. -/
theorem mergeLines_of_none (s : State) (l : List Nat) (h : ∀ x ∈ l, slook s.reds x = none) : s.mergeLines l = s := by
  induction l with
  | nil => rfl
  | cons x r ih =>
    have hx : s.mergeLineBy none x = s := by simp [State.mergeLineBy, h x (List.mem_cons_self ..)]
    have hr := ih fun y hy => h y (List.mem_cons_of_mem _ hy)
    simp only [State.mergeLines, State.mergeLinesBy, List.foldl_cons, hx] at hr ⊢
    exact hr

theorem mergeLines_hostPas (s : State) (off n : Nat)
    (h : ∀ i a, i < n → homePa [] (2 ^ 47 + off + i) = some a → slook s.reds (lineOf a) = none) :
    s.mergeLines (linesOfPas (hostPas off n)) = s := by
  refine mergeLines_of_none s _ fun x hx => ?_
  obtain ⟨a, ha, rfl⟩ := (mem_linesOfPas _ _).1 hx
  obtain ⟨i, hi, e⟩ := (mem_hostPas _ _ _).1 ha
  exact h i a hi e

theorem markAll_mem (s : State) (l : List (Nat × Nat)) (info : MemFault → Word) : (s.markAll l info).mem = s.mem :=
  foldl_keeps _ State.mem (fun s _ => markDamaged_mem s _ _) l s

/-! ## Bytes as they are seen (R107, R120) -/

/-- What an ordinary read finds at an address, and what the home holds there. -/
def State.shown (s : State) (a : Nat) : Byte × Byte := (s.byte a, s.homeByte a)

/-- What is seen at an address depends on memory, the dirty bytes and the bytes on their way back. -/
theorem shown_congr {s t : State} (hm : t.mem = s.mem) (hd : t.dirty = s.dirty)
    (hw : t.wbs.map (·.bytes) = s.wbs.map (·.bytes)) : t.shown = s.shown := by
  have held (u : State) (a : Nat) : u.heldByte a =
      match slook u.dirty a with
      | some b => some b
      | none => (u.wbs.map (·.bytes)).reverse.findSome? fun m => slook m a := by
    unfold State.heldByte
    rw [← List.map_reverse, List.findSome?_map]
    rfl
  funext a
  simp only [State.shown, State.byte, State.homeByte, held, hm, hd, hw]

theorem stampStore_shown (s : State) (x : Nat) : (s.stampStore x).shown = s.shown := shown_congr rfl rfl rfl

theorem clearMark_shown (s : State) (x : Nat) : (s.clearMark x).shown = s.shown := by
  refine shown_congr rfl rfl ?_
  simp only [State.clearMark, List.map_map]
  refine List.map_congr_left fun w _ => ?_
  simp only [Function.comp]
  split <;> rfl

/-- A query takes note of a write in the T-die's entries only. -/
theorem noteWrite_shape (s : State) (n : Nat) (own : Option Nat) (line : Nat) :
    ∃ t x, s.noteWrite n own line = { s with tdies := t, heldWrite := x } := by
  unfold State.noteWrite
  extract_lets t other es s1
  split
  · split
    · exact ⟨_, _, rfl⟩
    · exact ⟨_, _, rfl⟩
  · exact ⟨s.tdies, s.heldWrite, rfl⟩

/-- A byte that is written at its home is seen there, by every reader, and every other byte is as it was. -/
theorem putByte_home_shown (s : State) (pa a : Nat) (b : Byte) (h : Memory.wf s.mem = true) :
    (s.putByte true pa b).shown a = if a = pa then (b, b) else s.shown a := by
  unfold State.putByte
  rw [if_pos rfl]
  extract_lets s1
  obtain ⟨t, x, e⟩ := noteWrite_shape s1 (homeOf pa) none (lineOf pa)
  simp only [e, s1, State.shown, State.byte, State.homeByte, State.heldByte, slook_sdel, ← List.map_reverse,
    List.findSome?_map, Memory.get_set s.mem pa a b h, Function.comp_def]
  have hnone : s.wbs.reverse.findSome? (fun _ => (none : Option Byte)) = none :=
    List.findSome?_eq_none_iff.2 fun _ _ => rfl
  by_cases ha : a = pa
  · simp [ha, hnone]
  · simp [ha]

/-- Bytes written at their homes, one PA for each. -/
def State.putHome (s : State) (pas : List Nat) (bs : List Byte) : State := s.putBytes ((pas.map fun p => (p, true)).zip bs)

theorem putHome_cons (s : State) (p : Nat) (ps : List Nat) (b : Byte) (bs : List Byte) :
    s.putHome (p :: ps) (b :: bs) = (s.putByte true p b).putHome ps bs := rfl

theorem putHome_shown_of_not_mem (pas : List Nat) (bs : List Byte) (s : State) (a : Nat) (h : Memory.wf s.mem = true)
    (ha : a ∉ pas) : (s.putHome pas bs).shown a = s.shown a := by
  induction pas generalizing s bs with
  | nil => rfl
  | cons p ps ih =>
    cases bs with
    | nil => rfl
    | cons b bs =>
      obtain ⟨hp, hps⟩ := not_or.1 (mt List.mem_cons.2 ha)
      rw [putHome_cons, ih _ _ (putByte_wf s true p b h) hps, putByte_home_shown s p a b h, if_neg hp]

theorem putHome_shown_getElem (pas : List Nat) (bs : List Byte) (s : State) (i a : Nat) (b : Byte)
    (h : Memory.wf s.mem = true) (hn : pas.Nodup) (ha : pas[i]? = some a) (hb : bs[i]? = some b) :
    (s.putHome pas bs).shown a = (b, b) := by
  induction pas generalizing s bs i with
  | nil => simp at ha
  | cons p ps ih =>
    obtain ⟨hp, hps⟩ := List.nodup_cons.1 hn
    cases bs with
    | nil => simp at hb
    | cons c bs =>
      rw [putHome_cons]
      cases i with
      | zero =>
        obtain rfl : p = a := Option.some.inj ha
        obtain rfl : c = b := Option.some.inj hb
        rw [putHome_shown_of_not_mem ps bs _ p (putByte_wf s true p c h) hp, putByte_home_shown s p p c h, if_pos rfl]
      | succ j => exact ih bs _ j (putByte_wf s true p c h) hps ha hb

/-! ## The host's stores and loads (R341, R342, R368, R403) -/

/-- A host store shows what its bytes, written at their homes, show. -/
theorem hostStore_shown (s : State) (off : Nat) (bs : List Byte)
    (h : ∀ i a, i < bs.length → homePa [] (2 ^ 47 + off + i) = some a → slook s.reds (lineOf a) = none) :
    (s.hostStore off bs).shown = (s.putHome (hostPas off bs.length) bs).shown := by
  unfold State.hostStore
  extract_lets pas ls s1 s2
  rw [foldl_keeps _ State.shown clearMark_shown, foldl_keeps _ State.shown stampStore_shown]
  simp only [s1, ls, pas, mergeLines_hostPas s off _ h]
  rfl

/-- A host store is read back, at the homes and by every reader, and leaves every other byte alone. -/
theorem hostStore_next (s : State) (off : Nat) (bs : List Byte)
    (hw : s.hostWindow 16 (off + bs.length) = true ∨ s.hostWindow 17 (off + bs.length) = true) :
    ∃ t, exec (.hostMemoryAccess (.store off bs)) s = .next t ∧
      (Memory.wf s.mem = true →
        (∀ i a, i < bs.length → homePa [] (2 ^ 47 + off + i) = some a → slook s.reds (lineOf a) = none) →
        (∀ i a b, bs[i]? = some b → homePa [] (2 ^ 47 + off + i) = some a → t.byte a = b ∧ t.homeByte a = b) ∧
        (∀ a, (∀ i < bs.length, homePa [] (2 ^ 47 + off + i) ≠ some a) →
          t.byte a = s.byte a ∧ t.homeByte a = s.homeByte a)) := by
  refine ⟨s.hostStore off bs, congrArg Host.Outcome.next (if_pos (Bool.or_eq_true_iff.2 hw)), fun hwf hred => ?_⟩
  have hroom := hostWindow_room hw
  have shown := congrFun (hostStore_shown s off bs hred)
  constructor
  · intro i a b hb ha
    have hi : i < bs.length := (List.getElem?_eq_some_iff.1 hb).1
    have := (shown a).trans (putHome_shown_getElem _ bs s i a b hwf (hostPas_nodup off _ hroom) (getElem?_hostPas hroom hi ha) hb)
    exact Prod.mk.inj this
  · intro a ha
    have hout : a ∉ hostPas off bs.length := fun hm => by
      obtain ⟨i, hi, e⟩ := (mem_hostPas _ _ _).1 hm
      exact ha i hi e
    exact Prod.mk.inj ((shown a).trans (putHome_shown_of_not_mem _ bs s a hwf hout))

/-- Renewing leases changes the leases only. -/
theorem renewLeases_eq (s : State) (ls : List Nat) :
    ∃ l, ls.foldl State.renewLease s = { s with leases := l } := by
  induction ls generalizing s with
  | nil => exact ⟨s.leases, rfl⟩
  | cons x r ih =>
    obtain ⟨l, e⟩ := ih (s.renewLease x)
    exact ⟨l, by rw [List.foldl_cons, e]; rfl⟩

theorem firstBadLine_isSome (s : State) (ls : List Nat) :
    (s.firstBadLine (ls.map fun l => (l, l))).isSome = true ↔ ∃ l ∈ ls, l ∈ s.damaged ∨ l ∈ s.poison := by
  simp [State.firstBadLine]

/-- With no line of it in reduce state, a host load changes no memory, and returns the bytes as they are seen, or none where a
line is damaged or poisoned. -/
theorem hostLoad_result (s : State) (off n : Nat)
    (h : ∀ i a, i < n → homePa [] (2 ^ 47 + off + i) = some a → slook s.reds (lineOf a) = none) :
    (s.hostLoad off n).mem = s.mem ∧
      ((∃ a ∈ hostPas off n, lineOf a ∈ s.damaged ∨ lineOf a ∈ s.poison) → (s.hostLoad off n).hub.hostRead = none) ∧
      ((∀ a ∈ hostPas off n, lineOf a ∉ s.damaged ∧ lineOf a ∉ s.poison) →
        (s.hostLoad off n).hub.hostRead = some ((hostPas off n).map s.byte)) := by
  unfold State.hostLoad
  extract_lets pas ls places s1 bytes s2
  have hm : s.mergeLines ls = s := mergeLines_hostPas s off n h
  obtain ⟨l, e⟩ := renewLeases_eq s ls
  have e1 : s1 = { s with leases := l } := by simp only [s1, hm, e]
  have hbyte : s1.byte = s.byte := by rw [e1]; rfl
  have hbad : (s1.firstBadLine places).isSome = true ↔ ∃ a ∈ pas, lineOf a ∈ s.damaged ∨ lineOf a ∈ s.poison := by
    simp only [places, firstBadLine_isSome, e1, ls, mem_linesOfPas]
    exact ⟨fun ⟨_, ⟨a, ha, rfl⟩, hx⟩ => ⟨a, ha, hx⟩, fun ⟨a, ha, hx⟩ => ⟨_, ⟨a, ha, rfl⟩, hx⟩⟩
  refine ⟨?_, fun hx => if_pos (hbad.2 hx), fun hx => ?_⟩
  · calc s2.mem = s1.mem := markAll_mem _ _ _
      _ = s.mem := by rw [e1]
  · rw [← hbyte]
    refine if_neg fun hb => ?_
    obtain ⟨a, ha, hd | hp⟩ := hbad.1 hb
    · exact (hx a ha).1 hd
    · exact (hx a ha).2 hp

/-- A host load that a window serves, before any egress stop (R342, R368). -/
theorem hostLoad_next (s : State) (off m : Nat) (hw : s.hostWindow 16 (off + m) = true ∨ s.hostWindow 17 (off + m) = true)
    (heg : s.hub.egress = false) :
    ∃ t, exec (.hostMemoryAccess (.load off m)) s = .next t ∧
      ((∀ i a, i < m → homePa [] (2 ^ 47 + off + i) = some a → slook s.reds (lineOf a) = none) →
        t.mem = s.mem ∧
        ((∃ i a, i < m ∧ homePa [] (2 ^ 47 + off + i) = some a ∧ (lineOf a ∈ s.damaged ∨ lineOf a ∈ s.poison)) →
          t.hub.hostRead = none) ∧
        ((∀ i a, i < m → homePa [] (2 ^ 47 + off + i) = some a → lineOf a ∉ s.damaged ∧ lineOf a ∉ s.poison) →
          t.hub.hostRead = some ((List.range m).map fun i => s.byte ((homePa [] (2 ^ 47 + off + i)).getD 0)))) := by
  have hserved : (s.hostWindow 16 (off + m) || s.hostWindow 17 (off + m)) && !s.hub.egress := by
    rw [Bool.or_eq_true_iff.2 hw, heg]; rfl
  refine ⟨s.hostLoad off m, congrArg Host.Outcome.next (if_pos hserved), fun hred => ?_⟩
  obtain ⟨hmem, hbad, hgood⟩ := hostLoad_result s off m hred
  refine ⟨hmem, fun ⟨i, a, hi, ha, hx⟩ => hbad ⟨a, (mem_hostPas ..).2 ⟨i, hi, ha⟩, hx⟩, fun hx => ?_⟩
  have hroom := hostWindow_room hw
  rw [hgood fun a ha => by
    obtain ⟨i, hi, e⟩ := (mem_hostPas ..).1 ha
    exact hx i a hi e, hostPas_eq off m hroom, List.map_map]
  refine congrArg some (List.map_congr_left fun i hi => ?_)
  have := List.mem_range.1 hi
  rw [Nat.add_assoc, homePa_window _ (by omega), Option.getD_some, Function.comp_apply]

end Sys2Proof.Machine
end

section
/-! SUPPORT. The host links: what a damaged transaction, a link that goes down and one that returns come to. -/

namespace Sys2Proof.Machine

/-- HOST_TLP_RECEIVE (R450): an intact transaction changes nothing; a damaged one, on a link that is up, is recorded. -/
theorem hostTlpReceive_next (s : State) (h : Fin 2) (off : Nat) :
    ∃ t, exec (.hostTlpReceive h off false) s = .next s ∧ exec (.hostTlpReceive h off true) s = .next t ∧ t.mem = s.mem ∧
      (16 + h.val ∈ s.hub.hostDown → t = s) ∧
      (16 + h.val ∉ s.hub.hostDown →
        (sget {} s.hub.logs (16 + h.val)).noted (sget {} t.hub.logs (16 + h.val)) HOSTL (16 + h.val)
          (BitVec.ofNat 64 off) s.now) := by
  by_cases hd : 16 + h.val ∈ s.hub.hostDown
  · refine ⟨s, rfl, congrArg Host.Outcome.next (if_neg ?_), rfl, fun _ => rfl, fun hn => absurd hd hn⟩
    simp [hd]
  · refine ⟨_, rfl, congrArg Host.Outcome.next (if_pos ?_), rfl, fun hm => absurd hm hd, fun _ => ?_⟩
    · simp [hd]
    · exact hostRecord_noted s h HOSTL _ _ _

/-- HOST_LINK_DOWN (R451): a link that was up goes down, with one record, which interrupts. -/
theorem hostLinkDown_next (s : State) (h : Fin 2) :
    ∃ t, exec (.hostLinkDown h) s = .next t ∧ t.mem = s.mem ∧ (16 + h.val ∈ s.hub.hostDown → t = s) ∧
      (16 + h.val ∉ s.hub.hostDown → h = 0 ∨ Config.secondLink = true →
        16 + h.val ∈ t.hub.hostDown ∧ t.linkIn (16 + h.val) = false ∧
        (sget {} s.hub.logs (16 + h.val)).noted (sget {} t.hub.logs (16 + h.val)) HOSTL (16 + h.val) 0 s.now ∧
        bitOf (t.bar0 0x170000).toNat (16 + h.val) = true) := by
  by_cases hskip : (s.hub.hostDown.contains (16 + h.val) || (h == 1 && !Config.secondLink)) = true
  · refine ⟨s, congrArg Host.Outcome.next (if_pos hskip), rfl, fun _ => rfl, fun hn hl => ?_⟩
    have hsecond : h = 1 ∧ Config.secondLink = false := by simpa [hn] using hskip
    obtain ⟨h1, h2⟩ := hsecond
    rcases hl with h0 | hl
    · exact absurd (h0.symm.trans h1) (by decide)
    · exact absurd (hl.symm.trans h2) (by decide)
  · have hup : 16 + h.val ∉ s.hub.hostDown := fun hm => hskip (by simp [hm])
    refine ⟨_, congrArg Host.Outcome.next (if_neg hskip), rfl, fun hm => absurd hm hup, fun _ _ => ?_⟩
    generalize hu : ({ s with hub := { s.hub with hostDown := s.hub.hostDown ++ [16 + h.val] } } : State) = u
    have hdown : 16 + h.val ∈ (u.hostRecord h HOSTL 4 true 0).hub.hostDown := by
      rw [State.hostRecord, record_hostDown, ← hu]; simp
    refine ⟨hdown, ?_, ?_, ?_⟩
    · have : (u.hostRecord h HOSTL 4 true 0).linkIn (16 + h.val) = false := by
        simp only [State.linkIn, List.contains_iff_mem.2 hdown, Bool.not_true, Bool.false_and]
      exact this
    · have := hostRecord_noted u h HOSTL 4 true 0
      rw [← hu] at this ⊢
      exact this
    · rw [bitOf_bar0_histat _ _ (by omega)]
      exact getLsbD_histat_record u (16 + h.val) _ _ _ HOSTL 4 false 0 0 (by omega)

/-- HOST_LINK_RETURN on a link that did not go down (R450): nothing, or a record of a narrower or slower link. -/
theorem hostLinkReturn_up (s : State) (h : Fin 2) (narrow : Bool) (hup : 16 + h.val ∉ s.hub.hostDown) :
    ∃ t, exec (.hostLinkReturn h narrow) s = .next t ∧ t.mem = s.mem ∧ (narrow = false → t = s) ∧
      (narrow = true → s.isReady (.host h) = true →
        (sget {} s.hub.logs (16 + h.val)).noted (sget {} t.hub.logs (16 + h.val)) LDEG (16 + h.val) 0 s.now) := by
  refine ⟨_, congrArg Host.Outcome.next (if_neg (by simp [hup])), ?_⟩
  by_cases hn : (narrow && s.isReady (.host h)) = true
  · rw [if_pos hn]
    have hnarrow : narrow = true := (Bool.and_eq_true_iff.1 hn).1
    exact ⟨rfl, fun hf => absurd (hnarrow.symm.trans hf) (by decide), fun _ _ => hostRecord_noted ..⟩
  · rw [if_neg hn]
    exact ⟨rfl, fun _ => rfl, fun h1 h2 => absurd (Bool.and_eq_true_iff.2 ⟨h1, h2⟩) hn⟩

/-- An enabled bit of HISTAT is 1, as the registers show it. -/
theorem bar0_histat_and_himask (s : State) :
    s.bar0 0x170000 &&& s.bar0 0x170008 ≠ 0 ↔ s.hub.histat &&& s.hub.himask ≠ 0 := by
  rw [bar0_histat, bar0_himask, ← BitVec.setWidth_and, not_iff_not]
  refine ⟨fun h => BitVec.eq_of_toNat_eq ?_, fun h => by rw [h]; rfl⟩
  have hn := congrArg BitVec.toNat h
  have hlt := (s.hub.histat &&& s.hub.himask).isLt
  rwa [BitVec.toNat_setWidth, Nat.mod_eq_of_lt (by omega)] at hn

/-- A host link that was down is up: it trains, and the primary one's return interrupts if an enabled bit of HISTAT is 1. -/
def State.linkBack (s : State) (h : Fin 2) : State :=
  ({ s with hub := { s.hub with
      hostDown := s.hub.hostDown.filter (· ≠ 16 + h.val)
      interrupts := if 16 + h.val = 16 ∧ s.hub.histat &&& s.hub.himask ≠ 0 then s.hub.interrupts + 1
        else s.hub.interrupts } } : State).train (16 + h.val)

theorem linkBack_hostDown (s : State) (h : Fin 2) : 16 + h.val ∉ (s.linkBack h).hub.hostDown := by
  simp [State.linkBack, State.train]

/-- HOST_LINK_RETURN on a link that was down (R451): a narrower or slower one comes back with a record. -/
theorem hostLinkReturn_down (s : State) (h : Fin 2) (narrow : Bool) (hdown : 16 + h.val ∈ s.hub.hostDown) :
    ∃ t, exec (.hostLinkReturn h narrow) s = .next t ∧ t.mem = s.mem ∧ 16 + h.val ∉ t.hub.hostDown ∧
      (narrow = true →
        (sget {} s.hub.logs (16 + h.val)).noted (sget {} t.hub.logs (16 + h.val)) LDEG (16 + h.val) 0 s.now) ∧
      (narrow = false → t.hub.interrupts =
        if h = 0 ∧ s.bar0 0x170000 &&& s.bar0 0x170008 ≠ 0 then s.hub.interrupts + 1 else s.hub.interrupts) := by
  have hstep : exec (.hostLinkReturn h narrow) s =
      .next (if narrow then (s.linkBack h).hostRecord h LDEG 1 true 0 else s.linkBack h) :=
    congrArg Host.Outcome.next (if_pos (by simp [hdown]))
  cases narrow with
  | true =>
    refine ⟨_, hstep, rfl, ?_, fun _ => hostRecord_noted (s.linkBack h) h LDEG 1 true 0, fun hf => absurd hf (by decide)⟩
    rw [if_pos rfl, State.hostRecord, record_hostDown]
    exact linkBack_hostDown s h
  | false =>
    refine ⟨_, hstep, rfl, linkBack_hostDown s h, fun hf => absurd hf (by decide), fun _ => ?_⟩
    have h0 : h = 0 ↔ 16 + h.val = 16 := by omega
    simp only [bar0_histat_and_himask, h0]
    rfl

end Sys2Proof.Machine
end

section
/-! SUPPORT. What a fence leaves: a fenced unit's readiness bit is 0, and its losses set no bit. -/

namespace Sys2Proof.Machine

/-! ## Reports and adds leave the readiness map -/

theorem foldl_ready {α : Type} (f : State → α → State) (h : ∀ s x, (f s x).hub.ready = s.hub.ready) (l : List α)
    (s : State) : (l.foldl f s).hub.ready = s.hub.ready :=
  foldl_keeps f (fun s : State => s.hub.ready) h l s

theorem sendAdd_eq (s : State) (b : Sender) (h : Word) (v : Nat) : ∃ l, s.sendAdd b h v = { s with adds := l } := by
  unfold State.sendAdd
  split
  · exact ⟨s.adds, rfl⟩
  · exact ⟨_, rfl⟩

/-- Completion adds go on their way, and nothing else changes. -/
theorem postAdds_eq (s : State) (u : UnitId) (l : List (Word × Nat)) : ∃ a, s.postAdds u l = { s with adds := a } := by
  unfold State.postAdds
  induction l generalizing s with
  | nil => exact ⟨s.adds, rfl⟩
  | cons p r ih =>
    obtain ⟨a, e⟩ := sendAdd_eq s (.unit u) p.1 p.2
    obtain ⟨b, e'⟩ := ih (s.postAdd u p.1 p.2)
    exact ⟨b, by rw [List.foldl_cons, e', State.postAdd, e]⟩

/-- Records whose iterations have all ended leave their walker, and send adds: nothing else changes. -/
theorem settleRecs_eq (s : State) (d : Nat) : ∃ k a, s.settleRecs d = { s with kdies := k, adds := a } := by
  unfold State.settleRecs
  extract_lets k
  obtain ⟨a, e⟩ := postAdds_eq (s.setKdie d { k with recs := k.recs.filter fun r => !k.over r }) (.nest (Fin.ofNat 8 d))
    ((k.recs.filter k.over).map fun r => (r.endH, r.endValue))
  exact ⟨_, a, e⟩

@[simp] theorem lostCommand_ready (s : State) (n : Nat) (u : UnitId) (addr k : Word) :
    (s.lostCommand n u addr k).hub.ready = s.hub.ready := by
  obtain ⟨l, e⟩ := sendAdd_eq s (.unit u) k (2 ^ 32)
  simp only [State.lostCommand, State.postAdd, record_ready, e]

@[simp] theorem partDone_ready (s : State) (id n v : Nat) : (s.partDone id n v).hub.ready = s.hub.ready := by
  unfold State.partDone
  split <;> rfl

/-! ## What each kind of sequencer loses (R372) -/

theorem dropRecs_ready (s : State) (d : Nat) : (s.dropRecs d).hub.ready = s.hub.ready := by
  unfold State.dropRecs
  extract_lets k
  rw [show ∀ u : State, (u.settleRecs d).hub.ready = u.hub.ready from fun u => by
    obtain ⟨k, a, e⟩ := settleRecs_eq u d; rw [e]]
  exact foldl_ready _ (fun _ _ => record_ready ..) _ _

theorem dropKparts_ready (s : State) (d : Nat) : (s.dropKparts d).hub.ready = s.hub.ready := rfl

theorem dropRuns_ready (s : State) (d : Fin 8) : (s.dropRuns d).hub.ready = s.hub.ready := by
  unfold State.dropRuns
  extract_lets u a s1 s2 s3
  have h1 : s1.hub.ready = s.hub.ready := rfl
  have h2 : s2.hub.ready = s1.hub.ready := foldl_ready _ (fun _ _ => lostCommand_ready ..) _ _
  have h3 : s3.hub.ready = s2.hub.ready := foldl_ready _ (fun _ _ => lostCommand_ready ..) _ _
  rw [← h1, ← h2, ← h3]
  refine foldl_ready _ (fun t i => ?_) _ _
  exact (foldl_ready _ (fun _ _ => lostCommand_ready ..) _ _).trans rfl

theorem failParts_ready (s : State) (n : Nat) (report : CtxCmd → State → State)
    (h : ∀ k s, (report k s).hub.ready = s.hub.ready) : (s.failParts n report).hub.ready = s.hub.ready := by
  unfold State.failParts
  refine foldl_ready _ (fun s k => ?_) _ s
  split
  · exact partDone_ready ..
  · exact (h k _).trans (partDone_ready ..)

theorem dropReplays_ready (s : State) (h : Fin 2) : (s.dropReplays h).hub.ready = s.hub.ready :=
  foldl_ready _ (fun _ _ => lostCommand_ready ..) _ _

/-! ## The fence itself (R369) -/

theorem clearReady_isReady (s : State) (u : UnitId) : (s.clearReady u).isReady u = false := by
  unfold State.clearReady
  by_cases h : s.isReady u = true
  · rw [if_pos h]; simp [State.isReady]
  · rw [if_neg h]; simpa using h

theorem fenceUnit_isReady (s : State) (u : UnitId) (synd : Nat) (addr info : Word) :
    (s.fenceUnit u synd addr info).isReady u = false := by
  unfold State.fenceUnit
  extract_lets p was s1 s2 h
  have hready : h.ready = s1.hub.ready := by
    have h2 : s2.hub.ready = s1.hub.ready := record_ready ..
    obtain ⟨x, m, e⟩ := raise_shape s2.hub 22
    simp only [h]
    split
    · rw [e]; exact h2
    · exact h2
  have hc := clearReady_isReady s u
  unfold State.isReady at hc ⊢
  exact (congrArg (·.contains u) hready).trans hc

theorem isReady_of_ready_eq {s t : State} (u : UnitId) (h : t.hub.ready = s.hub.ready) : t.isReady u = s.isReady u := by
  rw [State.isReady, h, State.isReady]

/-- A sequencer that is fenced does not read ready, whatever it loses. -/
theorem fence_sequenced_isReady (s : State) (u : UnitId) (synd : Nat) (addr info : Word) (hs : sequenced u = true) :
    (s.fence u synd addr info).isReady u = false := by
  have hu := fenceUnit_isReady s u synd addr info
  unfold State.fence
  cases u with
  | nest d => exact (isReady_of_ready_eq _ ((dropKparts_ready _ _).trans (dropRecs_ready _ _))).trans hu
  | heap d => exact hu
  | awl d => exact (isReady_of_ready_eq _ (dropRuns_ready _ _)).trans hu
  | ccu n => exact (isReady_of_ready_eq _ (failParts_ready _ _ _ fun _ _ => record_ready ..)).trans hu
  | graph h =>
    dsimp only
    split
    · exact (isReady_of_ready_eq _ (dropReplays_ready _ _)).trans hu
    · exact hu
  | _ => exact absurd hs (by simp [sequenced])

end Sys2Proof.Machine
end

section
/-! SUPPORT. Single faults of what is no line: what each leaves, and what an uncorrectable one comes to. -/

namespace Sys2Proof.Machine

/-! ## Lines, tiles, tags and flits (R403, R410, R438, R444, R450) -/

theorem strikeLine_mem (s : State) (pa : Nat) (p : LinePlace) (ok : Bool) : (s.strikeLine pa p ok).mem = s.mem := by
  unfold State.strikeLine
  extract_lets l u
  split
  · rfl
  split
  · exact corrected_mem ..
  split <;> rfl

theorem strikeTile_mem (s : State) (c l : Nat) (ok : Bool) : (s.strikeTile c l ok).mem = s.mem := by
  unfold State.strikeTile
  extract_lets k
  split
  · rfl
  split
  · exact corrected_mem ..
  split <;> rfl

theorem strikeTag_hub (s : State) (pa : Nat) (p : LinePlace) : ∃ h, s.strikeTag pa p = { s with hub := h } := by
  unfold State.strikeTag
  split
  · exact ⟨_, corrected_eq ..⟩
  · exact ⟨s.hub, rfl⟩

theorem strikeFlit_hub (s : State) (u : UnitId) : ∃ h, s.strikeFlit u = { s with hub := h } := by
  unfold State.strikeFlit
  extract_lets p
  split
  · exact ⟨_, corrected_eq ..⟩
  · exact ⟨s.hub, rfl⟩

theorem strikeChannel_hub (s : State) (plane q : Nat) (again : Bool) :
    ∃ h, s.strikeChannel plane q again = { s with hub := h } := by
  unfold State.strikeChannel
  extract_lets key u l x y
  split
  · exact ⟨s.hub, rfl⟩
  · obtain ⟨h, e⟩ := strikeFlit_hub
      { s with hub := { s.hub with channels := sput s.hub.channels key (if l.train then l else y) } } u
    exact ⟨h, e⟩

/-- What flits on links leave: memory and cores. -/
def State.memCores (s : State) : List Host.Cell × SMap Core := (s.mem, s.cores)

theorem takeAcks_memCores (s : State) (n : Nat) : (s.takeAcks n).memCores = s.memCores := by
  unfold State.takeAcks
  extract_lets h done
  split
  · rfl
  split <;> rfl

theorem corrected_memCores (s : State) (d uk ui : Nat) : (s.corrected d uk ui).memCores = s.memCores := by
  rw [corrected_eq]; rfl

theorem setLink_memCores (s : State) (n m : Nat) (f : Link → Link) : (s.setLink n m f).memCores = s.memCores := rfl

/-- A flit that arrives changes what links, gateways and destinations hold. -/
theorem flitArrives_memCores (s : State) (n m : Nat) (crcOk room : Bool) :
    (s.flitArrives n m crcOk room).memCores = s.memCores := by
  unfold State.flitArrives
  split
  · rfl
  split
  · rfl
  extract_lets x fresh s1 s2
  have h2 : s2.memCores = s.memCores := by
    simp only [s2, s1, setLink_memCores]
    split <;> rfl
  clear_value s2
  split
  · exact h2
  split
  · exact h2
  split
  · rw [corrected_memCores, setLink_memCores, setLink_memCores, h2]
  extract_lets s3
  have h3 : s3.memCores = s.memCores := by simp only [s3, setLink_memCores, h2]
  clear_value s3
  split
  · exact h3
  split
  · exact (takeAcks_memCores ..).trans h3
  · exact (takeAcks_memCores ..).trans h3

/-! ## Cores (R359, R387, R405) -/

theorem cleared_running (c : Core) (y : StrandId) : (c.cleared.strand y).running = false := by
  cases y <;> rfl

theorem stopCore_core (s : State) (c : Nat) (lost : Bool) : (s.stopCore c lost).core c = (s.core c).cleared := by
  unfold State.stopCore
  exact core_setCore ..

theorem settleRecs_core (s : State) (d c : Nat) : (s.settleRecs d).core c = s.core c := by
  obtain ⟨k, a, e⟩ := settleRecs_eq s d; rw [e]; rfl

/-- What a core's work comes to leaves its strands. -/
theorem loseWork_strand (s : State) (c synd : Nat) (y : StrandId) :
    ((s.loseWork c synd).core c).strand y = (s.core c).strand y := by
  unfold State.loseWork
  extract_lets k
  split
  · rw [core_setCore]; cases y <;> rfl
  · rw [settleRecs_core, setKdie_core, core_setCore]; cases y <;> rfl
  · rfl

/-- A core whose work is abandoned runs no strand (R327, R387). -/
theorem abandon_running (s : State) (c synd : Nat) (y : StrandId) :
    (((s.abandon c synd).core c).strand y).running = false := by
  rw [State.abandon, loseWork_strand, stopCore_core]
  exact cleared_running ..

theorem strikeCore_result (s : State) (x location : Nat) (ok : Bool) :
    (ok = true → (s.strikeCore x location ok).cores = s.cores ∧ (s.strikeCore x location ok).mem = s.mem) ∧
      (ok = false → s.silent (dieOf x) 0 (x % 64) = false → (s.core x).acted = false →
        ∀ y, (((s.strikeCore x location ok).core x).strand y).running = false) := by
  unfold State.strikeCore
  refine ⟨fun h => ?_, fun h hs ha y => ?_⟩
  · rw [if_pos h]
    exact ⟨corrected_cores .., corrected_mem ..⟩
  · rw [if_neg (by simp [h]), if_neg (by simp [hs, ha])]
    exact abandon_running ..

/-- A wrong output freezes a core at a word of a running strand, or adds a mismatch at the word where it is frozen. -/
theorem strikeLogic_result (s : State) (x : Nat) :
    ((s.strikeLogic x).core x).mops = (s.core x).mops ∧
      ((s.core x).frozen = none → (∃ y, ((s.core x).strand y).running = true) →
        ∃ y, ((s.core x).strand y).running = true ∧
          ((s.strikeLogic x).core x).frozen = some (y, ((s.core x).strand y).pc, 1)) ∧
      (∀ y i m, (s.core x).frozen = some (y, i, m) → ((s.strikeLogic x).core x).frozen = some (y, i, m + 1)) := by
  unfold State.strikeLogic
  extract_lets k
  split
  · next t i n hf =>
    rw [core_setCore]
    refine ⟨rfl, fun h => ?_, fun y j m h => ?_⟩
    · exact absurd (h.symm.trans hf) (by simp)
    · obtain ⟨rfl, rfl, rfl⟩ : t = y ∧ i = j ∧ n = m := by simpa using hf.symm.trans h
      rfl
  · next hf =>
    have hmem (y : StrandId) : y ∈ allStrands := by cases y <;> decide
    split
    · next hnone =>
      refine ⟨rfl, fun _ ⟨y, hy⟩ => ?_, fun y j m h => absurd (hf.symm.trans h) (by simp)⟩
      exact absurd (List.mem_filter.2 ⟨hmem y, hy⟩) (by rw [hnone]; simp)
    · next t ts hsome =>
      extract_lets x'
      rw [core_setCore]
      refine ⟨rfl, fun _ _ => ⟨x', ?_, rfl⟩, fun y j m h => absurd (hf.symm.trans h) (by simp)⟩
      have hx : x' ∈ t :: ts := by
        have hlt : s.free % (ts.length + 1) < (t :: ts).length := Nat.mod_lt _ (Nat.succ_pos _)
        simp only [x', List.getD_eq_getElem _ _ hlt, List.getElem_mem]
      rw [← hsome] at hx
      exact (List.mem_filter.1 hx).2

/-! ## Counters, heaps, candidate memory and reduce state (R406, R413, R429, R433) -/

theorem strikeCounter_uncorrectable (s : State) (a : Word) {ok : Bool} (hok : ok = false) (ha : handleOk a = true)
    (hm : hModule a = s.hub.module)
    (hs : s.silent (counterUnit a).1 (counterUnit a).2.1 (counterUnit a).2.2 = false) :
    (s.strikeCounter a ok).counterBad a = true ∧ (s.strikeCounter a ok).counters = s.counters := by
  subst hok
  unfold State.strikeCounter
  extract_lets u
  rw [if_neg (by simp [ha, hm]), if_neg (by decide)]
  split
  · next h => exact ⟨by simpa [u, hs] using h, rfl⟩
  · exact ⟨by simp [State.counterBad], rfl⟩

theorem strikeHeap_uncorrectable (s : State) (d i : Nat) {ok : Bool} (hok : ok = false) {e : HeapEntry}
    (he : (s.kdie d).heap[i]? = some e) : ((s.strikeHeap d i ok).kdie d).heap[i]? = some { e with bad := true } := by
  subst hok
  have hi := (List.getElem?_eq_some_iff.1 he).1
  simp only [State.strikeHeap, he, Bool.false_eq_true, if_false, kdie_setKdie]
  exact List.getElem?_set_self hi

theorem strikeCandidate_heap (s : State) (d j : Nat) (ok : Bool) :
    ((s.strikeCandidate d j ok).kdie d).heap = (s.kdie d).heap ∧ (s.strikeCandidate d j ok).mem = s.mem := by
  unfold State.strikeCandidate
  extract_lets a
  split
  · exact ⟨rfl, rfl⟩
  split
  · exact ⟨by rw [corrected_kdie], corrected_mem ..⟩
  · exact ⟨by rw [State.setAwl, kdie_setKdie], rfl⟩

theorem strikePartial_uncorrectable (s : State) (pa : Nat) {ok : Bool} (hok : ok = false) {r : RedLine}
    (hr : slook s.reds (lineOf pa) = some r) :
    slook (s.strikePartial pa ok).reds (lineOf pa) = some { r with bad := true } := by
  subst hok
  simp [State.strikePartial, hr]

/-! ## T-dies (R275, R358, R359, R415) -/

theorem drew_tdie (s : State) (n : Nat) : s.drew.tdie n = s.tdie n := rfl

/-- Executions that run at a struck T-die stop, to be repeated. -/
theorem strikeAttention_running (s : State) (n : Fin 22) (h : tdieOk s.hub.expanders n = true) :
    ∀ e ∈ ((s.strikeAttention n).tdie n).entries, e.running = false := by
  unfold State.strikeAttention
  extract_lets t e
  rw [if_pos h]
  intro x hx
  rw [drew_tdie, corrected_tdie, tdie_setTdie] at hx
  obtain ⟨y, _, rfl⟩ := List.mem_map.1 hx
  split
  · rfl
  · exact Bool.eq_false_iff.2 ‹_›

theorem strikeContext_frame (s : State) (n : Fin 22) (ctx : Nat) (ok : Bool) :
    (s.strikeContext n ctx ok).mem = s.mem ∧ (s.strikeContext n ctx ok).cores = s.cores := by
  unfold State.strikeContext
  extract_lets t
  split
  · exact ⟨rfl, rfl⟩
  split
  · exact ⟨corrected_mem .., corrected_cores ..⟩
  split
  · exact ⟨rfl, rfl⟩
  · exact ⟨rfl, rfl⟩

/-- A signature word that cannot be corrected counts as an intersection. -/
theorem strikeSignature_uncorrectable (s : State) (n : Fin 22) (i : Nat) {ok : Bool} (hok : ok = false) {e : TEntry}
    (he : (s.tdie n).entries[i]? = some e) (hrun : e.running = true) :
    ((s.strikeSignature n i ok).tdie n).entries[i]? =
      some { e with rsig := BitVec.allOnes 512, wsig := BitVec.allOnes 512 } := by
  subst hok
  have hi := (List.getElem?_eq_some_iff.1 he).1
  simp only [State.strikeSignature, he, hrun, Bool.not_true, Bool.false_eq_true, if_false, tdie_setTdie]
  exact List.getElem?_set_self hi

/-! ## Sequencers and the egress stop (R358, R359, R368) -/

theorem noteMismatch_mismatched (h : Hub) (u : UnitId) (n : Nat) : (h.noteMismatch u n).mismatched u = n := by
  simp [Hub.mismatched, Hub.noteMismatch]

theorem mismatched_congr {h k : Hub} (u : UnitId) (e : h.mismatches = k.mismatches) : h.mismatched u = k.mismatched u := by
  rw [Hub.mismatched, e, Hub.mismatched]

/-- A sequencer's third mismatch on one word fences it, and one on another word is its first. -/
theorem strikeUnit_sequenced (s : State) (u : UnitId) (again : Bool) (hs : sequenced u = true) (hr : s.isReady u = true) :
    (again = true → s.hub.mismatched u = 2 → (s.strikeUnit u again).isReady u = false) ∧
      (again = false → (s.strikeUnit u again).hub.mismatched u = 1) := by
  unfold State.strikeUnit
  extract_lets p n s1
  rw [if_neg (by simp [hr]), if_pos hs]
  constructor
  · intro ha h2
    rw [if_pos (by simp [n, ha, h2])]
    exact fence_sequenced_isReady _ u _ _ _ hs
  · intro ha
    have hn : n = 1 := by simp [n, ha]
    rw [if_neg (by omega), mismatched_congr u (corrected_mismatches ..)]
    exact (noteMismatch_mismatched ..).trans hn

theorem stopEgress_result (s : State) (h : Fin 2) : (s.stopEgress h).hub.egress = true ∧
    bitOf ((s.stopEgress h).bar0 0x170000).toNat 24 = true ∧ (s.stopEgress h).mem = s.mem := by
  refine ⟨rfl, ?_, rfl⟩
  rw [bitOf_bar0_histat _ _ (by decide)]
  exact getLsbD_histat_raise _ 24 (by decide)

end Sys2Proof.Machine
end

section
/-! The statement about what the host does and what single faults come to. -/

namespace Sys2Proof.Machine

/-- Settles O60, event by event: a register write by what the registers then read, a store and a load by the bytes that are seen
through the window, a link by its record, and each single fault by what it strikes. -/
theorem hostEvents : Obligations.HostEvents := by
  intro s n h g k c off w link logged writes
  refine ⟨fun hr => ?_, fun bs hw => hostStore_next s off bs hw, fun m hw heg => hostLoad_next s off m hw heg,
    hostTlpReceive_next s h off, hostLinkDown_next s h, fun narrow => ?_, fun f => ?_⟩
  · have write (o : Nat) (p : State → Prop) (hp : p (s.writeRegister o w)) : writes o p := registerWrite_next s o w p hr hp
    exact ⟨write _ _ trivial, write _ _ (glistWrite_reads s g k w _ rfl), write _ _ (histatWrite_reads s w _ rfl),
      write _ _ (himaskWrite_reads s w _ rfl), write _ _ (imageWrite_reads s c w _ rfl), write _ _ (argWrite_reads s c w _ rfl),
      write _ _ (paramWrite_reads s g k w _ rfl), write _ _ (gstatWrite_clears s w _ rfl), write _ _ (fdoorWrite_reads s w _ rfl),
      fun ho => congrArg Host.Outcome.next ((if_pos hr).trans (writeRegister_ignored s off w ho)),
      gdefWrite_next s g k w hr, logtailWrite_next s n w hr⟩
  · by_cases hd : link ∈ s.hub.hostDown
    · obtain ⟨t, hstep, hmem, hback, hlog, hintr⟩ := hostLinkReturn_down s h narrow hd
      exact ⟨t, hstep, hmem, fun hu => absurd hd hu, fun _ => ⟨hback, hlog, hintr⟩⟩
    · obtain ⟨t, hstep, hmem, hsame, hlog⟩ := hostLinkReturn_up s h narrow hd
      exact ⟨t, hstep, hmem, fun _ => ⟨hsame, hlog⟩, fun hu => absurd hu hd⟩
  · cases f with
    | line pa p ok => exact ⟨_, rfl, strikeLine_mem s pa p ok⟩
    | tile c l ok => exact ⟨_, rfl, strikeTile_mem s c l ok⟩
    | coreState x location ok => exact ⟨_, rfl, strikeCore_result s x location ok⟩
    | cacheTag pa p =>
      obtain ⟨_, e⟩ := strikeTag_hub s pa p
      exact ⟨_, congrArg Host.Outcome.next e, rfl, rfl, rfl, rfl⟩
    | counter a ok => exact ⟨_, rfl, strikeCounter_uncorrectable s a⟩
    | heapEntry d i ok => exact ⟨_, rfl, fun hok _ he => ⟨_, strikeHeap_uncorrectable s d i hok he, rfl⟩⟩
    | candidate d j ok => exact ⟨_, rfl, strikeCandidate_heap s d j ok⟩
    | contextEntry n ctx ok => exact ⟨_, rfl, strikeContext_frame s n ctx ok⟩
    | signature d i ok =>
      exact ⟨_, rfl, fun hok _ he hrun => ⟨_, strikeSignature_uncorrectable s d i hok he hrun, by simp⟩⟩
    | reducePartial pa ok => exact ⟨_, rfl, fun hok _ hr => ⟨_, strikePartial_uncorrectable s pa hok hr, rfl, rfl⟩⟩
    | logic x => exact ⟨_, rfl, strikeLogic_result s x⟩
    | attention d => exact ⟨_, rfl, strikeAttention_running s d⟩
    | compare u again => exact ⟨_, rfl, strikeUnit_sequenced s u again⟩
    | flit n m => exact ⟨_, rfl, Prod.mk.inj (flitArrives_memCores s n m false true)⟩
    | channelFlit plane q again =>
      obtain ⟨_, e⟩ := strikeChannel_hub s plane q again
      exact ⟨_, congrArg Host.Outcome.next e, rfl, rfl⟩
    | hostFlit h =>
      obtain ⟨_, e⟩ := strikeFlit_hub s (.host h)
      exact ⟨_, congrArg Host.Outcome.next e, rfl, rfl⟩
    | egress h => exact ⟨_, rfl, stopEgress_result s h⟩

end Sys2Proof.Machine
end

section
/-! SUPPORT. What the accessors read of a core at reset, and the statement about the machine after module reset. -/

namespace Sys2Proof.Machine

theorem reset_core (c : Nat) : State.reset.core c = {} := rfl

theorem strand_default (k : StrandId) : ({} : Core).strand k = {} := by cases k <;> rfl

theorem headVal_default (p k : StrandId) : ({} : Core).headVal p k = 0 := rfl

/-- Every scalar register of a core at reset reads 0: none is listed, and the queues that x24 to x27 stand for are empty. -/
theorem reg_default (k : StrandId) (r : Nat) : ({} : Core).reg k r = 0 := by
  unfold Core.reg
  split
  · rfl
  split
  · exact headVal_default ..
  · rw [strand_default]; rfl

/-- Settles O5: nothing is listed, so every accessor reads its default. -/
theorem resetState : Obligations.ResetState := by
  refine ⟨reset_mem_wf, rfl, rfl, rfl, fun _ => rfl, fun _ => rfl, fun c => ?_⟩
  rw [reset_core]
  refine ⟨rfl, rfl, rfl, rfl, rfl, rfl, rfl, rfl, rfl, rfl, rfl, rfl, rfl, rfl, fun _ => rfl, fun j => ?_⟩
  rw [strand_default]
  exact ⟨rfl, rfl, rfl, reg_default j, fun _ => rfl⟩

end Sys2Proof.Machine
end

section
/-! SUPPORT. Power, the verification of an image, and the statement about them. -/

namespace Sys2Proof.Machine

/-! ## The parts of a verification (R22, R27, R376) -/

@[simp] theorem raise_boot (h : Hub) (i : Nat) : (h.raise i).boot = h.boot := by
  obtain ⟨x, n, e⟩ := raise_shape h i; rw [e]

theorem verifyFails_boot (s : State) (reason img : Nat) : (s.verifyFails reason img).hub.boot =
    { s.hub.boot with img := img, go := false, reason := reason, tries := min (s.hub.boot.tries + 1) 255 } :=
  raise_boot _ 25

/-- The security version is that of the image, and each hub has its identity keys anew. -/
theorem runImage_boot (s : State) (img : Nat) (image : List Byte) : (s.runImage img image).hub.boot =
    { s.hub.boot with
      img := img, go := false, secver := num image 8 4
      keys := [identityKeys (num image 8 4) 0, identityKeys (num image 8 4) 1] } := by
  unfold State.runImage
  dsimp only
  split
  · rfl
  · rfl

/-! ## The outcomes of a verification (R22, R24) -/

theorem verified_disagree (s : State) (image : List Byte) (reasons : List Nat) (img : Nat) :
    s.verified image reasons false img = s.verifyFails 8 6 := rfl

theorem verified_passes (s : State) (image : List Byte) {reasons : List Nat} (img : Nat) (h : reasons = []) :
    s.verified image reasons true img = s.runImage img image := by
  rw [h]; rfl

/-- An image with reasons against it fails with one of them, and the hub waits for the host's. -/
theorem verified_wrong (s : State) (image : List Byte) {reasons : List Nat} (img : Nat) (h : reasons ≠ []) :
    ∃ r ∈ reasons, s.verified image reasons true img = s.drew.verifyFails r 3 := by
  obtain ⟨r, rs, rfl⟩ := List.exists_cons_of_ne_nil h
  have hi : s.free % (rs.length + 1) < (r :: rs).length := Nat.mod_lt _ (Nat.succ_pos _)
  refine ⟨(r :: rs).getD (s.free % (rs.length + 1)) r, ?_, rfl⟩
  rw [List.getD_eq_getElem _ _ hi]
  exact List.getElem_mem hi

theorem flashImageVerificationEnd_next (s : State) (uce agree : Bool) (h : s.hub.boot.img = 1) :
    exec (.flashImageVerificationEnd uce agree) s = .next (s.verified s.hub.boot.flash
      (if uce then [7] else verifyReasons Config.flashSize s.hub.boot.flash) agree 2) :=
  congrArg Host.Outcome.next (if_pos h)

theorem hostImageVerificationEnd_next (s : State) (agree : Bool) (h : s.hub.boot.img = 4) :
    exec (.hostImageVerificationEnd agree) s = .next (s.verified s.hub.boot.staged
      (verifyReasons (min s.hub.boot.blen 4194304) s.hub.boot.staged) agree 5) :=
  congrArg Host.Outcome.next (if_pos h)

/-- Where the hub dies disagree, neither image runs: IMG 6 with REASON 8. -/
theorem verifyFails_disagree (s : State) :
    (s.verifyFails 8 6).hub.boot.img = 6 ∧ (s.verifyFails 8 6).hub.boot.reason = 8 := by
  rw [verifyFails_boot]; exact ⟨rfl, rfl⟩

/-- FLASH_IMAGE_VERIFICATION_END in IMG 1. -/
theorem flashImageVerificationEnd_outcomes (s : State) (h : s.hub.boot.img = 1) :
    let b := s.hub.boot
    let v := num b.flash 8 4
    (∀ uce, ∃ t, exec (.flashImageVerificationEnd uce false) s = .next t ∧ t.hub.boot.img = 6 ∧ t.hub.boot.reason = 8) ∧
    (∃ t r, exec (.flashImageVerificationEnd true true) s = .next t ∧ t.hub.boot = r ∧ r.img = 3 ∧ r.reason = 7 ∧
      r.tries = min (b.tries + 1) 255) ∧
    (verifyReasons Config.flashSize b.flash = [] → ∃ t, exec (.flashImageVerificationEnd false true) s = .next t ∧
      t.hub.boot = { b with img := 2, go := false, secver := v, keys := [identityKeys v 0, identityKeys v 1] }) ∧
    (verifyReasons Config.flashSize b.flash ≠ [] → ∃ t, exec (.flashImageVerificationEnd false true) s = .next t ∧
      t.hub.boot.img = 3 ∧ t.hub.boot.reason ∈ verifyReasons Config.flashSize b.flash) := by
  refine ⟨fun uce => ⟨_, flashImageVerificationEnd_next s uce false h, verifyFails_disagree s⟩, ?_, fun hpass => ?_,
    fun hwrong => ?_⟩
  · obtain ⟨r, hr, e⟩ := verified_wrong s s.hub.boot.flash 2 (List.cons_ne_nil 7 [])
    obtain rfl := List.mem_singleton.1 hr
    refine ⟨_, _, (flashImageVerificationEnd_next s true true h).trans (congrArg _ e), verifyFails_boot .., rfl, rfl, rfl⟩
  · exact ⟨_, (flashImageVerificationEnd_next s false true h).trans (congrArg _ (verified_passes s _ 2 hpass)),
      runImage_boot ..⟩
  · obtain ⟨r, hr, e⟩ := verified_wrong s s.hub.boot.flash 2 hwrong
    refine ⟨_, (flashImageVerificationEnd_next s false true h).trans (congrArg _ e), ?_⟩
    rw [verifyFails_boot]
    exact ⟨rfl, hr⟩

/-- HOST_IMAGE_VERIFICATION_END in IMG 4. -/
theorem hostImageVerificationEnd_outcomes (s : State) (h : s.hub.boot.img = 4) :
    let b := s.hub.boot
    let v := num b.staged 8 4
    let wrong := verifyReasons (min b.blen 4194304) b.staged
    (∃ t, exec (.hostImageVerificationEnd false) s = .next t ∧ t.hub.boot.img = 6 ∧ t.hub.boot.reason = 8) ∧
    (wrong = [] → ∃ t, exec (.hostImageVerificationEnd true) s = .next t ∧
      t.hub.boot = { b with img := 5, go := false, secver := v, keys := [identityKeys v 0, identityKeys v 1] }) ∧
    (wrong ≠ [] → ∃ t, exec (.hostImageVerificationEnd true) s = .next t ∧ t.hub.boot.img = 3 ∧
      t.hub.boot.go = false ∧ t.hub.boot.reason ∈ wrong) := by
  refine ⟨⟨_, hostImageVerificationEnd_next s false h, verifyFails_disagree s⟩, fun hpass => ?_, fun hwrong => ?_⟩
  · exact ⟨_, (hostImageVerificationEnd_next s true h).trans (congrArg _ (verified_passes s _ 5 hpass)), runImage_boot ..⟩
  · obtain ⟨r, hr, e⟩ := verified_wrong s s.hub.boot.staged 5 hwrong
    refine ⟨_, (hostImageVerificationEnd_next s true h).trans (congrArg _ e), ?_⟩
    rw [verifyFails_boot]
    exact ⟨rfl, rfl, hr⟩

/-! ## Power (R24, R374) -/

/-- Power good without power, or with an image underway: everything is at reset but flash and the telemetry store. -/
theorem powerOn_fresh (s : State) (h : ¬ (s.powered = true ∧ s.hub.boot.img = 0)) : s.powerOn =
    { State.reset with
      agenda := s.agenda, tick := s.tick, draws := s.draws, cur := s.cur, status := s.status
      hub := { boot := { flash := s.hub.boot.flash }, tele := s.hub.tele, fenceList := s.hub.fenceList, telePend := [(8, 1)] } } :=
  if_neg h

/-- The telemetry store, once ready, takes the collected counts, and none is left. -/
theorem flushTele_ready (s : State) (h : s.isReady (.tele 0) = true) :
    s.flushTele.hub.tele = s.hub.telePend.foldl (fun m p => sput m p.1 (sat64 (sget 0 m p.1 + p.2))) s.hub.tele ∧
    s.flushTele.hub.telePend = [] := by
  rw [State.flushTele, if_pos h]; exact ⟨rfl, rfl⟩

/-- Settles O56: each event by the branch that its IMG takes, and a verification by its outcomes. -/
theorem bootEvents : Obligations.BootEvents := by
  intro s off bytes b keys booted
  refine ⟨fun hpow himg => ?_, fun hfresh => ?_, flashImageVerificationEnd_outcomes s, fun himg hreach => ?_,
    hostImageVerificationEnd_outcomes s, ⟨_, rfl, rfl, rfl, rfl⟩, ⟨_, rfl, rfl, rfl, fun hready => ?_⟩⟩
  · exact congrArg Host.Outcome.next (if_pos ⟨hpow, himg⟩)
  · have hnot : ¬ (s.powered = true ∧ s.hub.boot.img = 0) := by
      rintro ⟨hpow, himg⟩
      exact hfresh.elim (fun hoff => absurd (hpow.symm.trans hoff) (by decide)) fun hne => hne himg
    exact ⟨_, congrArg Host.Outcome.next (powerOn_fresh s hnot), rfl, rfl, rfl, rfl, rfl, rfl, rfl, rfl, rfl, rfl⟩
  · exact ⟨congrArg Host.Outcome.next (if_pos ⟨himg, hreach⟩), congrArg Host.Outcome.next (if_pos ⟨himg, hreach⟩)⟩
  · exact (flushTele_ready s hready).1

end Sys2Proof.Machine
end

section
/-! SUPPORT. The firmware mailbox, the renaming of the module, and the statement about the host's requests. -/

namespace Sys2Proof.Machine

/-! ## The mailbox (R26) -/

theorem runs_iff (b : Boot) : b.runs = true ↔ b.img = 2 ∨ b.img = 5 := by simp [Boot.runs]

/-- A submitted request of a function that firmware performs ends with STATUS 2 and the function's result. -/
theorem mailbox_answers (s : State) {f : Nat} (go : State → Word × State) (hgo : s.hub.boot.fgo = true)
    (hruns : s.hub.boot.runs = true) (hf : field s.hub.boot.fcmd 0 16 = f) :
    s.mailbox f go = .next ((go s).2.answerHost (go s).1 2) :=
  congrArg Host.Outcome.next (if_pos ⟨hgo, hruns, hf⟩)

theorem undefinedFirmwareFunction_next (s : State) (hgo : s.hub.boot.fgo = true)
    (h : s.hub.boot.runs = false ∨ field s.hub.boot.fcmd 0 16 = 0 ∨ 6 < field s.hub.boot.fcmd 0 16) :
    exec .undefinedFirmwareFunction s = .next (s.answerHost (BitVec.allOnes 64) 3) :=
  congrArg Host.Outcome.next (if_pos ⟨hgo, h⟩)

/-! ## The module number (R26, R334) -/

/-- The module with number n: its counters under the handles that now name them, and its row and column shown. -/
def State.numbered (s : State) (n : Nat) : State :=
  ({ s.rekey n with
    hub := ((s.rekey n).hub.drawMap 0 s.free).drawMap 1 (Config.freeNat (s.draws + 1)) } : State).spend 2

/-- SET_MODULE_NUMBER gives a module without a number the one that FARG0 names, and refuses one that has a number. -/
theorem execSetModuleNumber_eq (s : State) : execSetModuleNumber s = s.mailbox 6 fun s =>
    if s.hub.valid then (1, s) else (0, s.numbered (s.hub.boot.farg0.toNat % 4096)) := by
  have hn (w : Word) : field w 0 12 = w.toNat % 4096 := by simp [field]
  simp only [execSetModuleNumber, hn]
  rfl

theorem getLsbD_or_two_pow (x : Word) {i : Nat} (hi : i < 64) : (x ||| BitVec.ofNat 64 (2 ^ i)).getLsbD i = true := by
  have hb : BitVec.ofNat 64 (2 ^ i) = BitVec.twoPow 64 i := BitVec.eq_of_toNat_eq (by simp)
  simp [hb, hi]

/-- A module below 4,096 shows itself present at its own place of its row and of its column. -/
theorem numbered_present (s : State) (n : Nat) (hn : n < 4096) :
    (s.numbered n).hub.rowmap.getLsbD (n % 64) = true ∧ (s.numbered n).hub.colmap.getLsbD (n / 64) = true :=
  ⟨getLsbD_or_two_pow (i := n % 64) (BitVec.ofNat 64 s.free) (by omega),
    getLsbD_or_two_pow (i := n / 64) (BitVec.ofNat 64 (Config.freeNat (s.draws + 1))) (by omega)⟩

/-- Settles O57: each function by what the mailbox answers for it. -/
theorem firmwareRequests : Obligations.FirmwareRequests := by
  intro s b ends f hgo
  refine ⟨fun himg => ?_, fun h2 h5 => ?_⟩
  · have hruns : b.runs = true := (runs_iff b).2 himg
    have answered {k : Nat} (hf : f = k) (go : State → Word × State) : s.mailbox k go = ends (go s).2 (go s).1 2 :=
      mailbox_answers s go hgo hruns hf
    have performed {k : Nat} (hf : f = k) : b.fgo = true ∧ b.runs = true ∧ field b.fcmd 0 16 = k := ⟨hgo, hruns, hf⟩
    refine ⟨fun hf => congrArg _ (if_pos (performed hf)), fun hf => congrArg _ (if_pos (performed hf)),
      fun hf reachable => congrArg _ (if_pos (performed hf)), fun hf => ⟨fun hlarge => ?_, fun hsmall => ?_⟩,
      fun hf => congrArg _ (if_pos (performed hf)), fun hf => ⟨fun hnamed => ?_, fun hfree => ?_⟩,
      fun hf => undefinedFirmwareFunction_next s hgo (.inr hf)⟩
    · change execSizeKvPools s = _
      rw [execSizeKvPools, answered hf, if_pos hlarge]
    · change execSizeKvPools s = _
      rw [execSizeKvPools, answered hf, if_neg (Nat.not_le.2 hsmall)]
    · change execSetModuleNumber s = _
      rw [execSetModuleNumber_eq, answered hf, if_pos hnamed]
    · have hstep : execSetModuleNumber s = ends (s.numbered (b.farg0.toNat % 4096)) 0 2 := by
        rw [execSetModuleNumber_eq, answered hf, if_neg (by rw [hfree]; decide)]
      obtain ⟨hrow, hcol⟩ := numbered_present s (b.farg0.toNat % 4096) (Nat.mod_lt _ (by decide))
      exact ⟨_, hstep, rfl, rfl, rfl, rfl, rfl, hrow, hcol⟩
  · have hidle : b.runs = false := Bool.eq_false_iff.2 fun hr => ((runs_iff b).1 hr).elim h2 h5
    exact undefinedFirmwareFunction_next s hgo (.inl hidle)

end Sys2Proof.Machine
end

section
/-! SUPPORT. Readiness, islands, temperatures and the telemetry store, and the statement about them. -/

namespace Sys2Proof.Machine

/-! ## Bits of HISTAT stay set -/

theorem getLsbD_histat_raise_of_set (h : Hub) (i j : Nat) (hj : h.histat.getLsbD j = true) :
    (h.raise i).histat.getLsbD j = true := by
  unfold Hub.raise
  dsimp only
  split
  · simp [hj]
  · exact hj

theorem getLsbD_histat_record_of_set (s : State) (n d uk ui synd cls : Nat) (intr trap : Bool) (addr info : Word) (j : Nat)
    (hj : s.hub.histat.getLsbD j = true) :
    (s.record n d uk ui synd cls intr trap addr info).hub.histat.getLsbD j = true := by
  cases intr with
  | false => exact hj
  | true => exact getLsbD_histat_raise_of_set _ n j hj

/-! ## Readiness (R19, R20) -/

theorem setReady_isReady (s : State) (u : UnitId) : (s.setReady u).isReady u = true := by
  unfold State.setReady
  split
  · assumption
  · simp [State.isReady]

@[simp] theorem setReady_islands (s : State) (u : UnitId) : (s.setReady u).hub.islands = s.hub.islands := by
  unfold State.setReady
  split
  · rfl
  · rfl

/-! ## Islands (R11, R14) -/

theorem nominal_mhz_le (i : Nat) : (nominal i).1 ≤ 1700 := by
  unfold nominal
  split_ifs <;> decide

theorem nominal_mv_le (i : Nat) : (nominal i).2 ≤ 800 := by
  unfold nominal
  split_ifs <;> decide

theorem trimmed_le (i : Nat) : trimmed i ≤ 825 := by
  have := nominal_mv_le i
  unfold trimmed
  omega

/-- A clock and a supply that fit their fields stand in an island's word as they are. -/
theorem word_of_lt (x : Island) (hmhz : x.mhz < 2 ^ 16) (hmv : x.mv < 2 ^ 16) : x.word =
    BitVec.ofNat 64 (x.mhz + 2 ^ 16 * x.mv + (if x.pwr then 2 ^ 32 else 0) + (if x.hot then 2 ^ 33 else 0)) := by
  rw [Island.word, Nat.mod_eq_of_lt hmhz, Nat.mod_eq_of_lt hmv]

theorem islandOn_islands (s : State) (i : Nat) : (s.islandOn i).hub.islands = s.hub.islands := by
  unfold State.islandOn
  split
  · exact setReady_islands ..
  · rfl

/-- The power of a T-die's island makes the die present. -/
theorem islandOn_present (s : State) {i : Nat} (h : 16 ≤ i ∧ i < 24) :
    (s.islandOn i).isReady (.pres (Fin.ofNat 22 (i - 8))) = true := by
  rw [State.islandOn, if_pos h]
  exact setReady_isReady ..

theorem islandWord_setIsland (s : State) {i : Nat} (x : Island) (h : i < 26) :
    ((s.setIsland i x).islandOn i).islandWord i = x.word := by
  rw [State.islandWord, if_pos h, islandOn_islands, State.setIsland, sget_sput_self]

/-- OPERATING_POINT_CHANGE to a point that the island may take. -/
theorem operatingPointChange_next (s : State) (i : Fin 26) (x : Island) (hruns : s.hub.boot.runs = true)
    (hx : (sget {} s.hub.islands i.val).may x i = true) :
    exec (.operatingPointChange i x.mhz x.mv x.pwr x.hot) s = .next ((s.setIsland i x).islandOn i) :=
  congrArg Host.Outcome.next (if_pos (Bool.and_eq_true_iff.2 ⟨hruns, hx⟩))

theorem may_iff (old x : Island) (i : Nat) : old.may x i = true ↔
    0 < x.mhz ∧ x.mhz ≤ (nominal i).1 ∧ x.mv ≤ trimmed i ∧ (x.hot = true → old.hot = true) ∧
      (x.pwr || x.hot) = decide (x.mhz < (nominal i).1 ∨ x.mv < trimmed i) := by
  simp only [Island.may, Bool.and_eq_true, decide_eq_true_eq, Bool.or_eq_true, Bool.not_eq_true', beq_iff_eq, and_assoc,
    ← Bool.not_eq_true, imp_iff_not_or]

/-! ## Heat (R16, R293, R374) -/

@[simp] theorem lower_mem (s : State) (is : List Nat) (ps : List (Nat × Nat)) : (s.lower is ps).mem = s.mem := by
  induction is generalizing s ps with
  | nil => rfl
  | cons i is ih =>
    cases ps with
    | nil => rfl
    | cons p ps => exact ih ..

/-- The islands of a die take lower points and a T-die its new ACTLIM. -/
def State.cooled (s : State) (n : Fin 22) (points : List (Nat × Nat)) (actlim : Nat) : State :=
  if tdieOk s.hub.expanders n then (s.lower (dieIslands n) points).setTdie n { s.tdie n with actlim := actlim }
  else s.lower (dieIslands n) points

theorem cooled_mem (s : State) (n : Fin 22) (points : List (Nat × Nat)) (actlim : Nat) :
    (s.cooled n points actlim).mem = s.mem := by
  unfold State.cooled
  split
  · exact lower_mem ..
  · exact lower_mem ..

theorem cooled_actlim (s : State) (n : Fin 22) (points : List (Nat × Nat)) (actlim : Nat)
    (h : tdieOk s.hub.expanders n = true) : ((s.cooled n points actlim).tdie n).actlim = actlim := by
  rw [State.cooled, if_pos h, tdie_setTdie]

/-- The event at 95 °C is counted in the telemetry store, shown in HISTAT.THERM and recorded. -/
def State.reported95c (s : State) (n : Fin 22) : State :=
  let c := s.countNow (0x1300 + 128 * n + 8 * thermalBin 95) 1
  let r := { c with hub := c.hub.raise 23 }
  (r.record n n (r.free % 26) 0 THERM (r.free / 26 % 6) (r.free / 156 % 2 == 0) false 0 0).drew

theorem reported95c_histat (s : State) (n : Fin 22) : bitOf (s.reported95c n).hub.histat.toNat 23 = true := by
  rw [bitOf_eq_testBit, BitVec.testBit_toNat]
  exact getLsbD_histat_record_of_set _ _ _ _ _ _ _ _ _ _ _ _ (getLsbD_histat_raise _ 23 (by decide))

/-- DIE_REACHES_95C with lower points, and a lower ACTLIM for a T-die. -/
theorem dieReaches95c_next (s : State) (n : Fin 22) (points : List (Nat × Nat)) (actlim : Nat)
    (hruns : s.hub.boot.runs = true) (hlow : s.lowers (dieIslands n) points = true)
    (hpres : n.val < 18 ∨ s.hub.expanders.contains n.val = true)
    (hact : tdieOk s.hub.expanders n = true → 16 ≤ actlim ∧ actlim % 16 = 0 ∧ actlim < (s.tdie n).actlim) :
    exec (.dieReaches95c n points actlim) s = .next ((s.cooled n points actlim).reported95c n) := by
  have hpres' : (decide (n.val < 18) || s.hub.expanders.contains n.val) = true := by simpa using hpres
  have hact' : (!tdieOk s.hub.expanders n || (decide (16 ≤ actlim) && actlim % 16 == 0 &&
      decide (actlim < (s.tdie n).actlim ∨ (s.tdie n).actlim = 16 ∧ actlim = 16))) = true := by
    by_cases hT : tdieOk s.hub.expanders n = true
    · obtain ⟨h16, hstep, hless⟩ := hact hT
      simp [h16, hstep, hless]
    · simp [hT]
  refine if_neg ?_
  rw [hruns, hpres', hlow, hact']
  decide

/-! ## The telemetry store (R374) -/

/-- TELEMETRY_FLUSH at time t, up to which n more seconds count as powered: the collected counts go to the store. -/
def State.flushedTo (s : State) (t n : Nat) : State :=
  (({ s with hub := { s.hub with flushed := t } } : State).count 0x10 n).flushTele

theorem flushTele_flushed (s : State) : s.flushTele.hub.flushed = s.hub.flushed := by
  unfold State.flushTele
  split
  · rfl
  · rfl

theorem flushedTo_flushed (s : State) (t n : Nat) : (s.flushedTo t n).hub.flushed = t := flushTele_flushed _

theorem flushedTo_telePend (s : State) (t n : Nat) (h : s.isReady (.tele 0) = true) :
    (s.flushedTo t n).hub.telePend = [] := by
  refine (flushTele_ready _ ?_).2
  exact h

theorem telemetryFlush_next (s : State) (h : (s.now - s.hub.flushed) / 1000000000 ≠ 0) :
    exec .telemetryFlush s = .next (s.flushedTo
      (s.hub.flushed + (s.now - s.hub.flushed) / 1000000000 * 1000000000) ((s.now - s.hub.flushed) / 1000000000)) :=
  congrArg Host.Outcome.next (if_neg h)

/-- Settles O58: each event by its guard and by what the parts of its state then read. -/
theorem platformEvents : Obligations.PlatformEvents := by
  intro s u i n mhz mv pwr hot points actlim temps b
  refine ⟨fun himg => ?_, ⟨_, rfl, rfl⟩, ⟨fun hnone => congrArg _ (if_pos hnone), fun hsome => ?_⟩,
    fun hdue => congrArg _ (if_pos hdue)⟩
  · have hruns : b.runs = true := (runs_iff b).2 himg
    refine ⟨fun hmay hnot => ?_, fun hpos hmhz hmv hhot hlow => ?_, fun hlow hpres hact => ?_⟩
    · exact congrArg _ (if_pos (by rw [hmay, hnot]; rfl))
    · have hx := (may_iff _ ⟨mhz, mv, pwr, hot⟩ i).2 ⟨hpos, hmhz, hmv, hhot, hlow⟩
      refine ⟨_, operatingPointChange_next s i _ hruns hx, ?_, fun h16 h24 => islandOn_present _ ⟨h16, h24⟩⟩
      rw [islandWord_setIsland _ _ i.isLt]
      have hmhz' := hmhz.trans (nominal_mhz_le i)
      have hmv' := hmv.trans (trimmed_le i)
      exact word_of_lt _ (hmhz'.trans_lt (by decide)) (hmv'.trans_lt (by decide))
    · exact ⟨_, dieReaches95c_next s n points actlim hruns hlow hpres hact, cooled_actlim s n points actlim,
        reported95c_histat _ n, cooled_mem s n points actlim⟩
  · exact ⟨_, telemetryFlush_next s hsome, flushedTo_flushed s _ _, flushedTo_telePend s _ _⟩

end Sys2Proof.Machine
end

section
/-! SUPPORT. Turns: what a step makes of the turn that waits, and the statements about the words and bundles of a turn. -/

namespace Sys2Proof.Machine

/-! ## The step and its turn (R29, log 1) -/

/-- The state in which a turn runs: it has left the agenda and its time has passed (log 1). -/
def State.atTurn (s : State) (d : Nat) (rest : List Turn) : State :=
  { s with agenda := rest, tick := s.tick + 1, now := s.now + d }

theorem step_turn {s : State} {d : Nat} {m : Mover} {rest : List Turn} (hp : s.powered = true)
    (ha : s.agenda = ⟨d, m⟩ :: rest) : step s = (s.atTurn d rest).settle ((s.atTurn d rest).turn m) := by
  have hok : powerOk s m = true := by
    unfold powerOk
    split
    · rfl
    · exact hp
  simp [step, State.advance, State.nextTurn, ha, hok, State.atTurn]

theorem step_strand {s : State} {d c : Nat} {k : StrandId} {rest : List Turn} (hp : s.powered = true)
    (ha : s.agenda = ⟨d, .strand c k⟩ :: rest) (hc : c < 512) :
    step s = (s.atTurn d rest).settle ((s.atTurn d rest).strandTurn c k) := by
  rw [step_turn hp ha]
  simp [State.turn, hc]

theorem step_of_empty_agenda {s : State} (ha : s.agenda = []) : step s = step { s with agenda := [Config.turn s.tick] } := by
  have hs : s = { s with agenda := [] } := by rw [← ha]
  have hn : s.nextTurn = (Config.turn s.tick, { s with agenda := [] }) := by
    unfold State.nextTurn
    rw [ha]
    exact congrArg _ hs
  have hn' : State.nextTurn { s with agenda := [Config.turn s.tick] } = (Config.turn s.tick, { s with agenda := [] }) := rfl
  unfold step State.advance
  rw [hn, hn']
  rfl

theorem settle_of_notHeld (u t : State) (h : t.heldWrite = none) : u.settle (.next t) = .next t := by
  simp [State.settle, h]

theorem settle_of_held (u t : State) {line : Nat} (h : t.heldWrite = some line) :
    u.settle (.next t) = .next (u.noteHeld line) := by
  simp [State.settle, h]

/-! ## A strand's word (R29, R378, R389, R392) -/

theorem noteGiven_shape (s : State) (c : Nat) (k : StrandId) (tok : Nat) (given : Bool) :
    ∃ g, s.noteGiven c k tok given = s ∨ s.noteGiven c k tok given = s.setCore c { s.core c with gave := g } := by
  refine ⟨((s.core c).give k tok).gave, ?_⟩
  unfold State.noteGiven
  split
  · split
    · exact .inr rfl
    · exact .inl rfl
  · exact .inl rfl

/-- What a try of a word comes to with what no discard undoes noted in it (R123). -/
def noted (c : Nat) (k : StrandId) (tok : Nat) (given : Bool) (o : Host.Outcome State Fault Refusal) :
    Host.Outcome State Fault Refusal :=
  match o with
  | .next t => .next (t.noteGiven c k tok given)
  | o => o

theorem tryWord_eq (s : State) (c : Nat) (k : StrandId) (joint : Bool) : s.tryWord c k joint =
    noted c k (s.core c).seq (joint || lasting k ((s.core c).fetch k).toNat) (s.runWord c k) := rfl

theorem runWord_word {s : State} {c : Nat} {k : StrandId} {i : Instr} {offs : List Offence}
    (hpc : ((s.core c).strand k).pc < 24576) (hd : decode (.strand k) ((s.core c).fetch k).toNat = .word i offs) :
    s.runWord c k = exec i { s with cur := { core := c, strand := k, format := offs } } := by
  have hh : (s.focus c k).here = s.core c := rfl
  simp only [State.runWord, hh, Nat.not_le.2 hpc, if_false, hd]
  rfl

theorem runWord_reserved {s : State} {c : Nat} {k : StrandId} (hpc : ((s.core c).strand k).pc < 24576)
    (hd : decode (.strand k) ((s.core c).fetch k).toNat = .reserved) :
    s.runWord c k = exec (.rsvopTrap ((s.core c).fetch k)) (s.focus c k) := by
  have hh : (s.focus c k).here = s.core c := rfl
  simp only [State.runWord, hh, Nat.not_le.2 hpc, if_false, hd]
  rfl

theorem runWord_pastMemory {s : State} {c : Nat} {k : StrandId} (hpc : 24576 ≤ ((s.core c).strand k).pc) :
    s.runWord c k = exec .irangeTrap (s.focus c k) := by
  have hh : (s.focus c k).here = s.core c := rfl
  simp only [State.runWord, hh, hpc, if_true]
  rfl

/-! ## A strand's turn (R29, R317, R388) -/

theorem strandTurn_of_alone {s : State} {c : Nat} {k : StrandId} (hs : s.servesNow c = false)
    (hb : (s.core c).bundled k = false) : s.strandTurn c k = s.tryWord c k false := by
  simp [State.strandTurn, hs, State.tryTurn, hb]

theorem strandTurn_of_served {s : State} {c : Nat} {k : StrandId} (hs : s.servesNow c = true)
    (ht : s.wouldTrap c k = false) : s.strandTurn c k = .next { s with status := .waiting [.other] [] [] } := by
  simp [State.strandTurn, hs, ht]

theorem bundled_pc {c : Core} {k : StrandId} (h : 24576 ≤ (c.strand k).pc) : c.bundled k = false := by
  simp [Core.bundled, Nat.not_lt.2 h]

/-! ## A bundle (R32, R124, R380) -/

theorem barrierFor_shape (c : Core) (ps : List StrandId) (k : StrandId) :
    ∃ b, c.barrierFor ps k = { c with barrier := b } ∧
      ∀ tok ∈ sget [] b k.index, ∃ m ∈ c.mops, m.tok = tok ∧ m.fabric = false ∧ m.posted = false := by
  refine ⟨_, rfl, fun tok h => ?_⟩
  rw [sget_sput_self] at h
  obtain ⟨m, hm, rfl⟩ := List.mem_map.1 h
  obtain ⟨hmem, hkind⟩ := List.mem_filter.1 hm
  simp only [Bool.and_eq_true, Bool.not_eq_true'] at hkind
  exact ⟨m, hmem, rfl, hkind.1.1, hkind.1.2⟩

/-- A strand's word is of a bundle and would issue. -/
def State.wouldIssue (s : State) (c : Nat) (p : StrandId) : Prop :=
  (s.core c).bundled p = true ∧
    ∃ t pops pushes, s.tryWord c p false = .next t ∧ t.status = .issued pops pushes ∧ t.heldWrite = none

/-- What a bundle finds of a participant: what trying its word comes to, or that its word is of no bundle. -/
def State.verdict (s : State) (c : Nat) (p : StrandId) : Status :=
  if (s.core c).bundled p then statusOf (s.tryWord c p false) else .waiting [.other] [] []

theorem verdict_of_wouldIssue {s : State} {c : Nat} {p : StrandId} (h : s.wouldIssue c p) :
    ∃ pops pushes, s.verdict c p = .issued pops pushes := by
  obtain ⟨hb, t, pops, pushes, ht, hst, hh⟩ := h
  exact ⟨pops, pushes, by simp [State.verdict, hb, ht, statusOf, hh, hst]⟩

theorem all_ripe_of_wouldIssue {s : State} {c : Nat} {ps : List StrandId} (h : ∀ p ∈ ps, s.wouldIssue c p) :
    (ps.map (s.verdict c)).all Status.ripe = true := by
  rw [List.all_map, List.all_eq_true]
  intro p hp
  obtain ⟨a, b, e⟩ := verdict_of_wouldIssue (h p hp)
  simp only [Function.comp, e, Status.ripe]

theorem none_fails_of_wouldIssue {s : State} {c : Nat} {ps : List StrandId} (h : ∀ p ∈ ps, s.wouldIssue c p) :
    (ps.zip (ps.map (s.verdict c))).filter (fun p => p.2.fails) = [] := by
  rw [List.filter_eq_nil_iff, List.zip_map_right, List.forall_mem_map]
  intro q hq
  obtain ⟨a, b, e⟩ := verdict_of_wouldIssue (h q.2 (List.of_mem_zip hq).2)
  simp [Prod.map, e, Status.fails]

theorem tryTurn_of_ready {s : State} {c : Nat} {k : StrandId} (hk : k ∈ (s.core c).participants)
    (hst : s.startsNow c = false) (h : ∀ p ∈ (s.core c).participants, s.wouldIssue c p) :
    s.tryTurn c k = s.runAll c (s.core c).participants (s.core c).participants := by
  obtain ⟨hb, t, pops, pushes, ht, hissued, -⟩ := h k hk
  have hripe := all_ripe_of_wouldIssue h
  have hnone := none_fails_of_wouldIssue h
  unfold State.verdict at hripe hnone
  simp only [State.tryTurn, hb, ht, hissued, hripe, hst, hnone, Bool.not_true, Bool.not_false, Bool.and_self,
    Bool.false_eq_true, if_false, if_true]

/-! ## The turns of a strand, an Awl run and an event (R29, R141, R300) -/

section Turn
variable {s : State} {d : Nat} {rest : List Turn} (hp : s.powered = true)
include hp

theorem step_word {c : Nat} {k : StrandId} {i : Instr} {offs : List Offence} (ha : s.agenda = ⟨d, .strand c k⟩ :: rest)
    (hc : c < 512) (hs : (s.atTurn d rest).servesNow c = false) (hb : (s.core c).bundled k = false)
    (hpc : ((s.core c).strand k).pc < 24576) (hd : decode (.strand k) ((s.core c).fetch k).toNat = .word i offs) :
    step s = (s.atTurn d rest).settle (noted c k (s.core c).seq (lasting k ((s.core c).fetch k).toNat)
      (exec i { s.atTurn d rest with cur := { core := c, strand := k, format := offs } })) := by
  rw [step_strand hp ha hc, strandTurn_of_alone hs hb, tryWord_eq, runWord_word (s := s.atTurn d rest) hpc hd]
  rfl

theorem step_reserved {c : Nat} {k : StrandId} (ha : s.agenda = ⟨d, .strand c k⟩ :: rest) (hc : c < 512)
    (hs : (s.atTurn d rest).servesNow c = false) (hb : (s.core c).bundled k = false)
    (hpc : ((s.core c).strand k).pc < 24576) (hd : decode (.strand k) ((s.core c).fetch k).toNat = .reserved) :
    step s = (s.atTurn d rest).settle (noted c k (s.core c).seq (lasting k ((s.core c).fetch k).toNat)
      (exec (.rsvopTrap ((s.core c).fetch k)) ((s.atTurn d rest).focus c k))) := by
  rw [step_strand hp ha hc, strandTurn_of_alone hs hb, tryWord_eq, runWord_reserved (s := s.atTurn d rest) hpc hd]
  rfl

theorem step_pastMemory {c : Nat} {k : StrandId} (ha : s.agenda = ⟨d, .strand c k⟩ :: rest) (hc : c < 512)
    (hs : (s.atTurn d rest).servesNow c = false) (hpc : 24576 ≤ ((s.core c).strand k).pc) :
    step s = (s.atTurn d rest).settle (noted c k (s.core c).seq (lasting k ((s.core c).fetch k).toNat)
      (exec .irangeTrap ((s.atTurn d rest).focus c k))) := by
  rw [step_strand hp ha hc, strandTurn_of_alone hs (bundled_pc hpc), tryWord_eq, runWord_pastMemory (s := s.atTurn d rest) hpc]
  rfl

theorem step_served {c : Nat} {k : StrandId} (ha : s.agenda = ⟨d, .strand c k⟩ :: rest) (hc : c < 512)
    (hs : (s.atTurn d rest).servesNow c = true) (ht : (s.atTurn d rest).wouldTrap c k = false) :
    ∃ t, step s = .next t ∧ t.cores = s.cores ∧ t.mem = s.mem ∧ t.adds = s.adds := by
  rw [step_strand hp ha hc, strandTurn_of_served hs ht]
  cases hh : s.heldWrite with
  | none => exact ⟨_, settle_of_notHeld _ _ hh, rfl, rfl, rfl⟩
  | some line => exact ⟨_, settle_of_held _ _ hh, rfl, rfl, rfl⟩

theorem step_awl {e n : Nat} {r : AwlRun} {i : Instr} {offs : List Offence} (ha : s.agenda = ⟨d, .awl e n⟩ :: rest)
    (he : e < 8) (hn : n < 256) (hr : (s.kdie e).awl.runOn n = some r)
    (hd : decode .awl (sget 0 (s.kdie e).awl.prog r.pc).toNat = .word i offs) :
    step s = (s.atTurn d rest).settle (exec i { s.atTurn d rest with cur := { die := e, slot := n, format := offs } }) := by
  have hk : (s.atTurn d rest).kdie e = s.kdie e := rfl
  rw [step_turn hp ha]
  simp only [State.turn, he, hn, and_self, if_true, State.awlTurn, hk, hr, hd]

theorem step_event {i : Instr} (ha : s.agenda = ⟨d, .event i⟩ :: rest) (hi : home i = .event)
    (hf : (s.atTurn d rest).trapFirst i = false) : step s = (s.atTurn d rest).settle (exec i (s.atTurn d rest)) := by
  rw [step_turn hp ha]
  simp [State.turn, hi, hf]

end Turn

/-- Settles O1: the turn that a step takes, word by word and event by event. -/
theorem stepRunsTheWord : Obligations.StepRunsTheWord := by
  intro s d rest hp
  refine ⟨fun c k ha hc => ⟨fun hs => ⟨fun hb hpc => ⟨fun i offs hd => step_word hp ha hc hs hb hpc hd,
      fun hd => step_reserved hp ha hc hs hb hpc hd⟩, fun hpc => step_pastMemory hp ha hc hs hpc⟩,
    fun hs ht => step_served hp ha hc hs ht, fun t tok given => noteGiven_shape t c k tok given⟩,
    fun e n r i offs ha he hn hr hd => step_awl hp ha he hn hr hd, fun i ha hi hf => step_event hp ha hi hf,
    fun t => ⟨settle_of_notHeld _ t, fun line => settle_of_held _ t⟩, step_of_empty_agenda⟩

/-- Settles O2: each participant would issue, so none keeps the bundle back and none fails, and the turn is `runAll`. -/
theorem bundleIssuesTogether : Obligations.BundleIssuesTogether := by
  intro s d c k rest hp hc ha u ps hk hs hst hall
  refine ⟨?_, fun t l => ⟨rfl, rfl⟩, fun x p => barrierFor_shape x ps p⟩
  have hturn : u.strandTurn c k = u.runAll c ps ps := by
    rw [← tryTurn_of_ready hk hst hall]
    simp [State.strandTurn, hs]
  exact (step_strand hp ha hc).trans (congrArg _ hturn)

end Sys2Proof.Machine
end

section
/-! SUPPORT. Traps that no word of their own raises, launches and iterations: each event under its guard, and the statements
about them. -/

namespace Sys2Proof.Machine

/-! ## Traps (R35, R389, R392, R418 to R420) -/

theorem rsvopTrap_next {s : State} {w : W32} (hw : s.here.fetch s.cur.strand = w) (hpc : s.me.pc < 24576)
    (hd : decode (.strand s.cur.strand) w.toNat = .reserved) : exec (.rsvopTrap w) s = .next (s.earlyTrap RSVOP) :=
  if_pos ⟨hw, hpc, hd⟩

theorem irangeTrap_next {s : State} (hpc : 24576 ≤ s.me.pc) : exec .irangeTrap s = .next (s.earlyTrap IRANGE) :=
  if_pos hpc

theorem engineTrap_next {s : State} {c : CoreIx} {t : EngineTrap} (ht : s.nextEngineTrap c = some t)
    (hf : (s.core c).frozen = none) : exec (.engineTrap c) s = .next ((s.setCore c { s.core c with
      traps := dropTrap t (s.core c).traps
      trapLog := if (s.core c).olderMop t.strand (s.core c).seq then (s.core c).trapLog ++ [((s.core c).seq, t)]
        else (s.core c).trapLog }).trapWith c t.strand t.synd t.addr t.info (some t.addr) ((s.core c).strand t.strand).pc false
          ((s.core c).fetch t.strand)) := by
  simp [exec, execEngineTrap, ht, hf]

theorem rendezvousDeadlock_next {s : State} {c : CoreIx} {p : StrandId} {ps : List StrandId}
    (hd : (s.core c).deadlocked = true) (hp : (s.core c).participants = p :: ps) :
    exec (.rendezvousDeadlock c) s = .next (s.trapWith c p RDVDL 0
      (BitVec.ofNat 64 (strandBits (p :: ps) + 16 * strandBits ((p :: ps).filter (s.core c).popsOnly) +
        256 * strandBits ((p :: ps).filter (s.core c).pushesOnly)))
      none ((s.core c).strand p).pc false ((s.core c).fetch p)) := by
  simp only [exec, execRendezvousDeadlock, hd, hp, if_true]

/-- Settles O42: each trap under its own guard. -/
theorem trapEvents : Obligations.TrapEvents := fun _ _ _ =>
  ⟨rsvopTrap_next, irangeTrap_next, fun _ => engineTrap_next, fun hd _ _ hp => rendezvousDeadlock_next hd hp⟩

/-! ## The boot mailbox (R36, R37, R420) -/

theorem bootMailboxGo_notReady {s : State} {c : CoreIx} (hh : s.hostReach = true) (hr : s.isReady (coreUnit c) = false) :
    exec (.bootMailboxGo c) s = .next (s.setCore c { s.core c with
      mbox := { (s.core c).mbox with go := false, state := 4, synd := 0 } }) := by
  simp [exec, execBootMailboxGo, hh, hr]

theorem bootMailboxGo_busy {s : State} {c : CoreIx} (hh : s.hostReach = true) (hr : s.isReady (coreUnit c) = true)
    (hb : (s.core c).loading = true ∨ (s.core c).mbox.state = 1 ∨ (s.core c).mbox.state = 2) :
    exec (.bootMailboxGo c) s = .next (s.setCore c { s.core c with
      mbox := { (s.core c).mbox with go := false, ref := true } }) := by
  simp [exec, execBootMailboxGo, hh, hr, hb]

theorem bootMailboxGo_walker {s : State} {c : CoreIx} (hh : s.hostReach = true) (hr : s.isReady (coreUnit c) = true)
    (hl : (s.core c).loading = false) (h1 : (s.core c).mbox.state ≠ 1) (h2 : (s.core c).mbox.state ≠ 2)
    (hw : (s.core c).work.ofWalker = true) :
    exec (.bootMailboxGo c) s = .next (s.setCore c { s.core c with
      mbox := { (s.core c).mbox with go := false, state := 6, ref := true, synd := 0 } }) := by
  simp [exec, execBootMailboxGo, hh, hr, hl, h1, h2, hw]

theorem bootMailboxGo_accepted {s : State} {c : CoreIx} (hh : s.hostReach = true) (hr : s.isReady (coreUnit c) = true)
    (hl : (s.core c).loading = false) (h1 : (s.core c).mbox.state ≠ 1) (h2 : (s.core c).mbox.state ≠ 2)
    (hw : (s.core c).work.ofWalker = false) :
    exec (.bootMailboxGo c) s = .next (s.setCore c { s.core c with
      loading := true
      mbox := { (s.core c).mbox with
        go := false, state := 1, ref := false, synd := 0
        latchedImage := (s.core c).mbox.image, latchedArg := (s.core c).mbox.arg } }) := by
  simp [exec, execBootMailboxGo, hh, hr, hl, h1, h2, hw]

/-! ## The load of an image (R38, R39, R41) -/

/-- A core with `n` words of instruction memory from word `i` on scrambled: the mailbox, the work and the flag of the image lie
outside them. -/
def Core.scrambled (c : Core) (draws i n : Nat) : Core :=
  { c with imem := (List.range n).foldl (fun m j => sput m (i + j) (BitVec.ofNat 32 (Config.freeNat (draws + j)))) c.imem }

theorem scrambleWords_core (s : State) (c i n : Nat) : (s.scrambleWords c i n).core c = (s.core c).scrambled s.draws i n :=
  core_setCore ..

section Load
variable {s : State} {c : CoreIx} (hl : (s.core c).loading = true) (hd : s.drained c = true)
  (hw : (s.core c).work.ofWalker = false)
include hl hd hw

theorem imageLoadEnd_loads (h0 : (s.readImage (s.core c).asid (s.core c).root (s.core c).mbox.latchedImage).synd = 0) :
    let r := s.readImage (s.core c).asid (s.core c).root (s.core c).mbox.latchedImage
    exec (.imageLoadEnd c) s = .next (((r.found (s.released c)).setCore c
      ((s.core c).launched r.entry r.words)).clearCounters c) := by
  simp only [exec, execImageLoadEnd, hl, hd, hw, Bool.not_true, Bool.or_false, Bool.false_eq_true, if_false, h0, if_true]

theorem imageLoadEnd_fails (h0 : (s.readImage (s.core c).asid (s.core c).root (s.core c).mbox.latchedImage).synd ≠ 0) :
    let r := s.readImage (s.core c).asid (s.core c).root (s.core c).mbox.latchedImage
    exec (.imageLoadEnd c) s = .next (((r.found (s.released c)).setCore c { s.core c with
      loading := false, loaded := false, work := .idle
      mbox := { (s.core c).mbox with state := 5, synd := r.synd } }).scrambleWords c 0 24576) := by
  simp only [exec, execImageLoadEnd, hl, hd, hw, Bool.not_true, Bool.or_false, Bool.false_eq_true, if_false, h0]

theorem imageLoadEnd_fails_shows (h0 : (s.readImage (s.core c).asid (s.core c).root (s.core c).mbox.latchedImage).synd ≠ 0) :
    ∃ t, exec (.imageLoadEnd c) s = .next t ∧ (t.core c).mbox = { (s.core c).mbox with
      state := 5, synd := (s.readImage (s.core c).asid (s.core c).root (s.core c).mbox.latchedImage).synd } ∧
      (t.core c).work = .idle ∧ (t.core c).loaded = false := by
  refine ⟨_, imageLoadEnd_fails hl hd hw h0, ?_⟩
  rw [scrambleWords_core, core_setCore]
  exact ⟨rfl, rfl, rfl⟩

end Load

theorem allStopped_iff (c : Core) : c.allStopped = true ↔ ∀ n, (c.strand n).running = false := by
  simp only [Core.allStopped, allStrands, List.all_cons, List.all_nil, Bool.and_eq_true, Bool.not_eq_true', and_true]
  exact ⟨fun ⟨q, v, m, l⟩ n => by cases n <;> assumption, fun h => ⟨h _, h _, h _, h _⟩⟩

/-! ## The ends of a launch and of an iteration (R40, R41, R184, R408) -/

theorem launchEnd_over {s : State} {c : CoreIx} (hw : (s.core c).work = .launch) (hs : (s.core c).allStopped = true)
    (hl : (s.core c).lost = none) (hn : (s.core c).leftOver = none)
    (hd : (s.setCore c (s.core c).dropStuck).drained c = true) : exec (.launchEnd c) s = .next (s.setCore c
      { (s.core c).dropStuck with work := .idle, mbox := { (s.core c).mbox with state := 3 } }) := by
  simp [exec, execLaunchEnd, hw, hs, hl, hn, hd]

theorem launchEnd_leftOver {s : State} {c : CoreIx} {synd : Nat} (hw : (s.core c).work = .launch)
    (hs : (s.core c).allStopped = true) (hl : (s.core c).lost = none) (hn : (s.core c).leftOver = some synd) :
    exec (.launchEnd c) s = .next ((s.leftRecord c).abandon c synd) := by
  simp [exec, execLaunchEnd, hw, hs, hl, hn]

section IterationEnd
variable {s : State} {c : CoreIx} (hs : (s.core c).allStopped = true) (hm : (s.core c).settledMops = true)
  (hl : (s.core c).lost = none)
include hs hm hl

theorem iterationEnd_over {id n : Nat} (hw : (s.core c).work = .iteration id n) (hn : (s.core c).leftOver = none) :
    exec (.iterationEnd c) s = .next ((s.setCore c
      { (s.core c).dropStuck with work := .idle, preq := none, yielded := false }).setKdie (dieOf c)
        ((s.kdie (dieOf c)).loseIteration (some c.val) id n false false)) := by
  simp [exec, execIterationEnd, hs, hm, hl, hw, hn]

theorem iterationEnd_leftOver {id n synd : Nat} (hw : (s.core c).work = .iteration id n)
    (hn : (s.core c).leftOver = some synd) : exec (.iterationEnd c) s = .next ((s.leftRecord c).abandon c synd) := by
  simp [exec, execIterationEnd, hs, hm, hl, hw, hn]

/-- The effects of work that has ended are all performed: the records that wait for the core go on, whatever it left over. -/
theorem iterationEnd_released (hw : (s.core c).work = .idle ∨ (s.core c).work = .draining) (hd : s.drained c = true) :
    exec (.iterationEnd c) s = .next (s.released c) := by
  obtain hw | hw := hw
  · cases hn : (s.core c).leftOver <;> simp [exec, execIterationEnd, hs, hm, hl, hw, hn, hd, Work.ofWalker]
  · simp [exec, execIterationEnd, hs, hm, hl, hw, hd, Work.ofWalker]

end IterationEnd

theorem nestIterationDispatch_next {s : State} {c : CoreIx} {r : NestRec} (hf : s.firstServed c = true)
    (hr : s.search c = some (r, false)) : exec (.nestIterationDispatch c) s = .next ((((s.setCore c
      ((s.core c).iteration r r.next (s.kdie (dieOf c)).dispatches)).clearCounters c).setKdie (dieOf c)
        { (s.kdie (dieOf c)).setRec { r with next := r.next + 1, running := r.running ++ [(c.val, r.next)] } with
          last := sput (s.kdie (dieOf c)).last r.cls r.id
          dispatches := (s.kdie (dieOf c)).dispatches + 1 }).released c) := by
  simp [exec, execNestIterationDispatch, hf, hr]

/-- Settles O54: a GO by what the mailbox finds, a load by what the image's words come to, an end by what is left over, and a
dispatch by the record that the search finds. -/
theorem launchEvents : Obligations.LaunchEvents := by
  intro s c k m stopped
  refine ⟨bootMailboxGo_notReady, fun hh hr => ⟨bootMailboxGo_accepted hh hr, bootMailboxGo_busy hh hr, bootMailboxGo_walker hh hr⟩,
    fun hl hd hw => ⟨imageLoadEnd_loads hl hd hw, imageLoadEnd_fails_shows hl hd hw⟩,
    fun hw hs hl => ?_, fun hf r hr => nestIterationDispatch_next hf hr, fun hs hm hl => ?_⟩
  · have hall := (allStopped_iff k).2 hs
    exact ⟨launchEnd_over hw hall hl, fun _ => launchEnd_leftOver hw hall hl⟩
  · have hall := (allStopped_iff k).2 hs
    exact ⟨fun _ _ hw => ⟨iterationEnd_over hall hm hl hw, fun _ => iterationEnd_leftOver hall hm hl hw⟩,
      iterationEnd_released hall hm hl⟩

end Sys2Proof.Machine
end

section
/-! SUPPORT. Lines: evictions, write-backs, arrivals at tiles, scrubs and strikes, and the statement about them. -/

namespace Sys2Proof.Machine

/-! ## Evictions (R112, R118) -/

/-- The lines that an eviction may take: the line alone, or its four lines of 512 bytes (R112). -/
def evictable512 (line free : Nat) : List Nat :=
  if free % 2 = 0 then [lineOf line] else (List.range 4).map fun i => line / 512 * 512 + 128 * i

theorem lineOf_mem_evictable512 (line free : Nat) : lineOf line ∈ evictable512 line free := by
  unfold evictable512 lineOf
  split
  · exact List.mem_singleton_self _
  · exact List.mem_map.2 ⟨line / 128 % 4, List.mem_range.2 (by omega), by omega⟩

theorem div_512_of_mem_evictable512 {line free l : Nat} (h : l ∈ evictable512 line free) : l / 512 = line / 512 := by
  unfold evictable512 lineOf at h
  split at h
  · rw [List.mem_singleton.1 h]
    omega
  · obtain ⟨i, hi, rfl⟩ := List.mem_map.1 h
    have := List.mem_range.1 hi
    omega

/-- A copy of the line that may leave its place now. -/
def State.mayLeave (s : State) (line : Nat) (t : CacheLine) : Prop :=
  t ∈ s.cached ∧ t.line = lineOf line ∧ s.evictable t = true

/-- The copies of the line among which an eviction chooses. -/
def State.leaving (s : State) (line : Nat) : List CacheLine :=
  s.cached.filter fun t => t.line == lineOf line && s.evictable t

theorem mem_leaving {s : State} {line : Nat} {t : CacheLine} : t ∈ s.leaving line ↔ s.mayLeave line t := by
  simp [State.leaving, State.mayLeave]

theorem execLineEviction_of_none {s : State} {line : Nat} (h : s.leaving line = []) :
    execLineEviction line s = .next s := by
  unfold State.leaving at h
  simp [execLineEviction, h]

theorem execLineEviction_of_some {s : State} {line : Nat}
    (hi : s.free % max (s.leaving line).length 1 < (s.leaving line).length) : execLineEviction line s =
      .next ((s.evict (s.leaving line)[s.free % max (s.leaving line).length 1].place
        (evictable512 line (Config.freeNat (s.draws + 1)))).drew).drew := by
  unfold State.leaving at hi
  simp only [execLineEviction, List.getElem?_eq_getElem hi]
  rfl

theorem lineEviction_none {s : State} {line : Nat} (h : ∀ t, ¬ s.mayLeave line t) : exec (.lineEviction line) s = .next s :=
  execLineEviction_of_none (List.eq_nil_iff_forall_not_mem.2 fun t ht => h t (mem_leaving.1 ht))

theorem lineEviction_some {s : State} {line : Nat} (h : ∃ t, s.mayLeave line t) : ∃ t, s.mayLeave line t ∧
    exec (.lineEviction line) s = .next ((s.evict t.place (evictable512 line (Config.freeNat (s.draws + 1)))).drew).drew := by
  obtain ⟨t0, h0⟩ := h
  have hpos : 0 < (s.leaving line).length := List.length_pos_of_mem (mem_leaving.2 h0)
  have hi : s.free % max (s.leaving line).length 1 < (s.leaving line).length := by
    rw [Nat.max_eq_left hpos]
    exact Nat.mod_lt _ hpos
  exact ⟨_, mem_leaving.1 (List.getElem_mem hi), execLineEviction_of_some hi⟩

/-! ## Write-backs (R114, R118, R120) -/

/-- What the arrival of a write-back at a slice comes to: the slice has no room, its memory takes the bytes, or an L2 slice
passes them on or keeps them. -/
def State.arrivedBack (s : State) (i : Nat) (w : WriteBack) : State :=
  let n := s.bufferRoom w.dst
  let took := ({ s with wbuf := sput s.wbuf w.dst (n + 1) } : State).drew
  let gone := { took with wbs := took.wbs.eraseIdx i }
  if 16 ≤ n then ({ s with wbs := s.wbs.set i { w with refused := true }, wbuf := sput s.wbuf w.dst n } : State).drew
  else if 1024 ≤ w.dst then gone.land w
  else if w.home then
    { took with wbs := took.wbs.set i { w with src := w.dst, dst := llcPlace w.line, refused := false } }
  else gone.landL2 w

theorem arriveBack_eq {s : State} {i : Nat} {w : WriteBack} (hw : s.wbs[i]? = some w) (hf : s.inFlight i w = true)
    (he : s.hub.egress = true → w.dst < 1600) : s.arriveBack i w.refused = s.arrivedBack i w := by
  have hegress : ¬ (s.hub.egress = true ∧ 1024 + 32 * 18 ≤ w.dst) := fun ⟨h, hd⟩ => by
    have := he h
    omega
  simp only [State.arriveBack, hw, hf, hegress, ne_eq, not_true, decide_false, Bool.not_true, Bool.or_false,
    Bool.false_eq_true, if_false]
  rfl

theorem writeBack_next {s : State} {i : Nat} {w : WriteBack} (hw : s.wbs[i]? = some w) (hf : s.inFlight i w = true)
    (he : s.hub.egress = true → w.dst < 1600) :
    (w.refused = false → exec (.writeBackArrival i) s = .next (s.arrivedBack i w)) ∧
    (w.refused = true → exec (.writeBackResend i) s = .next (s.arrivedBack i w)) := by
  have h := arriveBack_eq hw hf he
  exact ⟨fun hr => congrArg Host.Outcome.next (hr ▸ h), fun hr => congrArg Host.Outcome.next (hr ▸ h)⟩

/-! ## Arrivals at tiles (R45, R105, R411) -/

/-- What an arrival at a tile of this module comes to: the tile takes the lines, or refuses them and they are sent again. -/
def State.arrivedAt (s : State) (i : Nat) (a : Arrival) : State :=
  match (s.core a.target).arrive a.line a.lines with
  | some k => (s.setCore a.target k).landed i a
  | none => { s with arrivals := s.arrivals.set i { a with refused := some (a.refused.getD s.now) } }

section Arrival
variable {s : State} {i : Nat} {a : Arrival} (ha : s.arrivals[i]? = some a)
include ha

theorem arriveAt_eq (hm : a.module = s.hub.module) (hn : s.arrivesNowhere a = false)
    (hd : s.dieDown (dieOf a.target) = false) (hr : s.isReady (coreUnit a.target) = true)
    (hl : a.line / 32 < (s.core a.target).tileCount) : s.arriveAt i a.refused.isSome = s.arrivedAt i a := by
  have hfits : ((!s.isReady (coreUnit a.target)) || decide ((s.core a.target).tileCount ≤ a.line / 32)) = false := by
    rw [hr, decide_eq_false (Nat.not_le.2 hl)]
    rfl
  simp only [State.arriveAt, ha, hm, hn, hd, hfits, ne_eq, not_true, Bool.false_eq_true, if_false]
  rfl

theorem arrival_next (hm : a.module = s.hub.module) (hn : s.arrivesNowhere a = false)
    (hd : s.dieDown (dieOf a.target) = false) (hr : s.isReady (coreUnit a.target) = true)
    (hl : a.line / 32 < (s.core a.target).tileCount) :
    (a.refused = none → exec (.arrival i) s = .next (s.arrivedAt i a)) ∧
    (a.refused ≠ none → exec (.arrivalRetry i) s = .next (s.arrivedAt i a)) := by
  have h := arriveAt_eq ha hm hn hd hr hl
  refine ⟨fun hf => congrArg Host.Outcome.next ?_, fun hf => congrArg Host.Outcome.next ?_⟩
  · rwa [hf] at h
  · rwa [Option.isSome_iff_ne_none.2 hf] at h

theorem arrivalWaitRecord_next {t : Nat} {w : WeltCmd} (ht : a.refused = some t) (hw : s.sender a = some w)
    (hl : a.logged = false) (hn : t + 1000000 ≤ s.now) : exec (.arrivalWaitRecord i) s = .next
      (({ s with arrivals := s.arrivals.set i { a with logged := true } } : State).coreRecord a.core ARRWAIT 1 false false
        (sprAddr a.module a.target (128 * a.line)) (if w.k = noCounter then 0 else w.k)) := by
  simp [exec, execArrivalWaitRecord, ha, ht, hw, hl, Nat.not_lt.2 hn]

end Arrival

/-! ## Scrubs (R362, R403) -/

/-- Marking a damaged line moves it, and it alone, from the lines with a fault to the marked ones; memory stays. -/
theorem markDamaged_marks (s : State) (x : Nat) (info : Word) :
    x ∉ (s.markDamaged x info).damaged ∧ (x ∈ s.damaged → x ∈ (s.markDamaged x info).poison) ∧
    ∀ l, l ≠ x → (l ∈ (s.markDamaged x info).damaged ↔ l ∈ s.damaged) ∧ (l ∈ (s.markDamaged x info).poison ↔ l ∈ s.poison) := by
  by_cases hx : x ∈ s.damaged
  · obtain ⟨hd, hp⟩ : (s.markDamaged x info).damaged = s.damaged.filter (· ≠ x) ∧
        (s.markDamaged x info).poison = s.poison ++ [x] := by
      unfold State.markDamaged
      rw [if_pos (List.contains_iff_mem.2 hx)]
      extract_lets u s1
      split <;> exact ⟨rfl, rfl⟩
    rw [hd, hp]
    exact ⟨by simp, by simp, fun l hl => by simp [hl]⟩
  · have hsame : s.markDamaged x info = s := if_neg (by simpa using hx)
    rw [hsame]
    exact ⟨hx, fun h => absurd h hx, fun l _ => ⟨Iff.rfl, Iff.rfl⟩⟩

/-- Finding a damaged scratchpad line marks it and leaves every byte. -/
theorem findLine_marks (s : State) (c x : Nat) (info : Word) : (s.findLine c x info).mem = s.mem ∧
    ((s.findLine c x info).core c).pad = (s.core c).pad ∧ x ∉ ((s.findLine c x info).core c).padDamaged ∧
    (x ∈ (s.core c).padDamaged → x ∈ ((s.findLine c x info).core c).padPoison) := by
  by_cases hx : x ∈ (s.core c).padDamaged
  · obtain ⟨hm, hc⟩ : (s.findLine c x info).mem = s.mem ∧ (s.findLine c x info).core c = { s.core c with
        padDamaged := (s.core c).padDamaged.filter (· ≠ x), padPoison := (s.core c).padPoison ++ [x] } := by
      unfold State.findLine
      rw [if_pos (List.contains_iff_mem.2 hx)]
      extract_lets k k1 s1
      split <;> exact ⟨rfl, core_setCore ..⟩
    rw [hc]
    exact ⟨hm, rfl, by simp, by simp⟩
  · have hsame : s.findLine c x info = s := if_neg (by simpa using hx)
    rw [hsame]
    exact ⟨rfl, rfl, hx, fun h => absurd h hx⟩

theorem sweepHeap_mem (s : State) (d : Nat) : (s.sweepHeap d).mem = s.mem :=
  foldl_keeps _ State.mem (fun s e => by split <;> rfl) _ _

theorem sweepHeap_heap (s : State) (d : Nat) : ((s.sweepHeap d).kdie d).heap = (s.kdie d).heap.filter fun e => !e.bad := by
  refine (foldl_keeps _ (fun t : State => (t.kdie d).heap) (fun s e => ?_) _ _).trans (by rw [kdie_setKdie])
  split <;> rfl

/-- A scrub of a heap drops every entry with a fault once it meets one, and leaves memory. -/
theorem scrubHeap_result (s : State) (d i : Nat) :
    let t := if ((s.kdie d).heap[i]?).any (·.bad) then s.sweepHeap d else s
    t.mem = s.mem ∧ (((s.kdie d).heap[i]?).any (·.bad) = true → ∀ e ∈ (t.kdie d).heap, e.bad = false) := by
  dsimp only
  split
  · rw [sweepHeap_mem, sweepHeap_heap]
    exact ⟨rfl, fun _ e he => by simpa using (List.mem_filter.1 he).2⟩
  · exact ⟨rfl, fun h => absurd h ‹_›⟩

@[simp] theorem record_kdie (s : State) (n d uk ui synd cls : Nat) (intr trap : Bool) (addr info : Word) (e : Nat) :
    (s.record n d uk ui synd cls intr trap addr info).kdie e = s.kdie e := rfl

theorem scrubBlock_frame (s : State) (d j : Nat) :
    (s.scrubBlock d j).mem = s.mem ∧ ((s.scrubBlock d j).kdie d).heap = (s.kdie d).heap := by
  unfold State.scrubBlock
  extract_lets a
  split
  · exact ⟨rfl, rfl⟩
  extract_lets x
  split
  · refine ⟨rfl, ?_⟩
    rw [record_kdie, State.setAwl, kdie_setKdie]
  · exact ⟨rfl, rfl⟩

/-! ## Strikes of lines (R362, R403, R410) -/

theorem strikeLine_correctable (s : State) (pa : Nat) (p : LinePlace) :
    (s.strikeLine pa p true).damaged = s.damaged := by
  unfold State.strikeLine
  extract_lets l u
  split
  · rfl
  · rw [if_pos rfl, corrected_eq]

theorem strikeLine_poison (s : State) (pa : Nat) (p : LinePlace) (ok : Bool) : (s.strikeLine pa p ok).poison = s.poison := by
  unfold State.strikeLine
  extract_lets l u
  split
  · rfl
  split
  · rw [corrected_eq]
  split <;> rfl

theorem strikeLine_uncorrectable (s : State) {pa : Nat} (p : LinePlace) (hpa : pa < 2 ^ 47)
    (hh : (homePa s.hub.expanders (lineOf pa)).isSome = true) (hp : lineOf pa ∉ s.poison) :
    lineOf pa ∈ (s.strikeLine pa p false).damaged := by
  unfold State.strikeLine
  extract_lets l u
  have hreach : ¬ ((homePa s.hub.expanders l).isNone = true ∨ 2 ^ 47 ≤ pa) := by
    rw [← Option.not_isSome, hh]
    exact not_or.2 ⟨Bool.false_ne_true, Nat.not_le.2 hpa⟩
  rw [if_neg hreach, if_neg Bool.false_ne_true]
  split
  case isTrue h =>
    obtain h | h := h
    · exact absurd (List.contains_iff_mem.1 h) hp
    · exact List.contains_iff_mem.1 h
  · exact List.mem_append_right _ (List.mem_singleton_self _)

theorem strikeTile_pad (s : State) (c l : Nat) (ok : Bool) : ((s.strikeTile c l ok).core c).pad = (s.core c).pad := by
  unfold State.strikeTile
  extract_lets k
  split
  · rfl
  split
  · rw [corrected_eq]; rfl
  split
  · rfl
  · rw [core_setCore]

theorem strikeTile_uncorrectable (s : State) (c : Nat) {l : Nat} (hl : l < 10240) (hp : l ∉ (s.core c).padPoison) :
    l ∈ ((s.strikeTile c l false).core c).padDamaged := by
  unfold State.strikeTile
  extract_lets k
  rw [if_neg (Nat.not_le.2 hl), if_neg Bool.false_ne_true]
  split
  case isTrue h =>
    obtain h | h := h
    · exact absurd (List.contains_iff_mem.1 h) hp
    · exact List.contains_iff_mem.1 h
  · rw [core_setCore]
    exact List.mem_append_right _ (List.mem_singleton_self _)

/-- Settles O41, event by event: an eviction by what may leave, a write-back and an arrival by what their places have room for,
a scrub by what it finds, and a strike by what it leaves to be found. -/
theorem lineEvents : Obligations.LineEvents := by
  intro s c line i va
  refine ⟨rfl, fun hva hs => if_neg ?_, ⟨lineEviction_none, fun h => ?_⟩, fun w hw hf he => writeBack_next hw hf he,
    fun a ha hm hn hd hr hl => arrival_next ha hm hn hd hr hl,
    fun a t w ha ht hw hl hn => arrivalWaitRecord_next ha ht hw hl hn,
    ⟨_, rfl, markDamaged_mem .., markDamaged_marks ..⟩, ⟨_, rfl, findLine_marks ..⟩,
    fun d => ⟨⟨_, rfl, scrubHeap_result s d i⟩, ⟨_, rfl, scrubBlock_frame s d i⟩⟩, fun p ok => ⟨_, rfl,
      strikeLine_mem s line p ok, strikeLine_poison s line p ok, fun hok => hok ▸ strikeLine_correctable s line p,
      fun hok hpa hh hp => hok ▸ strikeLine_uncorrectable s p hpa hh hp⟩,
    fun ok => ⟨_, rfl, strikeTile_mem s c line ok, strikeTile_pad s c line ok,
      fun hok hl hp => hok ▸ strikeTile_uncorrectable s c hl hp⟩⟩
  · rw [hs]
    exact not_or.2 ⟨Nat.not_le.2 hva, Bool.false_ne_true⟩
  · obtain ⟨t, ht, hstep⟩ := lineEviction_some h
    exact ⟨t, _, _, ht, lineOf_mem_evictable512 line _, fun _ => div_512_of_mem_evictable512, hstep, rfl, rfl, rfl⟩

end Sys2Proof.Machine
end

section
/-! SUPPORT. The fields of a number, the map that reads a word, and what the fields of a strand word read when it is put
together from its parts. -/

namespace Sys2Proof

/-! ## Fields and zero fields of a number (R143) -/

theorem fld_eq {w lo k : Nat} [NeZero k] {f : Fin k} (h : w / 2 ^ lo % k = f.val) : fld w lo k = f :=
  Fin.ext h

/-- What is put above a field does not change it. -/
theorem fld_skip {x r lo k : Nat} [NeZero k] (hx : x % (2 ^ lo * k) = 0) : fld (x + r) lo k = fld r lo k := by
  obtain ⟨y, rfl⟩ := Nat.dvd_of_mod_eq_zero hx
  refine fld_eq ?_
  rw [Nat.mul_assoc, Nat.mul_add_div (Nat.two_pow_pos lo), Nat.mul_add_mod]
  rfl

theorem fld_mul_skip {c x r lo k : Nat} [NeZero k] (hc : c % (2 ^ lo * k) = 0) : fld (c * x + r) lo k = fld r lo k :=
  fld_skip (Nat.mod_eq_zero_of_dvd ((Nat.dvd_of_mod_eq_zero hc).mul_right x))

/-- A field reads what was put at its place, whatever the bits below and above it hold. -/
theorem fld_mul_add_of_mod {c r lo k : Nat} [NeZero k] {v : Fin k} (hc : c = 2 ^ lo) (hr : r % (2 ^ lo * k) < 2 ^ lo) :
    fld (c * v.val + r) lo k = v := by
  subst hc
  refine fld_eq ?_
  have hlow : r / 2 ^ lo % k = 0 := by rw [← Nat.mod_mul_right_div_self, Nat.div_eq_of_lt hr]
  rw [Nat.mul_add_div (Nat.two_pow_pos lo), Nat.add_mod, hlow, Nat.add_zero, Nat.mod_mod, Nat.mod_eq_of_lt v.isLt]

theorem fld_mul_add {c r lo k : Nat} [NeZero k] {v : Fin k} (hc : c = 2 ^ lo) (hr : r < c) :
    fld (c * v.val + r) lo k = v :=
  fld_mul_add_of_mod hc (Nat.lt_of_le_of_lt (Nat.mod_le ..) (hc ▸ hr))

theorem fld_mul {c lo k : Nat} [NeZero k] {v : Fin k} (hc : c = 2 ^ lo) : fld (c * v.val) lo k = v :=
  fld_mul_add (r := 0) hc (hc ▸ Nat.two_pow_pos lo)

theorem fld_val_add {k r : Nat} [NeZero k] {v : Fin k} (hr : r % k = 0) : fld (v.val + r) 0 k = v :=
  fld_eq (by rw [Nat.pow_zero, Nat.div_one, Nat.add_mod, hr, Nat.add_zero, Nat.mod_mod, Nat.mod_eq_of_lt v.isLt])

theorem fld_val {k : Nat} [NeZero k] {v : Fin k} : fld v.val 0 k = v :=
  fld_val_add (r := 0) (Nat.zero_mod k)

theorem zeros_nil (w : Nat) : zeros w [] = [] := rfl

theorem zeros_cons {w lo k : Nat} {fs : List (Nat × Nat)} (hz : w / 2 ^ lo % k = 0) :
    zeros w ((lo, k) :: fs) = zeros w fs :=
  if_pos hz

/-! ## The map that reads a strand word (R142) -/

theorem decode_of_lt {w : Nat} (hw : w < 2 ^ 31) (k : StrandId) : decode (.strand k) w = decodeShared (hdrOf w) w :=
  if_pos (by omega)

theorem decode_of_le {w : Nat} (hw : w < 2 ^ 32) (hp : 2 ^ 31 ≤ w) :
    decode (.strand .q) w = decodeQ (hdrOf w) w ∧ decode (.strand .v) w = decodeV (hdrOf w) w ∧
      decode (.strand .m) w = decodeM (hdrOf w) w ∧ decode (.strand .l) w = decodeL (hdrOf w) w := by
  have hne : ¬ w / 0x80000000 % 2 = 0 := by omega
  exact ⟨if_neg hne, if_neg hne, if_neg hne, if_neg hne⟩

/-! ## A strand word `b + (hdr h + r)`: H, OP and codes in `b`, S and WC in `hdr h`, operands in `r` (R141) -/

section Word
variable {b r : Nat} {h : Hdr}

theorem hdrOf_word (hr : b % 0x200000 + r < 0x200000) (hb : b / 0x8000000 % 16 = 0) :
    hdrOf (b + (hdr h + r)) = h := by
  obtain ⟨s, wc⟩ := h
  have hs : (b + ((1073741824 * s.val + 134217728 * wc.val) + r)) / 2 ^ 30 % 2 = s.val := by omega
  have hwc : (b + ((1073741824 * s.val + 134217728 * wc.val) + r)) / 2 ^ 27 % 8 = wc.val := by omega
  exact congrArg₂ Hdr.mk (fld_eq hs) (fld_eq hwc)

theorem decode_shared_word (hr : b % 0x200000 + r < 0x200000) (hb : b / 0x8000000 = 0) (k : StrandId) :
    decode (.strand k) (b + (hdr h + r)) = decodeShared h (b + (hdr h + r)) := by
  rw [decode_of_lt (by simp only [hdr]; omega), hdrOf_word hr (by omega)]

theorem decode_own_word (hr : b % 0x200000 + r < 0x200000) (hb : b / 0x8000000 = 16) :
    decode (.strand .q) (b + (hdr h + r)) = decodeQ h (b + (hdr h + r)) ∧
      decode (.strand .v) (b + (hdr h + r)) = decodeV h (b + (hdr h + r)) ∧
      decode (.strand .m) (b + (hdr h + r)) = decodeM h (b + (hdr h + r)) ∧
      decode (.strand .l) (b + (hdr h + r)) = decodeL h (b + (hdr h + r)) := by
  have hw := decode_of_le (w := b + (hdr h + r)) (by simp only [hdr]; omega) (by omega)
  rwa [hdrOf_word hr (by omega)] at hw

theorem op_word (hr : b % 0x200000 + r < 0x200000) : (b + (hdr h + r)) / 0x200000 % 64 = b / 0x200000 % 64 := by
  simp only [hdr]; omega

/-- The bits of `hdr h` lie above every part of the operand field. -/
theorem mod_word {n : Nat} (hn : 0x200000 % n = 0) : (b + (hdr h + r)) % n = (r + b % 0x200000) % n := by
  have hdvd : n ∣ 0x200000 := Nat.dvd_of_mod_eq_zero hn
  have hh : hdr h % 0x200000 = 0 := by simp only [hdr]; omega
  rw [← Nat.mod_mod_of_dvd _ hdvd, ← Nat.mod_mod_of_dvd (r + _) hdvd]
  congr 1
  omega

theorem div_mod_word {c n : Nat} (hn : 0x200000 % (c * n) = 0) :
    (b + (hdr h + r)) / c % n = (r + b % 0x200000) / c % n := by
  rw [← Nat.mod_mul_right_div_self, mod_word hn, Nat.mod_mul_right_div_self]

/-- A code of the word below its OP. -/
theorem code_word {c n : Nat} (hn : 0x200000 % (c * n) = 0) (hr : (r + b % 0x200000) / c % n = b / c % n) :
    (b + (hdr h + r)) / c % n = b / c % n :=
  (div_mod_word hn).trans hr

/-- A code of the word at its lowest bits. -/
theorem low_code_word {n : Nat} (hn : 0x200000 % n = 0) (hr : (r + b % 0x200000) % n = b % n) :
    (b + (hdr h + r)) % n = b % n :=
  (mod_word hn).trans hr

/-- An operand is read from the operand field, with the codes that `b` has there. -/
theorem fld_coded_word {lo k : Nat} [NeZero k] (hk : 0x200000 % (2 ^ lo * k) = 0) :
    fld (b + (hdr h + r)) lo k = fld (r + b % 0x200000) lo k :=
  fld_eq (div_mod_word hk)

theorem fld_word {lo k : Nat} [NeZero k] (hk : 0x200000 % (2 ^ lo * k) = 0) (hb : b % 0x200000 = 0) :
    fld (b + (hdr h + r)) lo k = fld r lo k := by
  rw [fld_coded_word hk, hb, Nat.add_zero]

theorem zeros_word {lo k : Nat} {fs : List (Nat × Nat)} (hk : 0x200000 % (2 ^ lo * k) = 0)
    (hz : (r + b % 0x200000) / 2 ^ lo % k = 0) :
    zeros (b + (hdr h + r)) ((lo, k) :: fs) = zeros (b + (hdr h + r)) fs :=
  zeros_cons ((div_mod_word hk).trans hz)

end Word
end Sys2Proof
end

section
/-! SUPPORT. The maps read back the words that `encode` puts together, one map after the other. Where the word has only zeros
below its OP, a field is read from the operands alone (`fld_word`); where a code stands there, from the operands and the
code (`fld_coded_word`), which is no part of the operands below it (`fld_mul_add_of_mod`, `fld_val_add`). A format that many
instructions share has a lemma over `mk`, which is what the map makes of a word with the OP, and the code, of `b`. -/

namespace Sys2Proof

/-! ## The shared map (R150, R151, R156, R157) -/

/-- The register form of `alu`, whose function code stands below the registers. -/
theorem decode_alu {mk : Hdr → Fin 32 → Fin 32 → Fin 32 → Instr} {b : Nat} (hb : b / 64 = 0x8000)
    (hmap : ∀ h w, w / 0x200000 % 64 = b / 0x200000 % 64 → w % 64 = b % 64 →
      decodeShared h w = .word (mk h (fld w 16 32) (fld w 11 32) (fld w 6 32)) [])
    (k : StrandId) (h : Hdr) (x y z : Fin 32) :
    decode (.strand k) (b + hdr h + 65536 * x.val + 2048 * y.val + 64 * z.val) = .word (mk h x y z) [] := by
  simp (disch := omega) only [Nat.add_assoc, decode_shared_word, hmap h _ (op_word _) (low_code_word rfl _),
    fld_coded_word, fld_mul_skip, fld_mul_add]

theorem decode_imm11 {mk : Hdr → Fin 32 → Fin 32 → Fin 2048 → Instr} {b : Nat} (hb : b / 0x8000000 = 0)
    (hlow : b % 0x200000 = 0) (hmap : ∀ h w, w / 0x200000 % 64 = b / 0x200000 % 64 →
      decodeShared h w = .word (mk h (fld w 16 32) (fld w 11 32) (fld w 0 2048)) [])
    (k : StrandId) (h : Hdr) (x y : Fin 32) (z : Fin 2048) :
    decode (.strand k) (b + hdr h + 65536 * x.val + 2048 * y.val + z.val) = .word (mk h x y z) [] := by
  simp (disch := omega) only [Nat.add_assoc, decode_shared_word, hmap h _ (op_word _), fld_word, fld_mul_skip,
    fld_mul_add, fld_val]

/-- The conditional branches, whose condition code stands between the register and the offset. -/
theorem decode_branch {mk : Hdr → Fin 32 → Fin 8192 → Instr} {b : Nat} (hb : b / 0x10000 = 0x200)
    (hlow : b % 0x2000 = 0) (hmap : ∀ h w, w / 0x200000 % 64 = b / 0x200000 % 64 → w / 8192 % 8 = b / 8192 % 8 →
      decodeShared h w = .word (mk h (fld w 16 32) (fld w 0 8192)) [])
    (k : StrandId) (h : Hdr) (x : Fin 32) (z : Fin 8192) :
    decode (.strand k) (b + hdr h + 65536 * x.val + z.val) = .word (mk h x z) [] := by
  have hcode : (b + (hdr h + (65536 * x.val + z.val))) / 8192 % 8 = b / 8192 % 8 := code_word rfl (by omega)
  simp (disch := omega) only [Nat.add_assoc, decode_shared_word, hmap h _ (op_word _) hcode, fld_coded_word,
    fld_mul_skip, fld_mul_add, fld_val_add]

theorem decode_encode_shared {i : Instr} (k : StrandId) (hw : wf i = true) (hi : home i = .shared) :
    decode (.strand k) (encode i) = .word i [] := by
  cases i with
  | add | sub | and | or | xor | shl | shr | sra | slt | sltu | min | max | minu | maxu | mul | mulh | mulhu | div
  | divu | rem | remu =>
    exact decode_alu rfl (fun h w hop hf => by rw [decodeShared, hop, hf]; rfl) k ..
  | clz | popc =>
    simp (disch := omega) only [encode, Nat.add_assoc, decode_shared_word, decodeShared, op_word, low_code_word,
      fld_coded_word, fld_mul_add, fld_mul_skip, zeros_word, zeros_nil, Nat.reduceDiv, Nat.reduceMod]
  | addi | andi | ori | xori | slti | sltiu =>
    exact decode_imm11 rfl rfl (fun h w hop => by rw [decodeShared, hop]; rfl) k ..
  | beqz | bnez | bltz | bgez | blez | bgtz =>
    exact decode_branch rfl rfl (fun h w hop hf => by rw [decodeShared, hop, hf]; rfl) k ..
  | shli | shri | srai | movi | movk1 | movk2 | movk3 | j | jal | jr | jalr | loop | cadd | cwait | bar | mfence
  | swi =>
    simp (disch := omega) only [encode, Nat.add_assoc, decode_shared_word, decodeShared, op_word, Nat.reduceDiv,
      Nat.reduceMod, fld_word, fld_mul_skip, fld_mul_add, fld_mul, fld_val, zeros_word, zeros_nil]
  | br =>
    simp (disch := omega) only [encode, Nat.add_assoc, decode_shared_word, decodeShared, op_word, code_word,
      Nat.reduceDiv, Nat.reduceMod, fld_coded_word, fld_val_add, zeros_word, zeros_nil]
  -- A canonical number is none of those with a constructor of their own, so the map answers its last arm.
  | sprd h d a n =>
    have hn : n.val ≠ 0x31 := by simpa [canonical] using (Bool.and_eq_true_iff.1 hw).2
    simp (disch := omega) only [encode, Nat.add_assoc, decode_shared_word, decodeShared, op_word, mod_word,
      Nat.reduceDiv, Nat.reduceMod, fld_word, fld_mul_skip, fld_mul_add, fld_val, zeros_nil]
  | sprdDmdq | spwrJoinmask | spwrSpsplit | spwrMprog | spwrDmsub | spwrTret =>
    simp (disch := omega) only [encode, Nat.add_assoc, decode_shared_word, decodeShared, op_word, low_code_word,
      Nat.reduceDiv, Nat.reduceMod, fld_coded_word, fld_mul_add, fld_mul_skip, zeros_word, zeros_nil]
  | spwr h a n =>
    have hn : (((n.val ≠ 0x02 ∧ n.val ≠ 0x04) ∧ n.val ≠ 0x20) ∧ n.val ≠ 0x30) ∧ n.val ≠ 0x46 := by
      simpa [canonical] using (Bool.and_eq_true_iff.1 hw).2
    simp (disch := omega) only [encode, Nat.add_assoc, decode_shared_word, decodeShared, op_word, mod_word,
      Nat.reduceDiv, Nat.reduceMod, fld_word, fld_mul_skip, fld_mul_add, fld_val, zeros_word, zeros_nil]
  | halt =>
    rw [encode, ← Nat.add_zero (hdr _)]
    simp (disch := omega) only [decode_shared_word, decodeShared, op_word, Nat.reduceDiv, Nat.reduceMod, zeros_word,
      zeros_nil]
  | _ => cases hi

/-! ## Strand Q's own map (R152, R158) -/

theorem decode_encode_q {i : Instr} (hi : home i = .only .q) : decode (.strand .q) (encode i) = .word i [] := by
  cases i with
  | start | nest | taskpush | taskpop | canst | ssave | srest | gpwr | gprd | awlrun | ovl | tlbinv | cwb | cinv
  | fwcall =>
    simp (disch := omega) only [encode, Nat.add_assoc, decode_own_word, decodeQ, op_word, Nat.reduceDiv,
      Nat.reduceMod, fld_word, fld_mul_skip, fld_mul_add, fld_mul, fld_val, zeros_word, zeros_nil]
  | yield | tlbinva =>
    rw [encode, ← Nat.add_zero (hdr _)]
    simp (disch := omega) only [decode_own_word, decodeQ, op_word, Nat.reduceDiv, Nat.reduceMod, zeros_word,
      zeros_nil]
  | _ => cases hi

theorem decode_vec3 {mk : Hdr → Fin 128 → Fin 128 → Fin 128 → Instr} {b : Nat} (hb : b / 0x8000000 = 16)
    (hlow : b % 0x200000 = 0) (hmap : ∀ h w, w / 0x200000 % 64 = b / 0x200000 % 64 →
      decodeV h w = .word (mk h (fld w 14 128) (fld w 7 128) (fld w 0 128)) [])
    (h : Hdr) (x y z : Fin 128) :
    decode (.strand .v) (b + hdr h + 16384 * x.val + 128 * y.val + z.val) = .word (mk h x y z) [] := by
  simp (disch := omega) only [Nat.add_assoc, decode_own_word, hmap h _ (op_word _), fld_word, fld_mul_skip,
    fld_mul_add, fld_val]

theorem decode_vec2 {mk : Hdr → Fin 128 → Fin 128 → Instr} {b : Nat} (hb : b / 0x8000000 = 16)
    (hlow : b % 0x200000 = 0) (hmap : ∀ h w, w / 0x200000 % 64 = b / 0x200000 % 64 →
      decodeV h w = .word (mk h (fld w 14 128) (fld w 7 128)) (zeros w [(0, 128)]))
    (h : Hdr) (x y : Fin 128) :
    decode (.strand .v) (b + hdr h + 16384 * x.val + 128 * y.val) = .word (mk h x y) [] := by
  simp (disch := omega) only [Nat.add_assoc, decode_own_word, hmap h _ (op_word _), fld_word, fld_mul_skip,
    fld_mul_add, fld_mul, zeros_word, zeros_nil]

/-- The forms of `mvacc`, whose code stands between the accumulator and the group. -/
theorem decode_mvacc {mk : Hdr → Fin 128 → Fin 4 → Fin 8 → Fin 32 → Instr} {b : Nat} (hb : b / 0x1000 = 0x87000)
    (hlow : b % 0x400 = 0) (hmap : ∀ h w, w / 0x200000 % 64 = b / 0x200000 % 64 → w / 1024 % 4 = b / 1024 % 4 →
      decodeV h w = .word (mk h (fld w 14 128) (fld w 12 4) (fld w 7 8) (fld w 2 32)) (zeros w [(0, 4)]))
    (h : Hdr) (v : Fin 128) (x : Fin 4) (y : Fin 8) (z : Fin 32) :
    decode (.strand .v) (b + hdr h + 16384 * v.val + 4096 * x.val + 128 * y.val + 4 * z.val) =
      .word (mk h v x y z) [] := by
  have hcode : (b + (hdr h + (16384 * v.val + (4096 * x.val + (128 * y.val + 4 * z.val))))) / 1024 % 4 =
    b / 1024 % 4 := code_word rfl (by omega)
  simp (disch := omega) only [Nat.add_assoc, decode_own_word, hmap h _ (op_word _) hcode, fld_coded_word, fld_mul_skip,
    fld_mul_add_of_mod, zeros_word, zeros_nil]

theorem decode_encode_v {i : Instr} (hi : home i = .only .v) : decode (.strand .v) (encode i) = .word i [] := by
  cases i with
  | vfadd | vfsub | vfmul | vfma | vfmax | vfmin | vfceq | vfclt | vfcle | vbadd | vbsub | vbmul | vbfma | vadd | vsub
  | vmul | vand | vor | vxor | vshl | vshr | vsra | vmax | vmin | vceq | vclt | vsel | vcvtfb | vcvtbf | vcvtfi
  | vcvtif | vcvtl8 | vcvtl6 | vxl8 | vxl6 | vperm =>
    exact decode_vec3 rfl rfl (fun h w hop => by rw [decodeV, hop]; rfl) ..
  | vmov | vexp2 | vlog2 | vrcp | vrsq | vredadd | vredmax | vredmin | vrediadd =>
    exact decode_vec2 rfl rfl (fun h w hop => by rw [decodeV, hop]; rfl) ..
  | mvaccRow | mvaccCol | mvaccRowPeek | mvaccColPeek =>
    exact decode_mvacc rfl rfl (fun h w hop hf => by rw [decodeV, hop, hf]; rfl) ..
  | vshli | vrot | vbcast | vext | vimm | vld | vst =>
    simp (disch := omega) only [encode, Nat.add_assoc, decode_own_word, decodeV, op_word, Nat.reduceDiv,
      Nat.reduceMod, fld_word, fld_mul_skip, fld_mul_add, fld_mul, fld_val, zeros_word, zeros_nil]
  | _ => cases hi

/-! ## Strand M's own map (R154, R160) -/

theorem decode_wldTile {mk : Hdr → Fin 2 → Fin 512 → Instr} {b : Nat} (hb : b / 0x8000000 = 16)
    (hlow : b % 0x200000 = 0) (hmap : ∀ h w, w / 0x200000 % 64 = b / 0x200000 % 64 → w / 8192 % 2 = b / 8192 % 2 →
      decodeM h w = .word (mk h (fld w 20 2) (fld w 4 512)) (zeros w [(0, 16), (14, 64)]))
    (h : Hdr) (x : Fin 2) (z : Fin 512) :
    decode (.strand .m) (b + hdr h + 1048576 * x.val + 16 * z.val) = .word (mk h x z) [] := by
  have hcode : (b + (hdr h + (1048576 * x.val + 16 * z.val))) / 8192 % 2 = b / 8192 % 2 := code_word rfl (by omega)
  simp (disch := omega) only [Nat.add_assoc, decode_own_word, hmap h _ (op_word _) hcode, fld_word, fld_mul_skip,
    fld_mul_add, fld_mul, zeros_word, zeros_nil]

/-- The loads from a handle, whose code stands between the plane and the register. -/
theorem decode_wldHandle {mk : Hdr → Fin 2 → Fin 32 → Instr} {b : Nat} (hb : b / 0x8000000 = 16)
    (hlow : b % 0x200000 = 0x2000) (hmap : ∀ h w, w / 0x200000 % 64 = b / 0x200000 % 64 →
      w / 8192 % 2 = b / 8192 % 2 →
      decodeM h w = .word (mk h (fld w 20 2) (fld w 8 32)) (zeros w [(0, 16), (4, 16), (14, 64)]))
    (h : Hdr) (x : Fin 2) (z : Fin 32) :
    decode (.strand .m) (b + hdr h + 1048576 * x.val + 256 * z.val) = .word (mk h x z) [] := by
  have hcode : (b + (hdr h + (1048576 * x.val + 256 * z.val))) / 8192 % 2 = b / 8192 % 2 := code_word rfl (by omega)
  simp (disch := omega) only [Nat.add_assoc, decode_own_word, hmap h _ (op_word _) hcode, fld_coded_word, fld_mul_skip,
    fld_mul_add_of_mod, zeros_word, zeros_nil]

theorem decode_mmaTile {mk : Hdr → Fin 4 → Fin 2 → Fin 8 → Fin 2 → Fin 512 → Instr} {b : Nat}
    (hb : b / 0x8000000 = 16) (hlow : b % 0x200000 = 0) (hmap : ∀ h w, w / 0x200000 % 64 = b / 0x200000 % 64 →
      w / 8192 % 2 = b / 8192 % 2 →
      decodeM h w = .word (mk h (fld w 19 4) (fld w 18 2) (fld w 15 8) (fld w 14 2) (fld w 4 512)) (zeros w [(0, 16)]))
    (h : Hdr) (u : Fin 4) (v : Fin 2) (x : Fin 8) (y : Fin 2) (z : Fin 512) :
    decode (.strand .m) (b + hdr h + 524288 * u.val + 262144 * v.val + 32768 * x.val + 16384 * y.val + 16 * z.val) =
      .word (mk h u v x y z) [] := by
  have hcode : (b + (hdr h + (524288 * u.val + (262144 * v.val + (32768 * x.val + (16384 * y.val + 16 * z.val)))))) /
    8192 % 2 = b / 8192 % 2 := code_word rfl (by omega)
  simp (disch := omega) only [Nat.add_assoc, decode_own_word, hmap h _ (op_word _) hcode, fld_word, fld_mul_skip,
    fld_mul_add, fld_mul, zeros_word, zeros_nil]

/-- The multiplies by a handle, whose code stands between the other operands and the register. -/
theorem decode_mmaHandle {mk : Hdr → Fin 4 → Fin 2 → Fin 8 → Fin 2 → Fin 32 → Instr} {b : Nat}
    (hb : b / 0x8000000 = 16) (hlow : b % 0x200000 = 0x2000) (hmap : ∀ h w, w / 0x200000 % 64 = b / 0x200000 % 64 →
      w / 8192 % 2 = b / 8192 % 2 →
      decodeM h w = .word (mk h (fld w 19 4) (fld w 18 2) (fld w 15 8) (fld w 14 2) (fld w 8 32))
        (zeros w [(0, 16), (4, 16)]))
    (h : Hdr) (u : Fin 4) (v : Fin 2) (x : Fin 8) (y : Fin 2) (z : Fin 32) :
    decode (.strand .m) (b + hdr h + 524288 * u.val + 262144 * v.val + 32768 * x.val + 16384 * y.val + 256 * z.val) =
      .word (mk h u v x y z) [] := by
  have hcode : (b + (hdr h + (524288 * u.val + (262144 * v.val + (32768 * x.val + (16384 * y.val + 256 * z.val)))))) /
    8192 % 2 = b / 8192 % 2 := code_word rfl (by omega)
  simp (disch := omega) only [Nat.add_assoc, decode_own_word, hmap h _ (op_word _) hcode, fld_coded_word, fld_mul_skip,
    fld_mul_add_of_mod, zeros_word, zeros_nil]

theorem decode_encode_m {i : Instr} (hi : home i = .only .m) : decode (.strand .m) (encode i) = .word i [] := by
  cases i with
  | wldL8Tile | wldL6Tile | wldBf16Tile | wldI8Tile =>
    exact decode_wldTile rfl rfl (fun h w hop hf => by rw [decodeM, hop, hf]; rfl) ..
  | wldL8Handle | wldL6Handle | wldBf16Handle | wldI8Handle =>
    exact decode_wldHandle rfl rfl (fun h w hop hf => by rw [decodeM, hop, hf]; rfl) ..
  | mmaL8Tile | mmaL6Tile | mmaBf16Tile | mmaI8Tile =>
    exact decode_mmaTile rfl rfl (fun h w hop hf => by rw [decodeM, hop, hf]; rfl) ..
  | mmaL8Handle | mmaL6Handle | mmaBf16Handle | mmaI8Handle =>
    exact decode_mmaHandle rfl rfl (fun h w hop hf => by rw [decodeM, hop, hf]; rfl) ..
  | mdrain | mzero | mkld | mkrng | mkall | mpbld | lutld | mwait | trgo =>
    simp (disch := omega) only [encode, Nat.add_assoc, decode_own_word, decodeM, op_word, Nat.reduceDiv,
      Nat.reduceMod, fld_word, fld_mul_skip, fld_mul_add, fld_mul, zeros_word, zeros_nil]
  | trstop | trwait =>
    rw [encode, ← Nat.add_zero (hdr _)]
    simp (disch := omega) only [decode_own_word, decodeM, op_word, Nat.reduceDiv, Nat.reduceMod, zeros_word,
      zeros_nil]
  | _ => cases hi

/-! ## Strand L's own map (R155, R161) -/

theorem decode_atomic {mk : Hdr → Fin 32 → Fin 32 → Fin 32 → Fin 32 → Fin 2 → Instr} {b : Nat}
    (hb : b / 0x8000000 = 16) (hlow : b % 0x200000 = 0) (hmap : ∀ h w, w / 0x200000 % 64 = b / 0x200000 % 64 →
      decodeL h w = .word (mk h (fld w 16 32) (fld w 11 32) (fld w 6 32) (fld w 1 32) (fld w 0 2)) [])
    (h : Hdr) (u v x y : Fin 32) (z : Fin 2) :
    decode (.strand .l) (b + hdr h + 65536 * u.val + 2048 * v.val + 64 * x.val + 2 * y.val + z.val) =
      .word (mk h u v x y z) [] := by
  simp (disch := omega) only [Nat.add_assoc, decode_own_word, hmap h _ (op_word _), fld_word, fld_mul_skip,
    fld_mul_add, fld_val]

theorem decode_copy {mk : Hdr → Fin 32 → Fin 32 → Fin 32 → Fin 32 → Instr} {b : Nat}
    (hb : b / 0x8000000 = 16) (hlow : b % 0x200000 = 0) (hmap : ∀ h w, w / 0x200000 % 64 = b / 0x200000 % 64 →
      decodeL h w = .word (mk h (fld w 16 32) (fld w 11 32) (fld w 6 32) (fld w 1 32)) (zeros w [(0, 2)]))
    (h : Hdr) (u v x y : Fin 32) :
    decode (.strand .l) (b + hdr h + 65536 * u.val + 2048 * v.val + 64 * x.val + 2 * y.val) =
      .word (mk h u v x y) [] := by
  simp (disch := omega) only [Nat.add_assoc, decode_own_word, hmap h _ (op_word _), fld_word, fld_mul_skip,
    fld_mul_add, fld_mul, zeros_word, zeros_nil]

theorem decode_encode_l {i : Instr} (hi : home i = .only .l) : decode (.strand .l) (encode i) = .word i [] := by
  cases i with
  | amoAdd | amoAnd | amoOr | amoXor | amoMax | amoMin | amoSwap | amoCas =>
    exact decode_atomic rfl rfl (fun h w hop => by rw [decodeL, hop]; rfl) ..
  | wcpIn | wcpOut | wcpRt | wcpGg | wcpCond | wcpMm | coll | kvapp | kvqry =>
    exact decode_copy rfl rfl (fun h w hop => by rw [decodeL, hop]; rfl) ..
  | ld | st | pf | redAdd | redMax | redMin | talloc | tseal | twait | tstat | tdrop | kvfork | kvcan | kvmig | kvrel =>
    simp (disch := omega) only [encode, Nat.add_assoc, decode_own_word, decodeL, op_word, Nat.reduceDiv,
      Nat.reduceMod, fld_word, fld_mul_skip, fld_mul_add, fld_mul, fld_val, zeros_word, zeros_nil]
  | _ => cases hi

/-! ## The Awl's map (R303, R304) -/

theorem op_awl {b r : Nat} (hb : b % 0x4000000 = 0) (hr : r < 0x4000000) :
    (b + r) / 0x4000000 % 64 = b / 0x4000000 % 64 := by
  omega

theorem decode_awl3 {mk : Fin 16 → Fin 16 → Fin 16 → Instr} {b : Nat} (hb : b % 0x4000000 = 0)
    (hmap : ∀ w, w / 0x4000000 % 64 = b / 0x4000000 % 64 →
      decodeAwl w = .word (mk (fld w 22 16) (fld w 18 16) (fld w 14 16)) (zeros w [(0, 16384)]))
    (x y z : Fin 16) :
    decode .awl (b + 4194304 * x.val + 262144 * y.val + 16384 * z.val) = .word (mk x y z) [] := by
  simp (disch := omega) only [Nat.add_assoc, decode, hmap _ (op_awl _ _), fld_skip, fld_mul_add, fld_mul, zeros_cons,
    zeros_nil]

theorem decode_awl2 {mk : Fin 16 → Fin 16 → Instr} {b : Nat} (hb : b % 0x4000000 = 0)
    (hmap : ∀ w, w / 0x4000000 % 64 = b / 0x4000000 % 64 →
      decodeAwl w = .word (mk (fld w 22 16) (fld w 18 16)) (zeros w [(0, 16384), (14, 16)]))
    (x y : Fin 16) : decode .awl (b + 4194304 * x.val + 262144 * y.val) = .word (mk x y) [] := by
  simp (disch := omega) only [Nat.add_assoc, decode, hmap _ (op_awl _ _), fld_skip, fld_mul_add, fld_mul, zeros_cons,
    zeros_nil]

theorem decode_encode_awl {i : Instr} (hi : home i = .awl) : decode .awl (encode i) = .word i [] := by
  cases i with
  | awlStop => rfl
  | awlAdd | awlSub | awlAnd | awlShr | awlSlt | awlFadd | awlFmul | awlFmax | awlCpen | awlCpick | awlCget | awlPadd
  | awlDnode | awlDbest =>
    exact decode_awl3 rfl (fun w hop => by rw [decodeAwl, hop]; rfl) ..
  | awlFrcp | awlFexp2 | awlFlog2 | awlFcvt | awlFint | awlFbits | awlWbits | awlRdraw | awlDcommit =>
    exact decode_awl2 rfl (fun w hop => by rw [decodeAwl, hop]; rfl) ..
  | awlAddi | awlWli | awlLw | awlSw | awlBeq | awlBne | awlBlt | awlJmp | awlCld | awlCtopk | awlTok =>
    simp (disch := omega) only [encode, Nat.add_assoc, decode, decodeAwl, op_awl, Nat.reduceDiv, Nat.reduceMod,
      fld_skip, fld_mul_add, fld_mul, fld_val, zeros_cons, zeros_nil]
  | _ => cases hi

end Sys2Proof
end

section
/-! SUPPORT. The word of every instruction is a 32-bit word: the laws of the single instructions, put together. -/

namespace Sys2Proof.Laws.WordSize

theorem statement (i : Instr) : Statement i :=
  i.casesOn (motive := Statement)
    add sub and or xor shl shr sra slt sltu min max minu maxu mul mulh mulhu div divu rem remu clz popc addi andi
    ori xori slti sltiu shli shri srai movi movk1 movk2 movk3 beqz bnez bltz bgez blez bgtz br j jal jr jalr loop
    cadd cwait bar mfence sprd sprdDmdq spwr spwrJoinmask spwrSpsplit spwrMprog spwrDmsub spwrTret halt swi start
    nest taskpush taskpop yield canst ssave srest gpwr gprd awlrun ovl tlbinv tlbinva cwb cinv fwcall vfadd vfsub
    vfmul vfma vfmax vfmin vfceq vfclt vfcle vbadd vbsub vbmul vbfma vadd vsub vmul vand vor vxor vshl vshr vsra
    vmax vmin vceq vclt vsel vshli vmov vcvtfb vcvtbf vcvtfi vcvtif vcvtl8 vcvtl6 vxl8 vxl6 vexp2 vlog2 vrcp vrsq
    vredadd vredmax vredmin vrediadd vperm vrot vbcast vext vimm vld vst mvaccRow mvaccCol mvaccRowPeek mvaccColPeek
    wldL8Tile wldL8Handle wldL6Tile wldL6Handle wldBf16Tile wldBf16Handle wldI8Tile wldI8Handle mmaL8Tile
    mmaL8Handle mmaL6Tile mmaL6Handle mmaBf16Tile mmaBf16Handle mmaI8Tile mmaI8Handle mdrain mzero mkld mkrng mkall
    mpbld lutld mwait trgo trstop trwait ld st pf amoAdd amoAnd amoOr amoXor amoMax amoMin amoSwap amoCas redAdd
    redMax redMin talloc tseal twait tstat tdrop wcpIn wcpOut wcpRt wcpGg wcpCond wcpMm coll kvapp kvqry kvfork
    kvcan kvmig kvrel awlAdd awlSub awlAnd awlShr awlSlt awlAddi awlWli awlFadd awlFmul awlFmax awlFrcp awlFexp2
    awlFlog2 awlFcvt awlFint awlFbits awlWbits awlLw awlSw awlBeq awlBne awlBlt awlJmp awlStop awlCld awlCpen
    awlCtopk awlCpick awlCget awlRdraw awlPadd awlTok awlDnode awlDbest awlDcommit powerGood
    flashImageVerificationEnd bdoorGo hostImageVerificationEnd stagingWindowWrite readPowerLimit setPowerLimit
    counterReset sizeKvPools clearFenceList setModuleNumber undefinedFirmwareFunction functionReady
    operatingPointChange dieReaches95c dieReaches110c bootMailboxGo imageLoadEnd launchEnd nestIterationDispatch
    iterationEnd rendezvousDeadlock rsvopTrap irangeTrap engineTrap fixedLatencyWrite coreFreezeEnd
    variableLatencyResult demandDelivery remoteWaitAnswer remoteWaitResend counterAddArrival tableWalkEnd
    loadRetirement leaseRenewal arrival arrivalRetry arrivalWaitRecord redAtHome lineEviction writeBackArrival
    writeBackResend atomicAtHome podAtomicAtHome space2AccessAtTarget podAccessAtTarget postedAccessFailure
    overlayLoadEnd weightLoadStart weightLoadEnd multiplyStart multiplyRowComplete multiplyRetire mzeroRetire
    drainStart drainLineWrite drainEnd tableInstall operandLineTimeout treadleRunStart treadleBeat treadleRunEnd
    followOnEntry weltLine weltCommandComplete conditionalCopyCommit collectiveCompare collectiveComplete
    contextEntryArrival contextEntryResend noteComplete appendExecute queryExecute queryExecutionEnd forkExecute
    relabelExecute migrateExecute cancelArrivalTdie contextCommandCompletion cinchMerge contextHoldTimeout
    tableFullHoldTimeout writeHoldTimeout activationWave awlRunStart awlAdmit awlRetire awlProgramWordWrite
    awlctlWrite gctlGo grecWrite graphNodeDispatch graphNodeRedispatch graphReplayEnd graphWaitRecord
    preemptionRequest preemptionService saveEnd iterationResume restoreEnd cancelArrivalKdie cancelCoreStop
    cancelEffectsDone messageForward podForward flitReceive flitReplay flitRefusalResend linkLossOfLock
    retrainAttemptEnd opticalRetrainAttemptEnd fabricRequestWithdrawal expanderAckTimeout expanderFenceTimeout
    hostTlpReceive hostMemoryAccess hostLinkDown hostLinkReturn patrolScrub telemetryFlush thermalSample
    orderlyPowerDown logtailWrite gdefWrite registerWrite singleFault lossOfSupply activeBankLimitRaise
    reductionTreeShapeChange

end Sys2Proof.Laws.WordSize
end

section
/-! The statements about the maps: the words that the spec writes out, and decoding what was encoded. -/

namespace Sys2Proof

/-- Settles O3: bit 31 chooses the half, and each word written out evaluates to what it stands for. -/
theorem wordsDecode : Obligations.WordsDecode :=
  ⟨fun _ hw => ⟨decode_of_lt, decode_of_le hw⟩, rfl, fun _ => ⟨rfl, rfl, rfl, rfl⟩, rfl, rfl, rfl, rfl, rfl,
    rfl, rfl, rfl, rfl, rfl, rfl, rfl, rfl, rfl, rfl⟩

/-- Settles O4, map by map. -/
theorem decodeEncode : Obligations.DecodeEncode := by
  intro i hw
  refine ⟨(Laws.WordSize.statement i).1, fun hi k => decode_encode_shared k hw hi, fun k hk => ?_, decode_encode_awl⟩
  cases k with
  | q => exact decode_encode_q hk
  | v => exact decode_encode_v hk
  | m => exact decode_encode_m hk
  | l => exact decode_encode_l hk

end Sys2Proof
end

section
/-! SUPPORT. Words that issue: a ready word of the shared map or of strand Q's, the checks that find nothing, the one result
of an arithmetic word, and the trap of a word with one offence. -/

namespace Sys2Proof.Machine

/-! ## Checks that find nothing (R378, R384) -/

theorem val_of_not {c : Prop} [Decidable c] {bit reason : Nat} (h : ¬c) : val c bit reason = [] := if_neg h

theorem rng_of_not {c : Prop} [Decidable c] {bit reason : Nat} (h : ¬c) : rng c bit reason = [] := if_neg h

theorem forbid_of_not {c : Prop} [Decidable c] {bit : Nat} (h : ¬c) : forbid c bit = [] := if_neg h

/-! ## Ready words (R31, R378) -/

/-- A ready word of the shared map that nothing keeps from issuing. -/
theorem exec_ready {i : Instr} {s : State} {h : Hdr} {p : Plan} (he : exec i s = .next (s.issue h p)) (hc : p.clear)
    (hr : s.ready p.accs p.lat = true) :
    exec i s = .next (s.after h p.accs p.target fun t => p.go (p.found t)) :=
  he.trans (congrArg _ (issue_ready s h p hc hr))

/-- A ready word of strand Q's map that nothing keeps from issuing. -/
theorem execQ_ready {o : Host.Outcome State Fault Refusal} {s : State} {h : Hdr} {p : State → Plan}
    (he : o = s.issueOn .q h p) (hq : s.cur.strand = .q) (hc : (p s).clear)
    (hr : s.ready (p s).accs (p s).lat = true) :
    o = .next (s.after h (p s).accs (p s).target fun t => (p s).go ((p s).found t)) :=
  he.trans (issueOn_ready s .q h p hq hc hr)

theorem after_here (s : State) (h : Hdr) (l : List Acc) (t : Option Nat) (f : State → Core) :
    (s.after h l t fun u => u.setHere (f u)).here = f (s.moved h l t) :=
  here_setHere ..

/-! ## Ready words with one scalar result (R145, R166, R167) -/

theorem scalar_ready {s : State} {h : Hdr} {accs : List Acc} {n d : Nat} {v : Word}
    (hr : s.ready accs (some n) = true) :
    s.issue h (s.scalar accs n d v) = s.after h accs none fun t => t.writeX s.tok n d v :=
  issue_ready s h _ ⟨rfl, rfl, rfl, rfl, rfl⟩ hr

section Ready
variable {i : Instr} {s : State} {h : Hdr} {d a b n : Nat} {v : Word}

theorem alu_ready {f : Word → Word → Word} (he : exec i s = .next (s.alu h d a b n f))
    (hr : s.ready [wrx d 16, rdx a 11, rdx b 6] (some n) = true) (hv : f (s.rx a) (s.rx b) = v) :
    exec i s = .next (s.after h [wrx d 16, rdx a 11, rdx b 6] none fun t => t.writeX s.tok n d v) := by
  rw [he, State.alu, scalar_ready hr, hv]

theorem alu1_ready {f : Word → Word} (he : exec i s = .next (s.alu1 h d a f))
    (hr : s.ready [wrx d 16, rdx a 11] (some 1) = true) (hv : f (s.rx a) = v) :
    exec i s = .next (s.after h [wrx d 16, rdx a 11] none fun t => t.writeX s.tok 1 d v) := by
  rw [he, State.alu1, scalar_ready hr, hv]

theorem aluLong_ready {f : Word → Word → Word} (he : exec i s = .next (s.aluLong h d a b f))
    (hr : s.ready [wrx d 16, rdx a 11, rdx b 6] none = true) (hv : f (s.rx a) (s.rx b) = v) :
    exec i s = .next (s.after h [wrx d 16, rdx a 11, rdx b 6] none fun t => t.promiseX s.tok d v) := by
  rw [he, State.aluLong, hv]
  exact congrArg _ (issue_ready s h _ ⟨rfl, rfl, rfl, rfl, rfl⟩ hr)

theorem movk_ready {k j : Nat} (he : exec i s = .next (s.movk h k d j))
    (hr : s.ready [⟨.x d, true, true, 16⟩] (some 1) = true) :
    exec i s = .next (s.after h [⟨.x d, true, true, 16⟩] none fun t =>
      t.writeX s.tok 1 d (insertHalf k (s.rx d) j)) := by
  rw [he, State.movk, scalar_ready hr]

end Ready

/-! ## Words with one offence (R143, R378, R384) -/

/-- A word that is looked at and has one offence of its bits takes the trap of that offence. -/
theorem issue_stage1 {s : State} {h : Hdr} {p : Plan} {o : Offence} (hn : s.here.notYet s.cur.strand = false)
    (hd : s.doomed s.cur.core s.cur.strand = false) (hw : s.waitTrap s.cur.core s.cur.strand = none)
    (ho : s.cur.format ++ p.bits ++ aliasOffences s.cur.strand p.accs = [o]) :
    s.issue h p = s.trapHere ILLOP 0 (offenceInfo o) none true := by
  simp only [State.issue, hn, hd, hw, ho, firstOffence, Bool.or_false, Bool.false_eq_true, if_false]

/-- A ready word whose only fault is one offence of stage 3 takes the trap of that offence. -/
theorem issue_stage3 {s : State} {h : Hdr} {p : Plan} {o : Offence} (hb : p.bits = []) (hw : p.waits = [])
    (hr : s.ready p.accs p.lat = true) (ho : p.checks = [o]) :
    s.issue h p = s.failHere p ILLOP 0 (offenceInfo o) none := by
  simp only [State.ready, Bool.and_eq_true, Bool.not_eq_true', Option.isNone_iff_eq_none, List.isEmpty_iff] at hr
  obtain ⟨⟨⟨⟨⟨⟨hyet, hdoomed⟩, hwait⟩, hformat⟩, halias⟩, hplaces⟩, hboard⟩ := hr
  have hconflict : (if s.here.sbcheckOn then s.here.conflict s.cur.strand p else none) = none := by
    rw [conflict_accs]
    cases hon : s.here.sbcheckOn with
    | false => rfl
    | true => simpa [hon] using hboard
  have hfirst : firstOffence (stage3 [o]) = some o := by cases hv : o.val <;> simp [stage3, hv, firstOffence]
  simp only [State.issue, hyet, hdoomed, hwait, hformat, halias, hb, waitsOf_clear _ _ _ p hw, hplaces, hconflict, ho,
    hfirst, firstOffence, List.append_nil, Bool.or_false, Bool.false_eq_true, if_false]

theorem alu1_format {i : Instr} {s : State} {h : Hdr} {d a : Nat} {f : Word → Word} {o : Offence}
    (he : exec i s = .next (s.alu1 h d a f)) (hn : s.here.notYet s.cur.strand = false)
    (hd : s.doomed s.cur.core s.cur.strand = false) (hw : s.waitTrap s.cur.core s.cur.strand = none)
    (hf : s.cur.format = [o]) (ha : aliasOffences s.cur.strand [wrx d 16, rdx a 11] = []) :
    exec i s = .next (s.trapHere ILLOP 0 (offenceInfo o) none true) := by
  have ho : s.cur.format ++ [] ++ aliasOffences s.cur.strand [wrx d 16, rdx a 11] = [o] := by rw [hf, ha]; rfl
  rw [he, State.alu1, issue_stage1 hn hd hw ho]

end Sys2Proof.Machine
end

section
/-! SUPPORT. The values of the integer words as integers and natural numbers, and the statements about them. -/

namespace Sys2Proof.Machine

/-! ## Sums, products and shifts (R166) -/

theorem add_eq_ofInt (x y : Word) : x + y = BitVec.ofInt 64 (x.toInt + y.toInt) := by
  rw [BitVec.ofInt_add, BitVec.ofInt_toInt, BitVec.ofInt_toInt]

theorem sub_eq_ofInt (x y : Word) : x - y = BitVec.ofInt 64 (x.toInt - y.toInt) := by
  rw [Int.sub_eq_add_neg, BitVec.ofInt_add, BitVec.ofInt_neg, BitVec.ofInt_toInt, BitVec.ofInt_toInt,
    BitVec.sub_eq_add_neg]

theorem mul_eq_ofInt (x y : Word) : x * y = BitVec.ofInt 64 (x.toInt * y.toInt) := by
  rw [BitVec.ofInt_mul, BitVec.ofInt_toInt, BitVec.ofInt_toInt]

theorem shiftLeft_eq_ofNat (x : Word) (n : Nat) : x <<< n = BitVec.ofNat 64 (x.toNat * 2 ^ n) :=
  BitVec.eq_of_toNat_eq (by rw [BitVec.toNat_shiftLeft, Nat.shiftLeft_eq, BitVec.toNat_ofNat])

theorem ushiftRight_eq_ofNat (x : Word) (n : Nat) : x >>> n = BitVec.ofNat 64 (x.toNat / 2 ^ n) := by
  refine BitVec.eq_of_toNat_eq ?_
  rw [BitVec.toNat_ushiftRight, Nat.shiftRight_eq_div_pow, BitVec.toNat_ofNat,
    Nat.mod_eq_of_lt (Nat.lt_of_le_of_lt (Nat.div_le_self ..) x.isLt)]

theorem sshiftRight_eq_ofInt (x : Word) (n : Nat) : x.sshiftRight n = BitVec.ofInt 64 (x.toInt / 2 ^ n) := by
  rw [BitVec.sshiftRight, Int.shiftRight_eq_div_pow]
  norm_cast

/-! ## Comparisons, the lesser and the greater (R166) -/

theorem boolWord_slt (x y : Word) : boolWord (x.slt y) = if x.toInt < y.toInt then 1 else 0 := by
  simp [boolWord, BitVec.slt_eq_decide]

theorem boolWord_ult (x y : Word) : boolWord (x.ult y) = if x.toNat < y.toNat then 1 else 0 := by
  simp [boolWord, BitVec.ult_eq_decide]

theorem ofInt_min (x y : Word) : (if x.slt y then x else y) = BitVec.ofInt 64 (min x.toInt y.toInt) := by
  simp only [BitVec.slt_eq_decide, decide_eq_true_eq]
  split
  · rw [min_eq_left (by omega), BitVec.ofInt_toInt]
  · rw [min_eq_right (by omega), BitVec.ofInt_toInt]

theorem ofInt_max (x y : Word) : (if x.slt y then y else x) = BitVec.ofInt 64 (max x.toInt y.toInt) := by
  simp only [BitVec.slt_eq_decide, decide_eq_true_eq]
  split
  · rw [max_eq_right (by omega), BitVec.ofInt_toInt]
  · rw [max_eq_left (by omega), BitVec.ofInt_toInt]

theorem ofNat_min (x y : Word) : (if x.ult y then x else y) = BitVec.ofNat 64 (min x.toNat y.toNat) := by
  simp only [BitVec.ult_eq_decide, decide_eq_true_eq]
  split
  · rw [min_eq_left (by omega), BitVec.ofNat_toNat, BitVec.setWidth_eq]
  · rw [min_eq_right (by omega), BitVec.ofNat_toNat, BitVec.setWidth_eq]

theorem ofNat_max (x y : Word) : (if x.ult y then y else x) = BitVec.ofNat 64 (max x.toNat y.toNat) := by
  simp only [BitVec.ult_eq_decide, decide_eq_true_eq]
  split
  · rw [max_eq_right (by omega), BitVec.ofNat_toNat, BitVec.setWidth_eq]
  · rw [max_eq_left (by omega), BitVec.ofNat_toNat, BitVec.setWidth_eq]

/-! ## Remainders and counts of bits (R166, R167) -/

theorem remS_eq (x y : Word) :
    remS x y = if y = 0 then x else BitVec.ofInt 64 (x.toInt - y.toInt * x.toInt.tdiv y.toInt) := by
  rw [remS, Int.tmod_def]

theorem remU_eq (x y : Word) :
    remU x y = if y = 0 then x else BitVec.ofNat 64 (x.toNat - y.toNat * (x.toNat / y.toNat)) := by
  rw [remU, Nat.mod_eq_sub]

theorem clzWord_eq (x : Word) : clzWord x = BitVec.ofNat 64 (64 - Nat.size x.toNat) := by
  by_cases hx : x = 0
  · rw [hx]; rfl
  · have hn : x.toNat ≠ 0 := fun h => hx (BitVec.eq_of_toNat_eq h)
    have hs : Nat.size x.toNat = x.toNat.log2 + 1 :=
      le_antisymm (Nat.size_le.2 Nat.lt_log2_self) (Nat.lt_size.2 (Nat.log2_self_le hn))
    rw [clzWord, if_neg hx, hs, Nat.sub_add_eq, Nat.sub_right_comm]

theorem length_filter_eq_sum {α : Type} (p : α → Bool) (l : List α) :
    (l.filter p).length = (l.map fun j => (p j).toNat).sum := by
  induction l with
  | nil => rfl
  | cons j l ih => cases hj : p j <;> simp [hj, ih, Nat.add_comm]

theorem popWord_eq (x : Word) :
    popWord x = BitVec.ofNat 64 ((List.range 64).map fun j => (x.getLsbD j).toNat).sum := by
  rw [popWord, length_filter_eq_sum]

/-! ## Immediates (R168, R169) -/

/-- A shift word with a bit of imm11[10:6] set has the offence of its zero field. -/
theorem decode_shiftImm_of_nonzero {w : Nat} (k : StrandId) (hw : w < 2 ^ 31) (hlo : 8 ≤ w / 2 ^ 21 % 64)
    (hhi : w / 2 ^ 21 % 64 ≤ 10) (hz : w / 2 ^ 6 % 32 ≠ 0) :
    ∃ word, decode (.strand k) w = .word word [⟨6, false, none, 2⟩] := by
  have hzeros : zeros w [(6, 32)] = [⟨6, false, none, 2⟩] := if_neg hz
  have hop : w / 0x200000 % 64 = 8 ∨ w / 0x200000 % 64 = 9 ∨ w / 0x200000 % 64 = 10 := by omega
  rw [decode_of_lt hw, decodeShared, hzeros]
  obtain hop | hop | hop := hop <;> rw [hop] <;> exact ⟨_, rfl⟩

/-- Halfword k is the immediate's, and every other bit is kept. -/
theorem getLsbD_insertHalf (k : Nat) (a : Word) {i j : Nat} (hi : i < 65536) (hj : j < 64) :
    (insertHalf k a i).getLsbD j =
      if 16 * k ≤ j ∧ j < 16 * k + 16 then i.testBit (j - 16 * k) else a.getLsbD j := by
  have hmask : (65535 : Nat) = 2 ^ 16 - 1 := rfl
  simp only [insertHalf, BitVec.getLsbD_or, BitVec.getLsbD_and, BitVec.getLsbD_not, BitVec.getLsbD_ofNat, hj,
    decide_true, Bool.true_and, Nat.testBit_mul_two_pow, hmask, Nat.testBit_two_pow_sub_one]
  by_cases hk : 16 * k ≤ j
  · by_cases hl : j < 16 * k + 16
    · have hm : j - 16 * k < 16 := by omega
      simp [hk, hl, hm]
    · have hm : ¬ j - 16 * k < 16 := by omega
      have hz : i.testBit (j - 16 * k) = false :=
        Nat.testBit_lt_two_pow (Nat.lt_of_lt_of_le hi (Nat.pow_le_pow_right (n := 2) (by decide) (Nat.not_lt.1 hm)))
      simp [hl, hm, hz]
  · simp [hk]

/-- Settles O10: each word is one of the forms of `alu`, with the value of its function. -/
theorem aluWords : Obligations.AluWords := by
  intro s h d a b
  refine ⟨fun hr => ?latency1, fun hr => ?latency3, fun hr => ?interlocked, fun hr => ?unary⟩
  case latency1 =>
    exact ⟨alu_ready rfl hr (add_eq_ofInt ..), alu_ready rfl hr (sub_eq_ofInt ..), alu_ready rfl hr rfl,
      alu_ready rfl hr rfl, alu_ready rfl hr rfl, alu_ready rfl hr (shiftLeft_eq_ofNat ..),
      alu_ready rfl hr (ushiftRight_eq_ofNat ..), alu_ready rfl hr (sshiftRight_eq_ofInt ..),
      alu_ready rfl hr (boolWord_slt ..), alu_ready rfl hr (boolWord_ult ..), alu_ready rfl hr (ofInt_min ..),
      alu_ready rfl hr (ofInt_max ..), alu_ready rfl hr (ofNat_min ..), alu_ready rfl hr (ofNat_max ..)⟩
  case latency3 => exact ⟨alu_ready rfl hr (mul_eq_ofInt ..), alu_ready rfl hr rfl, alu_ready rfl hr rfl⟩
  case interlocked =>
    exact ⟨aluLong_ready rfl hr rfl, aluLong_ready rfl hr rfl, aluLong_ready rfl hr (remS_eq ..),
      aluLong_ready rfl hr (remU_eq ..)⟩
  case unary => exact ⟨alu1_ready rfl hr (clzWord_eq ..), alu1_ready rfl hr (popWord_eq ..)⟩

/-- Settles O11: each word is a word of one source, and a zero field that is not zero is an offence of stage 1. -/
theorem immediateWords : Obligations.ImmediateWords := by
  intro s h d a i n
  refine ⟨fun hr => ?values, fun k w => decode_shiftImm_of_nonzero k, fun hn hd hw hf ha word hm => ?offence⟩
  case values =>
    exact ⟨alu1_ready rfl hr rfl, alu1_ready rfl hr rfl, alu1_ready rfl hr rfl, alu1_ready rfl hr rfl,
      alu1_ready rfl hr (boolWord_slt ..), alu1_ready rfl hr (boolWord_ult ..),
      alu1_ready rfl hr (shiftLeft_eq_ofNat ..), alu1_ready rfl hr (ushiftRight_eq_ofNat ..),
      alu1_ready rfl hr (sshiftRight_eq_ofInt ..)⟩
  case offence =>
    simp only [List.mem_cons, List.not_mem_nil, or_false] at hm
    obtain rfl | rfl | rfl := hm <;> exact alu1_format rfl hn hd hw hf ha

/-- Settles O12: the three words put the immediate in their own halfword, and a queue that xd names is popped and pushed. -/
theorem moveWords : Obligations.MoveWords := by
  intro s h d w
  refine ⟨fun hr => congrArg _ (scalar_ready hr), fun hr => ?_, fun u hu => ?_⟩
  · have kept := fun k j hj => getLsbD_insertHalf k (s.rx d) (j := j) w.isLt hj
    exact ⟨⟨_, kept 1, movk_ready rfl hr⟩, ⟨_, kept 2, movk_ready rfl hr⟩, ⟨_, kept 3, movk_ready rfl hr⟩⟩
  · simp [popsOf, pushesOf, hu, List.eraseDups_cons]

end Sys2Proof.Machine
end

section
/-! SUPPORT. Transfers and loops: what a word leaves that branches, jumps or opens a loop, and the statements about them. -/

namespace Sys2Proof.Machine

/-! ## Branches and jumps (R149, R170) -/

theorem targetOffence_of_le {t : Nat} (h : t ≤ 24575) : targetOffence t = [] := if_neg (by omega)

section Transfer
variable {i : Instr} {s : State} {h : Hdr} {a w o t : Nat}

theorem branch_ready {taken : Word → Bool} {c : Prop} [Decidable c] (he : exec i s = .next (s.branch h a o taken))
    (hr : s.ready [rdx a 16] none = true) (ht : (s.me.pc : Int) + (BitVec.ofNat 13 o).toInt = t) (hle : t ≤ 24575)
    (hc : taken (s.rx a) = true ↔ c) :
    exec i s = .next (s.after h [rdx a 16] (if c then some t else none) id) := by
  have htarget : targetOf (s.here.strand s.cur.strand).pc 13 o = t := ht
  rw [exec_ready he ⟨by simp only [htarget, targetOffence_of_le hle], rfl, rfl, rfl, rfl⟩ hr]
  simp only [htarget, Int.toNat_natCast, hc]
  rfl

theorem jump_ready {link : Bool} (he : exec i s = .next (s.jump h w o link))
    (hr : s.ready (if link then [wrx 31 0] else []) (if link then some 1 else none) = true)
    (ht : (s.me.pc : Int) + (BitVec.ofNat w o).toInt = t) (hle : t ≤ 24575) :
    exec i s = .next (s.after h (if link then [wrx 31 0] else []) (some t) fun u =>
      if link then u.writeX s.tok 1 31 (BitVec.ofNat 64 (s.me.pc + 1)) else u) := by
  have htarget : targetOf s.me.pc w o = t := ht
  rw [exec_ready he ⟨by simp only [htarget, targetOffence_of_le hle], rfl, rfl, rfl, rfl⟩ hr]
  simp only [htarget, Int.toNat_natCast]
  rfl

end Transfer

/-- Settles O15: a target in range is no offence, and each condition is that of the word. -/
theorem transferWords : Obligations.TransferWords := by
  intro s h d a o w
  refine ⟨fun hr t ht hle => ?branches, fun hr => ⟨fun t ht hle => ?br, fun t ht hle => ?j⟩, fun hr t ht hle => ?jal,
    fun hr hx => ?jr, fun hr hx => ?jalr⟩
  case branches =>
    refine ⟨branch_ready rfl hr ht hle ?_, branch_ready rfl hr ht hle ?_, branch_ready rfl hr ht hle ?_,
      branch_ready rfl hr ht hle ?_, branch_ready rfl hr ht hle ?_, branch_ready rfl hr ht hle ?_⟩ <;>
      simp [BitVec.slt_eq_decide]
  case br => exact jump_ready (link := false) rfl hr ht hle
  case j => exact jump_ready (link := false) rfl hr ht hle
  case jal => exact jump_ready (link := true) rfl hr ht hle
  case jr =>
    have he : exec (.jr h a) s = .next (s.issue h _) := rfl
    exact exec_ready he ⟨rfl, rfl, val_of_not (Nat.not_lt.2 hx), rfl, rfl⟩ hr
  case jalr =>
    have he : exec (.jalr h d a) s = .next (s.issue h _) := rfl
    exact exec_ready he ⟨rfl, rfl, val_of_not (Nat.not_lt.2 hx), rfl, rfl⟩ hr

/-! ## Loops (R171) -/

/-- Where the innermost loop ends, or the last word of instruction memory. -/
def outerStop : List LoopLevel → Nat
  | [] => 24575
  | l :: _ => l.stop

theorem le_outerStop {ls : List LoopLevel} {n : Nat} (hn : n ≤ 24575) (h : ∀ l ∈ ls.head?, n ≤ l.stop) :
    n ≤ outerStop ls := by
  cases ls with
  | nil => exact hn
  | cons l r => exact h l rfl

theorem outerStop_of_head? {ls : List LoopLevel} {l : LoopLevel} (h : l ∈ ls.head?) : outerStop ls = l.stop := by
  cases ls with
  | nil => cases h
  | cons x r => cases h; rfl

/-- What `loop` needs and does. -/
def State.loopPlan (s : State) (h : Hdr) (a : Fin 32) (i : Fin 1024) : Plan :=
  let p := s.me.pc
  let n := (s.rx a).toNat
  let stop := p + i.val
  { accs := [rdx a 11]
    bits := wordFaults (.loop h a i) ++ (if 24575 < stop then [⟨0, false, none, 3⟩] else [])
    checks := forbid ((n ≠ 0 ∧ 4 ≤ s.me.loops.length) ∨ outerStop s.me.loops < stop) 0
    target := if n = 0 then some (stop + 1) else none
    go := fun t => if n = 0 then t else t.setMe { t.me with loops := ⟨p + 1, stop, n⟩ :: t.me.loops } }

theorem exec_loop (s : State) (h : Hdr) (a : Fin 32) (i : Fin 1024) :
    exec (.loop h a i) s = .next (s.issue h (s.loopPlan h a i)) := rfl

section Loop
variable {s : State} {h : Hdr} {a : Fin 32} {n : Fin 1024}

theorem loopPlan_bits (hn : n.val ≠ 0) :
    (s.loopPlan h a n).bits = if 24575 < s.me.pc + n.val then [⟨0, false, none, 3⟩] else [] := by
  have hfields : wordFaults (.loop h a n) = [] := rng_of_not hn
  simp only [State.loopPlan, hfields, List.nil_append]

/-- A loop that the stack can take, or that has no turn, issues. -/
theorem loop_issues (hn : n.val ≠ 0) (hr : s.ready [rdx a 11] none = true) (hp : s.me.pc + n.val ≤ 24575)
    (ho : ∀ l ∈ s.me.loops.head?, s.me.pc + n.val ≤ l.stop) (hl : (s.rx a).toNat ≠ 0 → s.me.loops.length < 4) :
    exec (.loop h a n) s = .next (s.after h [rdx a 11] (s.loopPlan h a n).target (s.loopPlan h a n).go) := by
  have hstop := le_outerStop hp ho
  have hchecks : (s.loopPlan h a n).checks = [] := forbid_of_not (by omega)
  exact exec_ready (exec_loop ..) ⟨(loopPlan_bits hn).trans (if_neg (by omega)), rfl, hchecks, rfl, rfl⟩ hr

/-- A fifth level, and an end beyond the enclosing level's, is an illegal operand use. -/
theorem loop_refused (hn : n.val ≠ 0) (hr : s.ready [rdx a 11] none = true) (hp : s.me.pc + n.val ≤ 24575)
    (hc : ((s.rx a).toNat ≠ 0 ∧ 4 ≤ s.me.loops.length) ∨ outerStop s.me.loops < s.me.pc + n.val) :
    exec (.loop h a n) s = .next { s.trapHere ILLOP 0 (offenceInfo ⟨0, false, none, 7⟩) none false with
      status := .trapped false (popsOf [rdx a 11]) [] } :=
  congrArg _ (issue_stage3 (p := s.loopPlan h a n) ((loopPlan_bits hn).trans (if_neg (by omega))) rfl hr (if_pos hc))

/-- An end beyond instruction memory is an illegal operand use, found before the word is ready. -/
theorem loop_pastMemory (hn : n.val ≠ 0) (hy : s.here.notYet s.cur.strand = false)
    (hd : s.doomed s.cur.core s.cur.strand = false) (hw : s.waitTrap s.cur.core s.cur.strand = none)
    (hf : s.cur.format = []) (ha : aliasOf a ≠ some s.cur.strand) (hp : 24575 < s.me.pc + n.val) :
    exec (.loop h a n) s = .next { s.trapHere ILLOP 0 (offenceInfo ⟨0, false, none, 3⟩) none true with
      status := .trapped true [] [] } := by
  have hbits : (s.loopPlan h a n).bits = [⟨0, false, none, 3⟩] := (loopPlan_bits hn).trans (if_pos hp)
  have halias : aliasOffences s.cur.strand (s.loopPlan h a n).accs = [] := by
    simp [aliasOffences, State.loopPlan, rdx, ha]
  rw [exec_loop, issue_stage1 hy hd hw (by rw [hf, hbits, halias]; rfl)]
  rfl

end Loop

/-- The end word of the innermost level starts the next turn of the loop, or ends it. -/
theorem afterWord_stop {p : Nat} {l : LoopLevel} {r : List LoopLevel} (h : l.stop = p) :
    (1 < l.count → afterWord p (l :: r) = (l.start, { l with count := l.count - 1 } :: r)) ∧
      (l.count = 1 → afterWord p (l :: r) = afterWord p r) :=
  ⟨fun hc => by simp [afterWord, h, Nat.not_le.2 hc], fun hc => by simp [afterWord, h, hc]⟩

theorem afterWord_of_inside {p : Nat} {ls : List LoopLevel} (h : ∀ l ∈ ls.head?, l.stop ≠ p) :
    afterWord p ls = (p + 1, ls) := by
  cases ls with
  | nil => rfl
  | cons l r => exact if_neg (h l rfl)

/-- Settles O16: what the word does and refuses by its plan, and the turn at its end by `afterWord`. -/
theorem loopWord : Obligations.LoopWord := by
  intro s h a n p count trap hn
  refine ⟨fun hr hp => ⟨fun ho => ⟨fun hc hl => ?push, fun hc => ?skip⟩, fun hc hl => ?full, fun l hl hlt => ?beyond⟩,
    fun hy hd hw hf ha hp => ?past, fun l r ops hls hstop => ?stop⟩
  case push =>
    have hturns : (s.rx a).toNat ≠ 0 := hc
    rw [loop_issues hn hr hp ho fun _ => hl]
    simp only [State.loopPlan, if_neg hturns]
    rfl
  case skip =>
    have hturns : (s.rx a).toNat = 0 := hc
    rw [loop_issues hn hr hp ho fun h0 => absurd hturns h0]
    simp only [State.loopPlan, if_pos hturns]
    rfl
  case full => exact loop_refused hn hr hp (.inl ⟨hc, hl⟩)
  case beyond => exact loop_refused hn hr hp (.inr (by rwa [outerStop_of_head? hl]))
  case past => exact loop_pastMemory hn hy hd hw hf ha hp
  case stop =>
    have hme : s.here.strand s.cur.strand = s.me := rfl
    have hrest := fun hc : l.count = 1 => (afterWord_stop (r := r) hstop).2 hc
    simp only [moved_strand, hme, hls]
    refine ⟨fun hc => ?_, fun hc => ⟨?_, fun hin => ?_⟩⟩
    · rw [(afterWord_stop hstop).1 hc]; exact ⟨rfl, rfl⟩
    · rw [hrest hc]
    · rw [hrest hc, afterWord_of_inside hin]; exact ⟨rfl, rfl⟩

end Sys2Proof.Machine
end

section
/-! SUPPORT. Strands that stop and start: what `halt` and `start` leave of a core, and the statement about them. -/

namespace Sys2Proof.Machine

/-! ## What an abandoned multiply leaves (R112, R223) -/

theorem release_shape (l : List Nat) (c : Core) : ∃ t, c.release l = { c with tiles := t } := by
  induction l generalizing c with
  | nil => exact ⟨c.tiles, rfl⟩
  | cons x r ih =>
    obtain ⟨t, e⟩ := ih (c.setTile x { c.tile x with state := 0, pres := 0 })
    exact ⟨t, e⟩

theorem setPlane_shape (c : Core) (p : Nat) (w : Plane) : ∃ a b, c.setPlane p w = { c with w0 := a, w1 := b } := by
  unfold Core.setPlane
  split
  · exact ⟨w, c.w1, rfl⟩
  · exact ⟨c.w0, w, rfl⟩

theorem leaveAfter_shape (c : Core) (o : ArrOp) : ∃ a b, c.leaveAfter o = { c with w0 := a, w1 := b } := by
  unfold Core.leaveAfter Core.leavePlane
  split
  · exact setPlane_shape ..
  · dsimp only
    split
    · exact ⟨c.w0, c.w1, rfl⟩
    · exact setPlane_shape ..
  · exact ⟨c.w0, c.w1, rfl⟩

/-- An abandoned entry gives its tiles and its plane back, and nothing else changes. -/
theorem dropStopped_shape (c : Core) : ∃ t a b r m,
    c.dropStopped = { c with tiles := t, w0 := a, w1 := b, arr := r, mprog := m } := by
  unfold Core.dropStopped
  split
  · exact ⟨c.tiles, c.w0, c.w1, c.arr, c.mprog, rfl⟩
  · rename_i e _
    extract_lets released c1 left
    obtain ⟨t, et⟩ := release_shape e.op.tiles c
    obtain ⟨a, b, ep⟩ := leaveAfter_shape c1 e.op
    exact ⟨t, a, b, _, _, by simp only [left, ep, c1, released, et]; rfl⟩

/-! ## Stopping (R178, R223, R386) -/

/-- A strand that halts, in its core with what a stopped multiply may give back. -/
theorem haltStrand_shape (c : Core) (k : StrandId) : ∃ t a b r m x,
    c.haltStrand k = ({ c with tiles := t, w0 := a, w1 := b, arr := r, mprog := m } : Core).setStrand k
      { (c.strand k).stopped with trap := x } := by
  unfold Core.haltStrand
  dsimp only
  split
  · obtain ⟨t, a, b, r, m, e⟩ := dropStopped_shape c
    exact ⟨t, a, b, r, m, _, by rw [e]⟩
  · exact ⟨c.tiles, c.w0, c.w1, c.arr, c.mprog, _, rfl⟩

theorem haltStrand_strand (c : Core) (k : StrandId) :
    ∃ x, (c.haltStrand k).strand k = { (c.strand k).stopped with trap := x } := by
  obtain ⟨t, a, b, r, m, x, e⟩ := haltStrand_shape c k
  exact ⟨x, by rw [e, strand_setStrand]⟩

theorem haltStrand_strand_of_ne (c : Core) {k j : StrandId} (hj : j ≠ k) : (c.haltStrand k).strand j = c.strand j := by
  obtain ⟨t, a, b, r, m, x, e⟩ := haltStrand_shape c k
  rw [e, strand_setStrand_of_ne _ _ hj]
  cases j <;> rfl

theorem haltStrand_keeps (c : Core) (k : StrandId) :
    (c.haltStrand k).fixed = c.fixed ∧ (c.haltStrand k).welt = c.welt ∧ (c.haltStrand k).mops = c.mops := by
  obtain ⟨t, a, b, r, m, x, e⟩ := haltStrand_shape c k
  simp only [e, setStrand_fixed, setStrand_welt, setStrand_mops, and_self]

/-! ## Starting (R30, R180) -/

/-- What a strand is after a `start` that names it. -/
def Strand.startedAt (t : Strand) (cycle entry : Nat) : Strand :=
  if t.running then t
  else { t with running := true, pc := entry, readyAt := cycle + 1, loops := [], aside := [], join := none, block := .none,
                asideBlock := .none }

theorem startedAt_of_running {t : Strand} (cycle entry : Nat) (h : t.running = true) : t.startedAt cycle entry = t :=
  if_pos h

@[simp] theorem startedAt_running (t : Strand) (cycle entry : Nat) : (t.startedAt cycle entry).running = true := by
  unfold Strand.startedAt; split
  · assumption
  · rfl

theorem startStrand_eq (c : Core) (k : StrandId) (entry : Nat) :
    c.startStrand k entry = c.setStrand k ((c.strand k).startedAt c.cycle entry) := by
  unfold Core.startStrand Strand.startedAt
  dsimp only
  split
  · cases k <;> rfl
  · rfl

/-- A list of strands starts: each strand of it as if it were the only one. -/
theorem startAll_strand (ks : List StrandId) (c : Core) (entry : Nat) (j : StrandId) :
    (ks.foldl (fun c k => c.startStrand k entry) c).strand j =
      if j ∈ ks then (c.strand j).startedAt c.cycle entry else c.strand j := by
  induction ks generalizing c with
  | nil => simp
  | cons k r ih =>
    rw [List.foldl_cons, ih, startStrand_eq, setStrand_cycle]
    by_cases hj : j = k
    · subst hj
      simp [startedAt_of_running]
    · simp [strand_setStrand_of_ne _ _ hj, hj]

/-- The strands that a `start` names. -/
theorem mem_startSet (set : Nat) {j : StrandId} (hj : j ≠ .q) :
    j ∈ ([(0, StrandId.v), (1, .m), (2, .l)].filterMap fun p => if bitOf set p.1 then some p.2 else none) ↔
      set.testBit (j.index - 1) = true := by
  cases j with
  | q => exact absurd rfl hj
  | v | m | l => simp [bitOf_eq_testBit, StrandId.index]

/-! ## The words -/

theorem halt_ready {s : State} {h : Hdr} (hr : s.ready [] none = true) :
    exec (.halt h) s = .next (s.after h [] none fun t => t.setHere (t.here.haltStrand t.cur.strand)) := by
  have he : exec (.halt h) s = .next (s.issue h _) := rfl
  exact exec_ready he ⟨rfl, rfl, rfl, rfl, rfl⟩ hr

theorem start_ready {s : State} {h : Hdr} {set : Fin 8} {e : Fin 32768} (hq : s.cur.strand = .q)
    (hset : set.val ≠ 0) (hent : e.val < 24576) (hr : s.ready [] none = true) :
    exec (.start h set e) s = .next (s.after h [] none fun t =>
      t.setHere (([(0, StrandId.v), (1, .m), (2, .l)].filterMap fun p =>
        if bitOf set.val p.1 then some p.2 else none).foldl (fun c k => c.startStrand k e.val) t.here)) := by
  have he : execStart h set e s = s.issueOn .q h _ := rfl
  have hbits : wordFaults (.start h set e) = [] :=
    congrArg₂ (· ++ ·) (rng_of_not hset) (rng_of_not (Nat.not_le.2 hent))
  exact execQ_ready he hq ⟨hbits, rfl, rfl, rfl, rfl⟩ hr

/-- Settles O20: the core after each word is the one before it, moved on, with its strands stopped or started. -/
theorem strandWords : Obligations.StrandWords := by
  intro s h set e k hr
  refine ⟨⟨_, halt_ready hr, ?halt⟩, fun hq hset hent => ⟨_, start_ready hq hset hent hr, fun j hj => ?start⟩⟩
  case halt =>
    obtain ⟨x, hk⟩ := haltStrand_strand (s.moved h [] none).here k
    obtain ⟨hf, hw, hm⟩ := haltStrand_keeps (s.moved h [] none).here k
    rw [after_here, moved_cur, hk, hf, hw, hm]
    refine ⟨rfl, rfl, rfl, moved_here_fixed .., moved_here_welt .., moved_here_mops .., fun j hj => ?_, rfl⟩
    rw [haltStrand_strand_of_ne _ hj, moved_strand_of_ne _ _ _ _ hj]
  case start =>
    have hne : j ≠ s.cur.strand := fun heq => hj (heq.trans hq)
    simp only [after_here, startAll_strand, mem_startSet _ hj, moved_here_cycle, moved_strand_of_ne _ _ _ _ hne]
    by_cases hrun : (s.here.strand j).running = true
    · rw [startedAt_of_running _ _ hrun, ite_self, if_neg (by simp [hrun])]
    · by_cases hb : set.val.testBit (j.index - 1) = true
      · rw [if_pos hb, if_pos ⟨hb, by simpa using hrun⟩, Strand.startedAt, if_neg hrun]
        exact ⟨rfl, rfl, rfl, rfl⟩
      · rw [if_neg hb, if_neg fun hnamed => hb hnamed.1]

end Sys2Proof.Machine
end

section
/-! SUPPORT. Submissions: nest records, task entries and tasks taken, and the statements about them. -/

namespace Sys2Proof.Machine

/-! ## Submitting a block (R182, R186) -/

/-- A word that submits a block with no fault and no offence gets the status of the submission. -/
theorem submit_ready {o : Host.Outcome State Fault Refusal} {s : State} {h : Hdr} {i : Instr} {d a b align len : Nat}
    {offs : List Byte → Nat → List Offence} {act : State → Nat → Word → Nat → List Byte → Nat × State}
    (he : o = s.issueOn .q h fun s => s.submit i d a b align len offs act) (hq : s.cur.strand = .q)
    (hi : wordFaults i = []) (hr : s.ready [wrx d 16, rdx a 11, rdx b 6] none = true) (hw : s.storesWait = [])
    (hdie : (s.rx b).toNat ≤ 7) (halign : (s.rx a).toNat % align = 0)
    (hf : (s.blockHere (s.rx a) len PR).fault = none) (ho : offs (s.blockHere (s.rx a) len PR).bytes 11 = []) :
    o = .next (s.after h [wrx d 16, rdx a 11, rdx b 6] none fun t =>
      let r := s.blockHere (s.rx a) len PR
      let q := act (r.found t) (s.rx b).toNat (s.rx a) (dieOf (r.found t).cur.core) r.bytes
      q.2.promiseX s.tok d (BitVec.ofNat 64 q.1)) := by
  have hchecks : (s.submit i d a b align len offs act).checks = [] := by
    simp only [State.submit, val_of_not (Nat.not_lt.2 hdie), val_of_not (not_not.2 halign), ho, ite_self, List.append_nil]
  exact execQ_ready he hq ⟨hi, hw, hchecks, rfl, hf⟩ hr

/-! ## Taking a task (R46, R187, R323) -/

theorem taskpop_fields {h : Hdr} {d a : Fin 32} (h0 : d.val ≠ 0) (h2 : d.val % 2 = 0) (hq : d.val < 24 ∨ 27 < d.val) :
    wordFaults (.taskpop h d a) = [] :=
  congrArg₂ (· ++ ·) (rng_of_not (by omega)) (rng_of_not (by omega))

/-- A pop that finds a task, or need not wait for one, issues. -/
theorem taskpop_ready {s : State} {h : Hdr} {d a : Fin 32} (hq : s.cur.strand = .q)
    (hr : s.ready [wrx d 16, wrx (d.val + 1) 16, rdx a 11] none = true) (hfields : wordFaults (.taskpop h d a) = [])
    (hrun : s.here.othersRun = false) (hv : (s.rx a).toNat ≤ 1)
    (hheap : s.isReady (.heap (Fin.ofNat 8 (dieOf s.cur.core))) = true)
    {e : Option HeapEntry} (hc : (s.kdie (dieOf s.cur.core)).choose s.free = e) (he : s.rx a ≠ 0 ∨ e ≠ none) :
    exec (.taskpop h d a) s = .next (s.after h [wrx d 16, wrx (d.val + 1) 16, rdx a 11] none fun t =>
      let w := e.elim (0, 0) HeapEntry.words
      let u := (e.elim t t.takeTask).sweepHeap (dieOf s.cur.core)
      u.setHere (u.here.promise .q s.tok [.x d w.1, .x (d.val + 1) w.2] true)) := by
  have hi : execTaskpop h d a s = nextMap State.popFinds (s.issueOn .q h _) := rfl
  have hwaits : (s.rx a = 0 && e.isNone && s.isReady (.heap (Fin.ofNat 8 (dieOf s.cur.core)))) = false := by
    obtain hne | hne := he
    · rw [decide_eq_false hne]; rfl
    · simp [hne]
  have hle : ¬ 1 < s.rx a := by simpa [BitVec.lt_def] using hv
  refine (hi.trans (congrArg _ (issueOn_ready s .q h _ hq ⟨hfields, ?_, val_of_not hle, if_pos hheap, rfl⟩ hr))).trans ?_
  · simp only [hc, hrun, hwaits]
    rfl
  · simp only [hc]
    cases e <;> rfl

/-- Settles O21: each word issues by its plan, whose checks find nothing. -/
theorem workWords : Obligations.WorkWords := by
  intro s h d a b hq ops va die own heap
  refine ⟨fun hr hw hdie => ⟨fun halign hf ho => ?nest, fun halign hf ho => ?taskpush⟩,
    fun hr h0 h2 hd hrun hv hheap => ?taskpop, fun hr => ?yield⟩
  case nest =>
    have he : execNest h d a b s = s.issueOn .q h _ := rfl
    exact submit_ready he hq rfl hr hw hdie halign hf ho
  case taskpush =>
    have he : execTaskpush h d a b s = s.issueOn .q h _ := rfl
    exact submit_ready he hq rfl hr hw hdie halign hf ho
  case taskpop =>
    have hfields : wordFaults (.taskpop h d a) = [] := taskpop_fields h0 h2 hd
    refine ⟨fun e hc => ?taken, fun hc hone => ?none⟩
    case taken =>
      rw [taskpop_ready hq hr hfields hrun hv hheap hc (.inr (Option.some_ne_none e))]
      simp only [Option.elim, HeapEntry.words, field, Nat.pow_zero, Nat.div_one]
      rfl
    case none =>
      have hne : s.rx a ≠ 0 := fun hz => absurd (hz.symm.trans hone) (by decide)
      exact taskpop_ready hq hr hfields hrun hv hheap hc (.inl hne)
  case yield =>
    have he : execYield h s = s.issueOn .q h _ := rfl
    refine (execQ_ready he hq ⟨rfl, rfl, rfl, rfl, rfl⟩ hr).trans ?_
    simp only [State.after, id, moved_here_preq]

/-! ## What a submission comes to (R184, R186, R324, R325) -/

section Submit
variable {s : State} {d : Fin 8} {va : Word} {agent : Nat} {b : List Byte}

theorem submitNest_of_notReady (hr : s.isReady (.nest d) = false) : s.submitNest d va agent b = (2, s) := by
  simp only [State.submitNest, Fin.ofNat_val_eq_self, hr, Bool.not_false, if_true]

theorem submitNest_of_full (hr : s.isReady (.nest d) = true) (hf : 64 ≤ (s.kdie d).recs.length) :
    s.submitNest d va agent b = (1, s) := by
  simp only [State.submitNest, Fin.ofNat_val_eq_self, hr, hf, Bool.not_true, Bool.false_eq_true, if_false, if_true]

/-- A record that a ready walker has room for ends at once where it is cancelled or empty, and else joins the list. -/
theorem submitNest_of_room (hr : s.isReady (.nest d) = true) (hf : (s.kdie d).recs.length < 64) :
    s.submitNest d va agent b =
      let k := s.kdie d
      let r := nestRec b k.nextRec va agent
      if coveredBy k.prefixes r.lin then (0, s.postAdd (.nest d) r.endH (2 ^ 48))
      else if r.total = 0 then (0, s.postAdd (.nest d) r.endH 1)
      else (0, s.setKdie d { k with recs := k.recs ++ [r], nextRec := k.nextRec + 1 }) := by
  simp only [State.submitNest, Fin.ofNat_val_eq_self, hr, Nat.not_le.2 hf, Bool.not_true, Bool.false_eq_true, if_false]

theorem submitTask_of_notReady (hr : s.isReady (.heap d) = false) : s.submitTask d va agent b = (2, s) := by
  simp only [State.submitTask, Fin.ofNat_val_eq_self, hr, Bool.not_false, if_true]

theorem submitTask_of_covered (hr : s.isReady (.heap d) = true)
    (hc : coveredBy (s.kdie d).prefixes (taskEntry b (s.kdie d).pops).lin = true) :
    s.submitTask d va agent b = (0, s) := by
  simp only [State.submitTask, Fin.ofNat_val_eq_self, hr, hc, Bool.not_true, Bool.false_eq_true, if_false, if_true]

/-- An entry that is not cancelled joins a ready heap, or is refused by a full one, with a record for the first of them. -/
theorem submitTask_of_uncovered (hr : s.isReady (.heap d) = true)
    (hc : coveredBy (s.kdie d).prefixes (taskEntry b (s.kdie d).pops).lin = false) :
    s.submitTask d va agent b =
      let k := s.kdie d
      let e := taskEntry b k.pops
      if 16384 ≤ k.heap.length then
        (1, if k.heapLogged then s
          else (s.setKdie d { k with heapLogged := true }).record d d 3 0 HEAPF 1 false false 0 (BitVec.ofNat 64 e.ctx))
      else (0, s.setKdie d { k with heap := k.heap ++ [e] }) := by
  simp only [State.submitTask, Fin.ofNat_val_eq_self, hr, hc, Bool.not_true, Bool.false_eq_true, if_false]

theorem submitTask_of_full (hr : s.isReady (.heap d) = true)
    (hc : coveredBy (s.kdie d).prefixes (taskEntry b (s.kdie d).pops).lin = false)
    (hf : 16384 ≤ (s.kdie d).heap.length) :
    (s.submitTask d va agent b).1 = 1 ∧ ((s.submitTask d va agent b).2.kdie d).heap = (s.kdie d).heap := by
  rw [submitTask_of_uncovered hr hc]
  simp only [hf, if_true, true_and]
  split
  · rfl
  · rw [record_kdie, kdie_setKdie]

end Submit

/-- Settles O22: each clause is one outcome of the walker's or the heap's checks, in their order. -/
theorem submissionStatus : Obligations.SubmissionStatus := by
  intro s d va agent b k r e
  refine ⟨submitNest_of_notReady, fun hr => ⟨submitNest_of_full hr, fun hf => ?room⟩, submitTask_of_notReady,
    fun hr => ⟨submitTask_of_covered hr, fun hc => ⟨fun hf => ?taken, submitTask_of_full hr hc⟩⟩⟩
  case room =>
    rw [submitNest_of_room hr hf]
    refine ⟨fun hc => if_pos hc, fun hc => ⟨fun h0 => ?_, fun h0 => ?_⟩⟩
    · exact (if_neg (Bool.eq_false_iff.1 hc)).trans (if_pos h0)
    · exact (if_neg (Bool.eq_false_iff.1 hc)).trans (if_neg h0)
  case taken => exact (submitTask_of_uncovered hr hc).trans (if_neg (Nat.not_le.2 hf))

end Sys2Proof.Machine
end

section
/-! SUPPORT. Strand Q's words about the system: cancellation counts, graph parameters, Awl runs, overlays, saves, maintenance
and the firmware call, and the statements about them. -/

namespace Sys2Proof.Machine

/-! ## Cancellation counts, graph parameters, Awl runs and overlay loads (R181, R188, R192, R193) -/

theorem field_eq_zero_of_lt {w : Word} {lo : Nat} (n : Nat) (h : w.toNat < 2 ^ lo) : field w lo n = 0 := by
  rw [field, Nat.div_eq_of_lt h, Nat.zero_mod]

theorem graphDown_of_ready {s : State} (hg : s.isReady graphUnit = true) : s.graphDown = none := if_pos hg

theorem le_255 {v : Word} (h : v.toNat ≤ 255) : ¬ 255 < v := by simpa [BitVec.lt_def] using h

/-- Settles O23: each word issues by its plan, and an overlay load takes along what its read found. -/
theorem systemWords : Obligations.SystemWords := by
  intro s h d a b hq x y c die
  refine ⟨fun hr => ?canst, fun hg hx => ⟨fun hr => ?gpwr, fun hr => ?gprd⟩, fun hr hlen hk h8 h48 h3 hawl => ?awlrun,
    fun hr hd hh ho hf => ?ovl⟩
  case canst =>
    have he : execCanst h d s = s.issueOn .q h _ := rfl
    exact execQ_ready he hq ⟨rfl, rfl, rfl, rfl, rfl⟩ hr
  case gpwr =>
    have he : execGpwr h a b s = s.issueOn .q h _ := rfl
    exact execQ_ready he hq ⟨rfl, rfl, val_of_not (le_255 hx), graphDown_of_ready hg, rfl⟩ hr
  case gprd =>
    have he : execGprd h d a s = s.issueOn .q h _ := rfl
    exact execQ_ready he hq ⟨rfl, rfl, val_of_not (le_255 hx), graphDown_of_ready hg, rfl⟩ hr
  case awlrun =>
    have he : execAwlrun h d a b s = s.issueOn .q h _ := rfl
    have hchecks : s.optHandle d 16 ++ val (field x 8 8 ≠ 0 ∨ field x 48 16 ≠ 0) 11 2 ++
        val (y.toNat % 8 ≠ 0) 6 5 = [] := by
      rw [hk, val_of_not (by simp [h8, h48]), val_of_not (not_not.2 h3)]; rfl
    refine (execQ_ready he hq ⟨rfl, if_neg (Nat.not_le.2 hlen), hchecks, if_pos hawl, rfl⟩ hr).trans ?_
    simp only [State.after, id, moved_here_asid, moved_here_root]
    rfl
  case ovl =>
    have he : execOvl h d a s = s.issueOn .q h _ := rfl
    have hheader : s.here.header = some hd := hh
    have hoffs : (s.readOvl hd (s.rx a)).offs = [] := ho
    have hfault : (s.readOvl hd (s.rx a)).fault = false := hf
    refine (execQ_ready he hq ⟨rfl, rfl, ?_, rfl, ?_⟩ hr).trans ?_ <;>
      simp only [hheader, hoffs, hfault, Bool.false_eq_true, if_false]
    rfl

/-! ## Saving and restoring (R190, R191) -/

theorem areaFields_ok {s : State} {va : Word} (hrun : s.here.othersRun = false) (hva : va.toNat % 2 ^ 21 = 0) :
    forbid (s.here.othersRun = true) 0 ++ val (field va 0 21 ≠ 0) 11 5 = [] := by
  rw [forbid_of_not (by simp [hrun]), val_of_not (by simpa [field] using hva)]; rfl

/-- Settles O24: the area's own checks find nothing, and a restore decides by its code as it issues. -/
theorem saveWords : Obligations.SaveWords := by
  intro s h d a hq hrun hw va c hva hr
  refine ⟨fun hc => ?save, fun hf => ?restore⟩
  case save =>
    have he : execSsave h d a s = s.issueOn .q h _ := rfl
    have hfault : s.areaFault 1 PRW va = none := by rw [State.areaFault, hc]; rfl
    refine (execQ_ready he hq ⟨rfl, hw, areaFields_ok hrun hva, rfl, hfault⟩ hr).trans ?_
    have hnone : (s.areaFault 1 PRW (s.rx a)).isSome = false := congrArg _ hfault
    simp only [hnone, Bool.false_eq_true, if_false]
    rfl
  case restore =>
    have he : execSrest h d a s = s.issueOn .q h _ := rfl
    exact execQ_ready he hq ⟨rfl, hw, areaFields_ok hrun hva, rfl, hf⟩ hr

/-! ## Maintenance and the firmware call (R194 to R196) -/

/-- A write-back of a range that translates, and is no longer than the longest, issues. -/
theorem clean_ready {o : Host.Outcome State Fault Refusal} {s : State} {h : Hdr} {i : Instr} {a b : Fin 32} {inv : Bool}
    (he : o = s.issueOn .q h fun s => s.cleanPlan i a b inv) (hq : s.cur.strand = .q) (hi : wordFaults i = [])
    (hr : s.ready [rdx a 11, rdx b 6] none = true) (hw : s.cleanWait = []) (hn : (s.rx b).toNat ≤ 2 ^ 30)
    (hc : s.checkRange s.here.asid s.here.root PR (s.rx a).toNat (s.rx b).toNat = none) :
    o = .next (s.after h [rdx a 11, rdx b 6] none fun t =>
      let mark := s.tok * 512 + s.cur.core + 1
      let u := t.settleWalks s.here.asid s.here.root (s.rx a).toNat (s.rx b).toNat
      let lines := if s.rx b = 0 then [] else u.linePas s.here.asid s.here.root (s.rx a).toNat (s.rx b).toNat
      let v := u.writeBackAll mark true lines
      (if inv then v.dropCopies lines else v).hold (.writeBacks mark)) := by
  have hfault : (s.cleanPlan i a b inv).fault = none := by simp only [State.cleanPlan, hc, Option.map_none]
  refine (execQ_ready he hq ⟨hi, hw, val_of_not (Nat.not_lt.2 hn), rfl, hfault⟩ hr).trans ?_
  simp only [State.cleanPlan, hn, if_true]

/-- Settles O25: each word issues by its plan, and both write-backs by the one that they share. -/
theorem maintenanceWords : Obligations.MaintenanceWords := by
  intro s h d a b hq x n c mark lines
  refine ⟨fun hr hx => ?tlbinv, fun hr => ?tlbinva, fun hr hw hn hc => ⟨?cwb, ?cinv⟩, fun hr hx hu => ?fwcall⟩
  case tlbinv =>
    have he : execTlbinv h a s = s.issueOn .q h _ := rfl
    exact execQ_ready he hq ⟨rfl, rfl, val_of_not (not_not.2 (field_eq_zero_of_lt 7 hx)), rfl, rfl⟩ hr
  case tlbinva =>
    have he : execTlbinva h s = s.issueOn .q h _ := rfl
    exact execQ_ready he hq ⟨rfl, rfl, rfl, rfl, rfl⟩ hr
  case cwb =>
    have he : execCwb h a b s = s.issueOn .q h _ := rfl
    exact clean_ready he hq rfl hr hw hn hc
  case cinv =>
    have he : execCinv h a b s = s.issueOn .q h _ := rfl
    exact clean_ready he hq rfl hr hw hn hc
  case fwcall =>
    have he : execFwcall h d a b s = s.issueOn .q h _ := rfl
    have hchecks : val (field x 16 48 ≠ 0) 11 2 ++ forbid (x.toNat = 2 ∧ s.counterInUse n = true) 6 = [] := by
      rw [val_of_not (not_not.2 (field_eq_zero_of_lt 48 hx)), forbid_of_not fun hin => by simp [hu hin.1] at hin]; rfl
    exact execQ_ready he hq ⟨rfl, rfl, hchecks, rfl, rfl⟩ hr

end Sys2Proof.Machine
end

section
/-! SUPPORT. Strand V's lane words: a ready word of two or three operands, the values of its lanes, and the statements about
them. -/

namespace Sys2Proof.Machine

/-! ## Ready lane words (R145, R197, R378) -/

section Ready
variable {o : Host.Outcome State Fault Refusal} {s : State} {i : Instr} {h : Hdr} {d a b n : Nat} {old : Bool} {r : List W32}

/-- A ready word of strand V with three operands puts its lanes on their way; `o` is what the word's own function answers. -/
theorem vec3_ready {f : List W32 → List W32 → List W32 → List W32} (he : o = s.vec3 i h d a b n old f)
    (hq : s.cur.strand = .v) (hi : wordFaults i = []) (hr : s.ready [⟨.vec d, old, true, 14⟩, rdv a 7, rdv b 0] (some n) = true)
    (hv : f (s.here.vec.lanes d) (s.here.vec.lanes a) (s.here.vec.lanes b) = r) :
    o = .next (s.after h [⟨.vec d, old, true, 14⟩, rdv a 7, rdv b 0] none fun t => t.writeV s.tok n d r) := by
  rw [he, State.vec3, issueOn_ready s .v h _ hq ⟨hi, rfl, rfl, rfl, rfl⟩ hr, ← hv]
  rfl

/-- A ready unary word of strand V puts its lanes on their way. -/
theorem vec2_ready {f : List W32 → List W32} (he : o = s.vec2 i h d a n f) (hq : s.cur.strand = .v)
    (hi : wordFaults i = []) (hr : s.ready [wrv d 14, rdv a 7] (some n) = true) (hv : f (s.here.vec.lanes a) = r) :
    o = .next (s.after h [wrv d 14, rdv a 7] none fun t => t.writeV s.tok n d r) := by
  rw [he, State.vec2, issueOn_ready s .v h _ hq ⟨hi, rfl, rfl, rfl, rfl⟩ hr, ← hv]
  rfl

/-- A ready word that computes `g` of each lane of A and the same lane of B. -/
theorem lanes2_ready {f g : W32 → W32 → W32} (he : o = s.vec3 i h d a b n false (lanes2 f)) (hq : s.cur.strand = .v)
    (hi : wordFaults i = []) (hr : s.ready [⟨.vec d, false, true, 14⟩, rdv a 7, rdv b 0] (some n) = true)
    (hv : ∀ p q, f p q = g p q) :
    o = .next (s.after h [⟨.vec d, false, true, 14⟩, rdv a 7, rdv b 0] none fun t =>
      t.writeV s.tok n d (List.zipWith g (s.here.vec.lanes a) (s.here.vec.lanes b))) :=
  vec3_ready he hq hi hr (congrArg (List.zipWith · _ _) (funext₂ hv))

end Ready

/-- The fields of a destination and a source that may be named are no offence. -/
theorem unaryFields_ok {d a : Nat} (hd : vdst d 14 = []) (ha : vsrc a 7 = []) : vdst d 14 ++ vsrc a 7 = [] := by
  rw [hd, ha]; rfl

theorem vecFields_ok {d a b : Nat} (hd : vdst d 14 = []) (ha : vsrc a 7 = []) (hb : vsrc b 0 = []) :
    vdst d 14 ++ vsrc a 7 ++ vsrc b 0 = [] := by
  rw [unaryFields_ok hd ha, hb]; rfl

/-! ## Values of lanes (R200, R202, R203) -/

/-- The mask of a comparison, written out (R200). -/
theorem maskOf_eq (c : Bool) : maskOf c = if c then 0xFFFFFFFF else 0 := by cases c <;> rfl

/-- Half `k` of a lane starts at bit 16k (R202). -/
theorem half_zero (p : W32) : p.toNat / 65536 ^ 0 % 65536 = p.toNat % 65536 := by rw [pow_zero, Nat.div_one]

theorem half_one (p : W32) : p.toNat / 65536 ^ 1 % 65536 = p.toNat / 65536 := by
  have hp := p.isLt
  omega

/-- A function of the halves of two lanes takes half 0 with half 0 and half 1 with half 1 (R202). -/
theorem halves_eq (f : Nat → Nat → Nat) (p q : W32) :
    halves f p q =
      let g := fun (k : Nat) => f (p.toNat / 65536 ^ k % 65536) (q.toNat / 65536 ^ k % 65536)
      BitVec.ofNat 32 (g 0 + 65536 * g 1) := by
  simp only [half_zero, half_one]
  rfl

/-- The half of A that bit 0 of B chooses (R203). -/
theorem chosenHalf_eq (p q : W32) :
    p.toNat / 65536 ^ (q.toNat % 2) % 65536 =
      if q.toNat % 2 = 0 then p.toNat % 65536 else p.toNat / 65536 % 65536 := by
  obtain hq | hq := Nat.mod_two_eq_zero_or_one q.toNat
  · rw [hq, half_zero, if_pos rfl]
  · rw [hq, pow_one, if_neg one_ne_zero]

/-! ## The words -/

/-- Settles O26: each word computes lane by lane, and a BF16 word half by half; a fused word reads its destination. -/
theorem floatLaneWords : Obligations.FloatLaneWords := by
  intro s h d a b hq hd ha hb x y z word each test half
  have hf := vecFields_ok hd ha hb
  refine ⟨?add, ?sub, ?mul, ?fma, ?max, ?min, ?ceq, ?clt, ?cle, ?badd, ?bsub, ?bmul, ?bfma⟩ <;> intro hr
  case add | sub | mul | max | min => exact lanes2_ready rfl hq hf hr fun _ _ => rfl
  case ceq | clt | cle => exact lanes2_ready rfl hq hf hr fun _ _ => maskOf_eq _
  case badd | bsub | bmul => exact lanes2_ready rfl hq hf hr fun _ _ => halves_eq ..
  case fma | bfma => exact vec3_ready rfl hq hf hr rfl

/-- Settles O27: each word computes lane by lane, or from the lanes of A as a whole. -/
theorem integerLaneWords : Obligations.IntegerLaneWords := by
  intro s h d a b n hq hd ha hb x y z word three two each test
  have hf := vecFields_ok hd ha hb
  have hf2 := unaryFields_ok hd ha
  refine ⟨?add, ?sub, ?mul, ?and, ?or, ?xor, ?shl, ?shr, ?sra, ?max, ?min, ?ceq, ?clt, ?sel, ?perm, ?shli, ?mov, ?rot⟩ <;>
    intro hr
  case add => exact lanes2_ready rfl hq hf hr fun _ _ => by rw [BitVec.ofInt_add, BitVec.ofInt_toInt, BitVec.ofInt_toInt]
  case sub =>
    refine lanes2_ready rfl hq hf hr fun _ _ => ?_
    rw [Int.sub_eq_add_neg, BitVec.ofInt_add, BitVec.ofInt_neg, BitVec.ofInt_toInt, BitVec.ofInt_toInt, BitVec.sub_eq_add_neg]
  case mul => exact lanes2_ready rfl hq hf hr fun _ _ => by rw [BitVec.ofInt_mul, BitVec.ofInt_toInt, BitVec.ofInt_toInt]
  case and | or | xor | shl | shr | sra | max | min => exact lanes2_ready rfl hq hf hr fun _ _ => rfl
  case ceq | clt => exact lanes2_ready rfl hq hf hr fun _ _ => maskOf_eq _
  case sel => exact vec3_ready (f := lanes3 _) rfl hq hf hr rfl
  case perm => exact vec3_ready (o := execVperm h d a b s) rfl hq hf hr rfl
  case shli => exact vec2_ready (f := List.map _) rfl hq hf2 hr rfl
  case mov => exact vec2_ready (f := id) rfl hq hf2 hr rfl
  case rot => exact vec2_ready (o := execVrot h d a n s) rfl hq hf2 hr rfl

/-- Settles O28: conversions compute lane by lane, blocks from both sources, functions and reductions from A alone. -/
theorem conversionWords : Obligations.ConversionWords := by
  intro s h d a b hq hd ha hb x y word three two each
  have hf := vecFields_ok hd ha hb
  have hf2 := unaryFields_ok hd ha
  refine ⟨?cvtfb, ?cvtbf, ?cvtfi, ?cvtif, ?cvtl8, ?cvtl6, ?xl8, ?xl6, ?exp2, ?log2, ?rcp, ?rsq, ?redadd, ?redmax, ?redmin,
    ?rediadd⟩ <;> intro hr
  case cvtfb | cvtfi | cvtif => exact lanes2_ready rfl hq hf hr fun _ _ => rfl
  case cvtbf => exact lanes2_ready rfl hq hf hr fun _ _ => by rw [chosenHalf_eq]
  case cvtl8 | cvtl6 => exact vec3_ready (f := fun _ x y => lnsBlock _ (x ++ y)) rfl hq hf hr rfl
  case xl8 | xl6 => exact vec3_ready (f := fun _ x y => lnsExpand _ x y) rfl hq hf hr rfl
  case exp2 | log2 | rcp | rsq => exact vec2_ready (f := List.map _) rfl hq hf2 hr rfl
  case redadd => exact vec2_ready (o := execVredadd h d a s) rfl hq hf2 hr rfl
  case redmax | redmin => exact vec2_ready (f := fun x => splat (foldLanes _ x)) rfl hq hf2 hr rfl
  case rediadd => exact vec2_ready (o := execVrediadd h d a s) rfl hq hf2 hr rfl

end Sys2Proof.Machine
end

section
/-! SUPPORT. Strand L's Welt commands: a word of strand L that passes its checks issues by its plan, and the statement about
them. -/

namespace Sys2Proof.Machine

/-- A ready word of strand L's map that nothing keeps from issuing. -/
theorem execL_ready {o : Host.Outcome State Fault Refusal} {s : State} {h : Hdr} {p : State → Plan}
    (he : o = s.issueOn .l h p) (hl : s.cur.strand = .l) (hc : (p s).clear)
    (hr : s.ready (p s).accs (p s).lat = true) :
    o = .next (s.after h (p s).accs (p s).target fun t => (p s).go ((p s).found t)) :=
  he.trans (issueOn_ready s .l h p hl hc hr)

/-- Operand fields that do not name strand L's own queue, x27, are no offence (R51). -/
theorem ownQueue_ok {a b k : Nat} (ha : a ≠ 27) (hb : b ≠ 27) (hk : k ≠ 27) :
    rng (a = 27) 16 4 ++ rng (b = 27) 11 4 ++ rng (k = 27) 1 4 = [] := by
  rw [rng_of_not ha, rng_of_not hb, rng_of_not hk]; rfl

theorem ownQueue4_ok {a b c k : Nat} (ha : a ≠ 27) (hb : b ≠ 27) (hc : c ≠ 27) (hk : k ≠ 27) :
    rng (a = 27) 16 4 ++ rng (b = 27) 11 4 ++ rng (c = 27) 6 4 ++ rng (k = 27) 1 4 = [] := by
  rw [rng_of_not ha, rng_of_not hb, rng_of_not hc, rng_of_not hk]; rfl

/-! ## Welt commands (R256 to R262) -/

/-- A side of a Welt command whose checks found neither an offence nor a fault. -/
abbrev GlobalSide.free (g : GlobalSide) : Prop := g.checks = [] ∧ g.fault = none

theorem free_default (segs : List Seg) : ({ segs := segs } : GlobalSide).free := ⟨rfl, rfl⟩

/-- A Welt command whose checks find nothing, and which has a place in the queue, waits for nothing but its operands. -/
theorem weltPlan_clear {s : State} {i : Instr} {op : Nat} {a b c k : Fin 32} {more : List Acc} {checks : List Offence}
    {src dst : GlobalSide} {extra : Word} (hi : wordFaults i = []) (hw : s.here.welt.length < 32)
    (hk : s.optHandle k 1 = []) (hcopy : copyOffences op (s.rx c) = []) (hown : checks = []) (hsrc : src.free)
    (hdst : dst.free) : (s.weltPlan i op a b c k more checks src dst extra).clear where
  bits := hi
  waits := if_neg (Nat.not_le.2 hw)
  checks := by simp [State.weltPlan, hcopy, hk, hown, hsrc.1, hdst.1]
  notReady := rfl
  fault := by simp [State.weltPlan, hsrc.2, hdst.2]

/-- The register after xc is an operand of `wcp.cond` too: xc is even, and the one after it is not x27 (R260). -/
theorem pairFields_ok {l : List Offence} {c : Nat} (hl : l = []) (heven : c % 2 = 0) (h26 : c ≠ 26) :
    l ++ rng (c % 2 = 1) 6 3 ++ rng (c = 26) 6 4 = [] := by
  rw [hl, rng_of_not (Nat.mod_two_ne_one.2 heven), rng_of_not h26]; rfl

/-- The version and its data lie in one page-aligned block of 4,096 bytes, and the tile side in the core's tiles (R260). -/
theorem condFields_ok {x n : Nat} {tile : List Offence} (hx : x % 128 = 0) (hn : x % 4096 + 128 + n ≤ 4096)
    (ht : tile = []) : val (x % 128 ≠ 0) 16 5 ++ val (4096 < x % 4096 + 128 + n) 16 3 ++ tile = [] := by
  rw [val_of_not (not_not.2 hx), val_of_not (Nat.not_lt.2 hn), ht]; rfl

/-- Settles O35: each form issues by the one plan of a Welt command; `wcp.cond` also names the register after xc. -/
theorem copyWords : Obligations.CopyWords := by
  intro s h a b c k hl hw ha hb hc hk hopt core x y d n ops free put is gin gout gsrc gdst gver gmm
  have hi := ownQueue4_ok ha hb hc hk
  refine ⟨?cpIn, ?cpOut, ?cpRt, ?cpGg, ?cpMm, fun hcopy heven h26 hx hn hpad hver hr => ?cpCond⟩
  case cpIn =>
    intro hcopy htile hsrc hdst hr
    exact execL_ready (o := execWcpIn h a b c k s) rfl hl (weltPlan_clear hi hw hopt hcopy htile hsrc hdst) hr
  case cpOut =>
    intro hcopy htile hsrc hdst hr
    exact execL_ready (o := execWcpOut h a b c k s) rfl hl (weltPlan_clear hi hw hopt hcopy htile hsrc hdst) hr
  case cpRt =>
    intro hcopy htile hsrc hdst hr
    exact execL_ready (o := execWcpRt h a b c k s) rfl hl (weltPlan_clear hi hw hopt hcopy htile hsrc hdst) hr
  case cpGg =>
    intro hcopy htile hsrc hdst hr
    exact execL_ready (o := execWcpGg h a b c k s) rfl hl (weltPlan_clear hi hw hopt hcopy htile hsrc hdst) hr
  case cpMm =>
    intro hcopy htile hsrc hdst hr
    exact execL_ready (o := execWcpMm h a b c k s) rfl hl (weltPlan_clear hi hw hopt hcopy htile hsrc hdst) hr
  case cpCond =>
    exact execL_ready (o := execWcpCond h a b c k s) rfl hl
      (weltPlan_clear (pairFields_ok hi heven h26) hw hopt hcopy (condFields_ok hx hn hpad) hver (free_default _)) hr

end Sys2Proof.Machine
end

section
/-! SUPPORT. Strand L's context commands and collectives: a command that passes its checks takes its record's sequence number,
a collective joins those in flight, and the statement about them. -/

namespace Sys2Proof.Machine

/-! ## Context commands (R266 to R270) -/

/-- A context command whose checks find nothing, and which no older access holds, waits for nothing but its operands. -/
theorem ctxPlan_clear {s : State} {i : Instr} {op : Nat} {a b k : Fin 32} {c : Option (Fin 32)} (hi : wordFaults i = [])
    (hk : s.optHandle k 1 = []) (hw : s.takeWaits = [])
    (hx : let x := s.ctxSide s.cur.core s.here.asid s.here.root op (s.rx a) (s.rx b) (c.elim 0 fun r => s.rx r)
      x.checks = [] ∧ x.notReady = none ∧ x.fault = none) : (s.ctxPlan i op a b c k).clear := by
  obtain ⟨hchecks, hready, hfault⟩ := hx
  cases c <;> exact ⟨hi, hw, List.append_eq_nil_iff.2 ⟨hk, hchecks⟩, hready, hfault⟩

/-! ## Collectives (R263, R339) -/

/-- A group's number is the whole of its register, whose other bits are zero (R263). -/
theorem group_field {w : Word} (h : w.toNat < 2 ^ 8) : field w 0 8 = w.toNat := by
  rw [field, pow_zero, Nat.div_one, Nat.mod_eq_of_lt h]

/-- Settles O36: the context commands share one plan; a collective of a defined group with this module as a member finds
nothing against it. -/
theorem commandWords : Obligations.CommandWords := by
  intro s h a b c k hl hopt ha hb hc hk core four three kh side fine takes
  have hi4 := ownQueue4_ok ha hb hc hk
  have hi3 := ownQueue_ok ha hb hk
  refine ⟨fun hr hw hx => ?app, fun hr hw hx => ?qry, fun hr hw hx => ?fork, fun hr hw hx => ?can, fun hr hw hx => ?mig,
    fun hr hw hx => ?rel, fun hr hg hdef hblock hmem hdesc hva hrange hunits => ?coll⟩
  case app => exact execL_ready (o := execKvapp h a b c k s) rfl hl (ctxPlan_clear hi4 hopt hw hx) hr
  case qry => exact execL_ready (o := execKvqry h a b c k s) rfl hl (ctxPlan_clear hi4 hopt hw hx) hr
  case fork => exact execL_ready (o := execKvfork h a b k s) rfl hl (ctxPlan_clear hi3 hopt hw hx) hr
  case can => exact execL_ready (o := execKvcan h a b k s) rfl hl (ctxPlan_clear hi3 hopt hw hx) hr
  case mig => exact execL_ready (o := execKvmig h a b k s) rfl hl (ctxPlan_clear hi3 hopt hw hx) hr
  case rel => exact execL_ready (o := execKvrel h a b k s) rfl hl (ctxPlan_clear hi3 hopt hw hx) hr
  case coll =>
    have hgroup : field (s.rx b) 0 8 = (s.rx b).toNat := group_field hg
    have hrest : field (s.rx b) 8 56 = 0 := field_eq_zero_of_lt 56 hg
    refine (execL_ready (o := execColl h a b c k s) rfl hl ⟨hi4, rfl, ?checks, ?units, ?fault⟩ hr).trans ?effect
    case checks =>
      simp [hgroup, hopt, hdef, hdesc, hblock, hmem, hva, hrange, hrest, val_of_not, forbid_of_not, BlockRead.ok]
    case units => simpa using hunits
    case fault => simp [hgroup, hdef, hblock, hrange]
    case effect =>
      simp only [hgroup, hdef, if_true]
      rfl

end Sys2Proof.Machine
end

section
/-! SUPPORT. What becomes of a context command at its T-dies and at its end: each event under its guard, and the statement
about them. -/

namespace Sys2Proof.Machine

/-! ## Arrival at a T-die (R270 to R272, R289) -/

/-- The port of an expander carries a message, or the T-die needs none (R368, R448). -/
theorem portShut_eq_false {die : Nat} {egress opened : Bool} (h : 18 ≤ die → egress = false ∧ opened = true) :
    (decide (18 ≤ die) && (egress || !opened)) = false := by
  by_cases hdie : 18 ≤ die
  · obtain ⟨hegress, hopened⟩ := h hdie
    simp [hegress, hopened]
  · simp [hdie]

section Arrival
variable {s u : State} {n : Fin 22} {i : Nat} {m : CtxMsg} {k k1 : CtxCmd} (hm : s.ctxMsgs[i]? = some m)
  (hk : s.cmdOf m.cmd = some k)
include hm hk

/-- A message whose turn it is, and whose command's source lines can be read, enters its T-die's queue. -/
theorem ctxArrive_enters {resend : Bool} (hresend : m.refused = resend) (hdie : 8 ≤ m.die) (hop : k.op ≠ 0x2B)
    (hport : 18 ≤ m.die → s.hub.egress = false ∧ s.linkOpen m.die 0 = true)
    (horder : resend = false → s.inOrder i m k.core = true) (hload : s.loadSource k = some (k1, u)) :
    s.ctxArrive i resend = (u.setCmd k1).enterEntry i m.die k1 := by
  have hwaits : (!resend && !s.inOrder i m k.core) = false := by
    cases hs : resend with
    | true => rfl
    | false => rw [horder hs]; rfl
  have hkdie : ¬ m.die < 8 := Nat.not_lt.2 hdie
  simp only [State.ctxArrive, hm, hk, hresend, hkdie, beq_false_of_ne hop, portShut_eq_false hport, hwaits, hload, ne_eq,
    not_true_eq_false, decide_false, Bool.or_self, Bool.false_eq_true, if_false]

/-- A CANCEL whose turn it is acts at a T-die whose unit is ready, and leaves one that is not as it is. -/
theorem cancelArrivalTdie_takes (hdie : m.die = n) (hfirst : 8 ≤ n.val) (hop : k.op = 0x2B)
    (hport : 18 ≤ n.val → s.hub.egress = false ∧ s.linkOpen n 0 = true) (horder : s.inOrder i m k.core = true) :
    execCancelArrivalTdie n i s = if s.isReady (ccuUnit n) then
        .next (((((s.dropMsg i).cancelAt n (cbLin k.block)).cancelNote n k).admitHeld n).partDone k.id n 1)
      else .next ((s.dropMsg i).partDone k.id n 1) := by
  have hkdie : ¬ n.val < 8 := Nat.not_lt.2 hfirst
  have hopen : ¬ (18 ≤ n.val ∧ (s.hub.egress = true ∨ s.linkOpen n 0 = false)) := by
    rintro ⟨hexp, hshut⟩
    simp [hport hexp] at hshut
  simp only [execCancelArrivalTdie, hm, hk, hdie, hop, hkdie, hopen, horder, ne_eq, not_true_eq_false, Bool.not_true,
    Bool.false_eq_true, or_self, if_false]

end Arrival

/-! ## Execution at a T-die (R272, R273, R277, R286, R291, R292) -/

theorem noteComplete_reached {s : State} {n : Fin 22} {i : Nat} {e : TEntry} (he : (s.tdie n).entries[i]? = some e)
    (hl : s.linked n = true) (hr : (s.tdie n).reached e = true) (hop : e.op = 0) :
    execNoteComplete n i s = .next (s.entryDone n i 1) := by
  simp only [execNoteComplete, he, hl, hr, hop, Bool.not_true, Bool.or_self, Bool.false_eq_true, if_false, if_true]

section Execution
variable {s : State} {n : Fin 22} {i : Nat} {e : TEntry} {k : CtxCmd} (he : s.entryOf n i = some (e, k))
include he

theorem appendExecute_runs (hop : e.op = 0x28) (hstart : (s.tdie n).mayStart e = true)
    (hrows : (s.tdie n).foreign n e k = false ∨ (s.tdie n).reached e = true) :
    execAppendExecute n i s = .next (s.appendRun n i e k) := by
  simp only [execAppendExecute, he, hop, hstart, hrows, and_self, if_true]

section Context
variable {c : CtxEntry} (hc : slook (s.tdie n).ctxs e.ctx = some c)
include hc

theorem relabelExecute_reached (hop : e.op = 0x2D) (hr : (s.tdie n).reached e = true) :
    execRelabelExecute n i s = .next ((s.setTdie n { s.tdie n with
      ctxs := sput (s.tdie n).ctxs e.ctx { c with lin := cbLin k.block } }).entryDone n i 1) := by
  simp only [execRelabelExecute, he, hc, hop, hr, ne_eq, not_true_eq_false, Bool.true_eq_false, or_self, if_false]

/-- A FORK whose child a retained CANCEL matches is dropped (R289). -/
theorem forkExecute_covered (hop : e.op = 0x2A) (hr : (s.tdie n).reached e = true)
    (hlin : coveredBy (s.tdie n).prefixes (childLineage c.lin (k.block.getD 0x0C 0)) = true) :
    execForkExecute n i s = .next (s.entryDone n i (2 ^ 48)) := by
  simp only [execForkExecute, he, hc, hop, hr, hlin, ne_eq, not_true_eq_false, Bool.true_eq_false, or_self, if_false, if_true]

section Uncovered
variable (hop : e.op = 0x2A) (hr : (s.tdie n).reached e = true)
  (hlin : coveredBy (s.tdie n).prefixes (childLineage c.lin (k.block.getD 0x0C 0)) = false)
include hop hr hlin

/-- A FORK fails whose child's number is in use (R286, R436). -/
theorem forkExecute_childThere (hchild : slook (s.tdie n).ctxs (num k.block 0x2C 3) ≠ none) :
    execForkExecute n i s = .next ((s.ctxFail n e.ctx e.seq 5 2 false k.blockVa).entryDone n i (2 ^ 32)) := by
  simp only [execForkExecute, he, hc, hop, hr, hlin, Option.isSome_iff_ne_none.2 hchild, ne_eq, not_true_eq_false,
    Bool.true_eq_false, Bool.false_eq_true, or_self, if_false, if_true]

/-- A FORK creates its child, which shares its parent's pages, and fails where a copy found no page (R286). -/
theorem forkExecute_shares (hchild : slook (s.tdie n).ctxs (num k.block 0x2C 3) = none)
    (hroom : (s.tdie n).roomy = true) :
    execForkExecute n i s =
      let r := s.shareGroups n (num k.block 0x2C 3) c.groups
      let u := r.2.2.setTdie n ((r.2.2.tdie n).create
        ⟨num k.block 0x2C 3, childLineage c.lin (k.block.getD 0x0C 0), c.set, 0, r.1⟩)
      .next (if r.2.1 then (u.ctxFail n e.ctx e.seq 4 2 true k.blockVa).entryDone n i (2 ^ 32) else u.entryDone n i 1) := by
  simp only [execForkExecute, he, hc, hop, hr, hlin, hchild, hroom, Option.isSome_none, ne_eq, not_true_eq_false,
    Bool.true_eq_false, Bool.not_true, Bool.false_eq_true, or_self, if_false]

end Uncovered

section Migrate
variable (hop : e.op = 0x2C) (hstart : (s.tdie n).mayStart e = true)
include hop hstart

/-- A MIGRATE of a group that the context has not changes nothing (R292). -/
theorem migrateExecute_noGroup (hg : c.find (cbLayer k.block) (cbGroup k.block) = none) :
    execMigrateExecute n i s = .next (s.entryDone n i 1) := by
  simp only [execMigrateExecute, he, hc, hop, hstart, hg, Option.bind_some, Option.bind_none, ne_eq, not_true_eq_false,
    Bool.true_eq_false, or_self, if_false]

/-- A MIGRATE of a page without poison moves it to the other medium, if it is not there and that medium's pool has a page
(R292, R435). -/
theorem migrateExecute_page {g : KvGroup} {id : Nat} {d : PageDesc}
    (hg : c.find (cbLayer k.block) (cbGroup k.block) = some g)
    (hpage : cbCount k.block < pageCount g.n (pageTokens g.heads g.hdim)) (hid : slook g.table (cbCount k.block) = some id)
    (hd : slook (s.tdie n).descs id = some d) (hclean : d.poisoned = false) :
    execMigrateExecute n i s =
      let med := num k.block 0x0C 4
      let pool := if med = 0 then (s.tdie n).freeH else (s.tdie n).freeL
      if d.med = med then .next (s.entryDone n i 1)
      else if pool.isEmpty then .next (s.failAsNote n i e k 6 1)
      else .next ((s.drew.movePage n id d med (pool.getD (s.free % pool.length) 0)).entryDone n i 1) := by
  simp only [execMigrateExecute, he, hc, hop, hstart, hg, hpage, hid, hd, hclean, Option.bind_some, Option.map_some, ne_eq,
    not_true_eq_false, Bool.true_eq_false, Bool.false_eq_true, or_self, false_or, if_false, if_true]

end Migrate
end Context
end Execution

/-- The page that is taken from a pool that has one is one of the pool's (R276). -/
theorem getD_mod_mem {pool : List Nat} (j : Nat) (h : pool ≠ []) : pool.getD (j % pool.length) 0 ∈ pool := by
  have hj : j % pool.length < pool.length := Nat.mod_lt _ (List.length_pos_of_ne_nil h)
  rw [List.getD_eq_getElem _ _ hj]
  exact List.getElem_mem hj

/-! ## The end of a command (R268, R269, R273, R281) -/

section Ending
variable {s : State} {i : Nat} {k : CtxCmd} (hk : s.cmds[i]? = some k) (hpending : k.pending = [])
include hk hpending

theorem cinchMerge_sends (hresults : k.results = true) (hmerged : k.merged = false)
    (hr : s.isReady (.cinch (Fin.ofNat 8 (dieOf k.core))) = true) :
    execCinchMerge i s = .next ((s.setCmd { k with merged := true }).sendResult k) := by
  simp only [execCinchMerge, hk, hpending, hresults, hmerged, hr, List.isEmpty_nil, Bool.not_true, Bool.or_self,
    Bool.false_eq_true, if_false, if_true]

/-- A command whose parts are all complete, and whose result is written, ends; a FORK that has succeeded writes its child's
record. -/
theorem contextCommandCompletion_ends (hkpending : k.kpending = []) (hmerged : k.results = true → k.merged = true)
    (hlines : k.op = 0x29 → ∀ a ∈ s.arrivals, a.core = k.core → a.cmd ≠ some k.tok) :
    execContextCommandCompletion i s =
      let u : State := { s with cmds := s.cmds.eraseIdx i, ctxMsgs := s.ctxMsgs.filter fun (m : CtxMsg) => m.cmd ≠ k.id }
      let v := if k.op = 0x2A ∧ k.failed = false ∧ k.dropped = false ∧ k.lost = false then
        u.writeLine k.core k.child 0 k.childRecord false else u
      .next (match k.add with
        | some x => v.sendAdd (.context k.core (k.set.foldl min 21)) k.k x
        | none => v) := by
  have hresult : (k.results && !k.merged) = false := by
    cases hres : k.results with
    | false => rfl
    | true => rw [hmerged hres]; rfl
  have hwritten : (k.op == 0x29 && s.arrivals.any fun a => a.core == k.core && a.cmd == some k.tok) = false := by
    by_cases hop : k.op = 0x29
    · simpa [hop] using hlines hop
    · simp [hop]
  simp only [execContextCommandCompletion, hk, hpending, hkpending, hresult, hwritten, List.isEmpty_nil, Bool.not_true,
    Bool.or_self, Bool.false_eq_true, if_false, Bool.not_eq_true'] <;> rfl

end Ending

/-- Settles O50: each event acts by the branch that its hypotheses name. -/
theorem contextEvents : Obligations.ContextEvents := by
  intro s n i k t
  refine ⟨fun m hm hk => ⟨fun hdie hop hport k1 u hload => ⟨fun hnew horder => ?arrives, fun hagain => ?comesAgain⟩,
      fun hdie hfirst hop hport horder => ⟨fun hr => ?cancels, fun hr => ?cancelPasses⟩⟩,
    fun _ => noteComplete_reached,
    fun e he c hc => ⟨appendExecute_runs he, fun hop hr => ?fork,
      relabelExecute_reached he hc, fun hop hstart => ?migrate⟩,
    fun hk hpending => ⟨cinchMerge_sends hk hpending, contextCommandCompletion_ends hk hpending⟩⟩
  case arrives => exact congrArg _ (ctxArrive_enters hm hk hnew hdie hop hport (fun _ => horder) hload)
  case comesAgain => exact congrArg _ (ctxArrive_enters hm hk hagain hdie hop hport nofun hload)
  case cancels => exact (cancelArrivalTdie_takes hm hk hdie hfirst hop hport horder).trans (if_pos hr)
  case cancelPasses =>
    exact (cancelArrivalTdie_takes hm hk hdie hfirst hop hport horder).trans (if_neg (Bool.eq_false_iff.1 hr))
  case fork =>
    refine ⟨forkExecute_covered he hc hop hr, fun hlin =>
      ⟨forkExecute_childThere he hc hop hr hlin, fun hchild hroom => ?_⟩⟩
    have hshares := forkExecute_shares he hc hop hr hlin hchild hroom
    exact ⟨fun hpages => hshares.trans (congrArg _ (if_neg (Bool.eq_false_iff.1 hpages))),
      fun hpages => hshares.trans (congrArg _ (if_pos hpages))⟩
  case migrate =>
    refine ⟨migrateExecute_noGroup he hc hop hstart, fun g hg hpage id d hid hd hclean => ?_⟩
    have hmoves := migrateExecute_page he hc hop hstart hg hpage hid hd hclean
    refine ⟨fun hsame => hmoves.trans (if_pos hsame), fun hother => ⟨fun hempty => ?failsAsNote, fun hpool => ?moves⟩⟩
    case failsAsNote => exact (hmoves.trans (if_neg hother)).trans (if_pos (List.isEmpty_iff.2 hempty))
    case moves =>
      exact ⟨_, getD_mod_mem s.free hpool,
        (hmoves.trans (if_neg hother)).trans (if_neg fun hempty => hpool (List.isEmpty_iff.1 hempty))⟩

end Sys2Proof.Machine
end

section
/-! SUPPORT. Handlers: what a strand is that enters one, leaves one, or can enter none, and the statements about them. -/

namespace Sys2Proof.Machine

/-! ## Entering a handler (R385) -/

theorem foldl_max_ge {α : Type} (f : α → Nat) (l : List α) (n : Nat) : n ≤ l.foldl (fun n w => max n (f w)) n := by
  induction l generalizing n with
  | nil => exact le_rfl
  | cons x r ih => exact (le_max_left ..).trans (ih _)

theorem le_foldl_max {α : Type} (f : α → Nat) {l : List α} {x : α} (hx : x ∈ l) (n : Nat) :
    f x ≤ l.foldl (fun n w => max n (f w)) n := by
  induction l generalizing n with
  | nil => cases hx
  | cons y r ih =>
    cases hx with
    | head => exact (le_max_right ..).trans (foldl_max_ge f r _)
    | tail _ hr => exact ih hr _

/-- A handler's first word waits for every pending write of its strand. -/
theorem land_le_settled {c : Core} {k : StrandId} {f : FixedWrite} (hf : f ∈ c.fixed) (hk : f.strand = k) :
    f.land ≤ c.settled k :=
  le_foldl_max FixedWrite.land (List.mem_filter.2 ⟨hf, by simp [hk]⟩) 0

theorem causeWord_toNat {synd : Nat} (h : synd < 256) (past : Bool) :
    (causeWord synd past).toNat = synd + 256 + if past then 512 else 0 := by
  rw [causeWord, BitVec.toNat_ofNat]
  cases past <;> simp <;> omega

/-- %tcause at handler entry: SYND, INH, PAST and nothing else (R382, R385). -/
theorem causeWord_fields {synd : Nat} (h : synd < 256) (past : Bool) :
    field (causeWord synd past) 0 8 = synd ∧ bitOf (causeWord synd past).toNat 8 = true ∧
      bitOf (causeWord synd past).toNat 9 = past ∧ (causeWord synd past).toNat < 1024 := by
  simp only [field, bitOf, causeWord_toNat h]
  cases past <;> simp <;> omega

/-- Entering a handler changes the strand and marks the core as one that has acted. -/
theorem enterHandler_shape (c : Core) (k : StrandId) (synd : Nat) (addr info : Word) (epc : Nat) (past : Bool) (w : W32) :
    c.enterHandler k synd addr info epc past w = { c with
      q := (c.enterHandler k synd addr info epc past w).q, v := (c.enterHandler k synd addr info epc past w).v
      m := (c.enterHandler k synd addr info epc past w).m, l := (c.enterHandler k synd addr info epc past w).l
      acted := true } := by
  cases k <;> rfl

/-- A strand that moves past its word and then enters its handler: what follows the word stands in %tepc and aside (R179). -/
theorem moved_enterHandler_strand (s : State) (h : Hdr) (synd : Nat) (addr info : Word) (w : W32) :
    ((s.moved h [] none).here.enterHandler s.cur.strand synd addr info (s.moved h [] none).me.pc true w).strand s.cur.strand =
      { s.me with
        pc := s.me.trap.entry, readyAt := max (s.here.cycle + 2) (s.here.settled s.cur.strand)
        aside := (afterWord s.me.pc s.me.loops).2, loops := [], asideBlock := .none, block := .none, join := none
        trap := { s.me.trap with
          cause := causeWord synd true, epc := BitVec.ofNat 64 (afterWord s.me.pc s.me.loops).1
          word := w.setWidth 64, addr := addr, info := info } } := by
  simp only [enterHandler_strand, State.me, moved_cur, moved_strand, moved_here_cycle, Core.settled, moved_here_fixed]

/-- A ready `swi` moves on and then takes its trap (R179). -/
theorem swi_ready {s : State} {h : Hdr} {i : Fin 2048} (hr : s.ready [] none = true) :
    exec (.swi h i) s = .next (s.after h [] none fun t =>
      t.trapWith t.cur.core t.cur.strand SWI 0 (BitVec.ofNat 64 i.val) none t.me.pc true (s.here.fetch s.cur.strand)) := by
  have he : exec (.swi h i) s = .next (s.issue h _) := rfl
  exact exec_ready he ⟨rfl, rfl, rfl, rfl, rfl⟩ hr

/-- Settles O8: the strand by `enterHandler_strand`, its core by `enterHandler_shape`; a `swi` enters from the strand that has
moved on. -/
theorem trapEntry : Obligations.TrapEntry := by
  constructor
  · intro s c k synd addr info epc past w old hs hepc hen hinh t new
    have ht : t = s.setCore c ((s.core c).enterHandler k synd addr info epc past w) := trapWith_enters _ _ _ _ _ _ _ _ _ hen hinh
    have hcore : t.core c = (s.core c).enterHandler k synd addr info epc past w := by rw [ht, core_setCore]
    have hnew : new = _ := (congrArg (·.strand k) hcore).trans (enterHandler_strand ..)
    obtain ⟨hsynd, hset, hpast, hlt⟩ := causeWord_fields hs past
    have hpc : (BitVec.ofNat 64 epc).toNat = epc := by rw [BitVec.toNat_ofNat]; omega
    rw [hnew]
    refine ⟨hsynd, hset, hpast, hlt, hpc, rfl, rfl, rfl, rfl, rfl, rfl, rfl, rfl, rfl, rfl, rfl, le_max_left ..,
      ?_, ?_, ?_, ?_, ?_⟩
    · exact fun f hf hk => (land_le_settled hf hk).trans (le_max_right ..)
    · exact fun j hj => by rw [hcore, enterHandler_strand_of_ne _ _ _ _ _ _ _ hj]
    · rw [hcore]; exact enterHandler_shape ..
    · exact fun e he => by rw [ht, core_setCore_of_ne _ _ he]
    · rw [ht]; rfl
  · intro s h i k hr hen hinh
    refine ⟨_, swi_ready hr, ?_⟩
    intro old new follow
    have htrap : ((s.moved h [] none).here.strand k).trap = s.me.trap := congrArg (·.trap) (moved_strand s h [] none)
    have hnew : new = _ := (congrArg (fun t : State => t.here.strand k) (trapWith_enters (s.moved h [] none) s.cur.core k SWI
        0 (BitVec.ofNat 64 i.val) (s.moved h [] none).me.pc true (s.here.fetch k) ((congrArg _ htrap).trans hen)
        ((congrArg _ htrap).trans hinh))).trans
      ((congrArg (·.strand k) (here_setHere ..)).trans (moved_enterHandler_strand ..))
    rw [hnew]
    exact ⟨rfl, rfl, rfl, rfl, rfl, rfl, rfl, rfl, rfl, le_max_left ..⟩

/-! ## Leaving a handler (R386) -/

/-- Clearing INH leaves SYND. -/
theorem clearInh_fields (w : Word) :
    bitOf (w &&& BitVec.ofNat 64 (2 ^ 64 - 1 - 256)).toNat 8 = false ∧
      field (w &&& BitVec.ofNat 64 (2 ^ 64 - 1 - 256)) 0 8 = field w 0 8 := by
  simp only [bitOf_eq_testBit, field, BitVec.toNat_and, BitVec.toNat_ofNat, Nat.testBit_and, pow_zero, Nat.div_one]
  refine ⟨Bool.and_eq_false_imp.2 fun _ => by decide, ?_⟩
  rw [Nat.and_mod_two_pow]
  exact (Nat.and_two_pow_sub_one_eq_mod (w.toNat % 2 ^ 8) 8).trans (Nat.mod_mod ..)

/-! ## Abandoning a unit of work (R327, R387) -/

theorem lose_strand (c : Core) (synd : Nat) (j : StrandId) : (c.lose synd).strand j = c.strand j := by
  cases j <;> rfl

theorem loseAt_strand (c : Core) (k : StrandId) (synd : Nat) :
    (c.loseAt k synd).strand k = { c.strand k with readyAt := c.cycle + 1 } := by
  cases k <;> rfl

theorem loseAt_strand_of_ne (c : Core) {k j : StrandId} (synd : Nat) (h : j ≠ k) :
    (c.loseAt k synd).strand j = c.strand j := by
  rw [Core.loseAt, lose_strand, strand_setStrand_of_ne _ _ h]
  cases j <;> rfl

theorem loseAt_keeps (c : Core) (k : StrandId) (synd : Nat) :
    (c.loseAt k synd).lost = some (c.lost.getD synd) ∧ (c.loseAt k synd).work = c.work ∧ (c.loseAt k synd).mbox = c.mbox := by
  cases k <;> exact ⟨rfl, rfl, rfl⟩

/-- A strand that can enter no handler issues nothing more in this cycle. -/
theorem loseAt_notYet (c : Core) (k : StrandId) (synd : Nat) : (c.loseAt k synd).notYet k = true := by
  have hcycle : (c.loseAt k synd).cycle = c.cycle := by cases k <;> rfl
  simp [Core.notYet, loseAt_strand, hcycle]

/-- What of a core neither a landing result nor a store to its tiles changes. -/
def Core.unit (c : Core) : Work × Mailbox := (c.work, c.mbox)

theorem setReg_unit (c : Core) (k : StrandId) (r : Nat) (v : Word) : (c.setReg k r v).unit = c.unit := by
  unfold Core.setReg
  split
  · rfl
  · cases k <;> rfl

theorem landFixed_unit (c : Core) (w : FixedWrite) : (c.landFixed w).unit = c.unit := by
  unfold Core.landFixed Core.landResult
  split
  · split
    · rfl
    · exact setReg_unit ..
  · unfold Core.landVec
    split <;> rfl
  · rfl

/-- The queues of a core that stops are dropped; its unit of work and its mailbox stand. -/
theorem cleared_unit (c : Core) : c.cleared.unit = c.unit := by
  have hland : c.landAll.unit = c.unit := foldl_keeps Core.landFixed Core.unit landFixed_unit c.fixed c
  have hstores : c.landAll.landStores.unit = c.landAll.unit := by
    refine foldl_keeps _ Core.unit (fun x m => ?_) c.landAll.mops c.landAll
    split
    · split <;> rfl
    · rfl
    · rfl
  exact hstores.trans hland

/-- A launch that is abandoned ends in STATE 5 with its syndrome, and drains (R387). -/
theorem abandon_launch {s : State} {c : Nat} (synd : Nat) (hw : (s.core c).work = .launch) :
    ((s.abandon c synd).core c).work = .draining ∧
      ((s.abandon c synd).core c).mbox = { (s.core c).mbox with state := 5, synd := synd } := by
  obtain ⟨hwork, hmbox⟩ := Prod.mk.inj (cleared_unit (s.core c))
  simp only [State.abandon, State.loseWork, stopCore_core, hwork, hw, hmbox, core_setCore, and_self]

/-- Settles O9: the return by `returnFrom_strand`, a trap that can enter no handler by `loseAt`, and the boundary that follows by
`abandon_launch`. -/
theorem trapReturnAndAbandon : Obligations.TrapReturnAndAbandon := by
  refine ⟨fun c k => ?returns, ?loses, ?abandons⟩
  case returns =>
    intro old new
    obtain ⟨hinh, hsynd⟩ := clearInh_fields (c.strand k).trap.cause
    have hnew : new = _ := returnFrom_strand c k
    rw [hnew]
    exact ⟨rfl, rfl, rfl, hinh, hsynd, rfl, rfl, rfl, rfl, rfl, rfl, le_max_right .., fun j hj => returnFrom_strand_of_ne c hj⟩
  case loses =>
    intro s c k synd addr info epc past w hno x t y
    have hy : y = x.loseAt k synd := by
      rw [← core_setCore s c (x.loseAt k synd)]
      refine congrArg (·.core c) (trapWith_abandons s c k synd addr info epc past w ?_)
      rintro ⟨hen, hinh⟩
      rcases hno with h | h
      · exact absurd (h.symm.trans hen) (by decide)
      · exact absurd (h.symm.trans hinh) (by decide)
    obtain ⟨hlost, hwork, hmbox⟩ := loseAt_keeps x k synd
    rw [hy, loseAt_strand]
    exact ⟨hlost, hwork, hmbox, loseAt_notYet .., rfl, rfl, fun j hj => loseAt_strand_of_ne x synd hj⟩
  case abandons =>
    intro s c synd hlost hwork _ t
    have ht : t = s.abandon c synd := by simp only [t, State.boundary, hlost]
    obtain ⟨hw, hm⟩ := abandon_launch synd hwork
    rw [ht]
    exact ⟨hw, hm, fun j => abandon_running s c synd j⟩

end Sys2Proof.Machine
end

section
/-! SUPPORT. The words of an Awl run: a word without an offence comes to what its function says, and the run goes on at the word
that follows. -/

namespace Sys2Proof.Machine

/-! ## How a run goes on (R300, R303, R304) -/

/-- The run `r` stands at a word, with its slot. -/
def State.awlAt (s : State) (d : Nat) (r : AwlRun) (pc : Nat) (y : AwlSlot) : State :=
  let a := (s.kdie d).awl
  s.setAwl d (({ a with runs := a.runs.map fun (z : AwlRun) =>
    if z.req.slot = r.req.slot then { z with pc := pc } else z } : Awl).setSlot r.req.slot y)

theorem awlContinue_inside {s : State} {d : Nat} {r : AwlRun} {y : AwlSlot} {pc : Nat} (h : pc < 8192) :
    s.awlContinue d r y pc = s.awlAt d r pc y := if_pos h

/-- The run `r` of a die's Awl, with its slot, is at a word whose zero fields are zero and whose next word is in the program. -/
structure State.RunsAwl (s : State) (die : Nat) (r : AwlRun) (x : AwlSlot) : Prop where
  onDie : s.cur.die = die
  run : (s.kdie die).awl.runOn s.cur.slot = some r
  slot : (s.kdie die).awl.slot r.req.slot = x
  format : s.cur.format = []
  room : r.pc + 1 < 8192

section Run
variable {s : State} {die : Nat} {r : AwlRun} {x y : AwlSlot} {o : Host.Outcome State Fault Refusal} {i : Instr}
  (h : s.RunsAwl die r x)
include h

theorem awlRun_settles {f : AwlRun → AwlSlot → State × AwlRes} (he : o = s.awlRun i f) (hi : wordFaults i = []) :
    o = .next ((f r x).1.awlSettle die r (f r x).2) := by
  simp only [he, State.awlRun, h.onDie, h.run, h.slot, h.format, hi, List.append_nil, List.isEmpty_nil, if_true]

/-- A word that comes to a new slot, and to marks of what it has read or written. -/
theorem awlRun_goes {f : AwlRun → AwlSlot → State × AwlRes} {u : State} (he : o = s.awlRun i f) (hi : wordFaults i = [])
    (hy : f r x = (u, .go y)) : o = .next (u.awlAt die r (r.pc + 1) y) := by
  refine (awlRun_settles h he hi).trans ?_
  rw [hy]
  exact congrArg _ (awlContinue_inside h.room)

theorem awlTry_goes {f : AwlRun → AwlSlot → AwlRes} (he : o = s.awlTry i f) (hi : wordFaults i = []) (hy : f r x = .go y) :
    o = .next (s.awlAt die r (r.pc + 1) y) :=
  awlRun_goes h he hi (congrArg (Prod.mk s) hy)

theorem awlPure_goes {f : AwlSlot → AwlSlot} (he : o = s.awlPure i f) (hi : wordFaults i = []) (hy : f x = y) :
    o = .next (s.awlAt die r (r.pc + 1) y) :=
  awlRun_goes h he hi (congrArg (fun y => (s, AwlRes.go y)) hy)

/-- A branch goes on at its target, or at the next word. -/
theorem awlBranch_goes {c : AwlSlot → Bool} {off : Int} {t : Nat} {P : Prop} [Decidable P] (he : o = s.awlBranch i c off)
    (hi : wordFaults i = []) (hc : c x = true ↔ P) (ht : (r.pc : Int) + off = t) (hlt : t < 8192) :
    o = if P then .next (s.awlAt die r t x) else .next (s.awlAt die r (r.pc + 1) x) := by
  have htarget : (0 : Int) ≤ t ∧ (t : Int) < 8192 := by omega
  rw [he, State.awlBranch, State.awlTry]
  refine (awlRun_settles h rfl hi).trans ?_
  by_cases hP : P
  · simp only [hc.2 hP, hP, if_true, ht, State.awlSettle, htarget, and_self, Int.toNat_natCast, h.slot, awlContinue_inside hlt]
  · simp only [mt hc.1 hP, hP, Bool.false_eq_true, if_false, State.awlSettle, awlContinue_inside h.room]

end Run

/-! ## Integer and F32 words (R303, R304) -/

/-- A field that is limited to 0 to n − 1 is in range. -/
theorem rng_in {v n bit : Nat} (h : v < n) : rng (n ≤ v) bit 3 = [] := rng_of_not (Nat.not_le.2 h)

theorem fields2_in {v w n m i j : Nat} (hv : v < n) (hw : w < m) : rng (n ≤ v) i 3 ++ rng (m ≤ w) j 3 = [] :=
  congrArg₂ (· ++ ·) (rng_in hv) (rng_in hw)

theorem fields3_in {u v w n : Nat} {i j k : Nat} (hu : u < n) (hv : v < n) (hw : w < n) :
    rng (n ≤ u) i 3 ++ rng (n ≤ v) j 3 ++ rng (n ≤ w) k 3 = [] :=
  congrArg₂ (· ++ ·) (fields2_in hu hv) (rng_in hw)

/-- Settles O37: each word changes its slot alone, a branch by its condition, and a stop by `endRun`. -/
theorem awlArithmetic : Obligations.AwlArithmetic := by
  intro s r d a b i o w j die hrun hf hpc x p q f g on goes imm
  have h : s.RunsAwl die r x := ⟨rfl, hrun, rfl, hf, hpc⟩
  refine ⟨?add, ?sub, ?and, ?shr, ?slt, ?addi, ?wli, fun ha => ⟨?fint, ?wbits⟩, fun hd => ⟨?fcvt, ?fbits⟩,
    fun hd ha => ⟨?frcp, ?fexp2, ?flog2, fun hb => ⟨?fadd, ?fmul, ?fmax⟩⟩,
    fun t ht hlt => ⟨?beq, ?bne, ?blt⟩, fun t ht hlt => ?jmp, ?stop⟩
  case add => exact awlPure_goes (o := execAwlAdd d a b s) h rfl rfl rfl
  case sub => exact awlPure_goes (o := execAwlSub d a b s) h rfl rfl rfl
  case and => exact awlPure_goes (o := execAwlAnd d a b s) h rfl rfl rfl
  case shr => exact awlPure_goes (o := execAwlShr d a b s) h rfl rfl rfl
  case slt => exact awlPure_goes (o := execAwlSlt d a b s) h rfl rfl (by simp only [BitVec.slt_iff_toInt_lt]; rfl)
  case addi => exact awlPure_goes (o := execAwlAddi d a i s) h rfl rfl rfl
  case wli => exact awlPure_goes (o := execAwlWli d w s) h rfl rfl rfl
  case fint => exact awlPure_goes (o := execAwlFint d a s) h rfl (rng_in ha) rfl
  case wbits => exact awlPure_goes (o := execAwlWbits d a s) h rfl (rng_in ha) rfl
  case fcvt => exact awlPure_goes (o := execAwlFcvt d a s) h rfl (rng_in hd) rfl
  case fbits => exact awlPure_goes (o := execAwlFbits d a s) h rfl (rng_in hd) rfl
  case frcp => exact awlPure_goes (o := execAwlFrcp d a s) h rfl (fields2_in hd ha) rfl
  case fexp2 => exact awlPure_goes (o := execAwlFexp2 d a s) h rfl (fields2_in hd ha) rfl
  case flog2 => exact awlPure_goes (o := execAwlFlog2 d a s) h rfl (fields2_in hd ha) rfl
  case fadd => exact awlPure_goes (o := execAwlFadd d a b s) h rfl (fields3_in hd ha hb) rfl
  case fmul => exact awlPure_goes (o := execAwlFmul d a b s) h rfl (fields3_in hd ha hb) rfl
  case fmax => exact awlPure_goes (o := execAwlFmax d a b s) h rfl (fields3_in hd ha hb) rfl
  case beq => exact awlBranch_goes (o := execAwlBeq a b o s) h rfl rfl beq_iff_eq ht hlt
  case bne => exact awlBranch_goes (o := execAwlBne a b o s) h rfl rfl bne_iff_ne ht hlt
  case blt => exact awlBranch_goes (o := execAwlBlt a b o s) h rfl rfl BitVec.slt_iff_toInt_lt ht hlt
  case jmp =>
    exact (awlBranch_goes (o := execAwlJmp j s) h rfl rfl (iff_true_intro rfl) ht hlt).trans (if_pos trivial)
  case stop => exact awlRun_settles (o := execAwlStop s) (f := fun _ _ => (s, .stop)) h rfl rfl

end Sys2Proof.Machine
end

section
/-! SUPPORT. The Awl's memory words, candidates, draws, penalties and draft trees: each word under what its operands must meet,
and the statement about them. -/

namespace Sys2Proof.Machine

/-! ## Memory words (R304, R305, R308, R428) -/

@[simp] theorem length_bytesOf (n v : Nat) : (bytesOf n v).length = n := by simp [bytesOf]

theorem length_tokenRecord (tok : W32) (slot die gen : Nat) (draw : Word) :
    (tokenRecord tok slot die gen draw).length = 16 := by
  simp only [tokenRecord, List.length_append, length_bytesOf]

theorem awlAddr_zero (r : AwlRun) (off : W32) : awlAddr r off 0 = r.req.arg + off.setWidth 64 := BitVec.add_zero _

theorem awlRead_ok {s : State} {r : AwlRun} {v : Word} {n : Nat}
    (h : (s.readBlock 0 r.req.asid r.req.root v.toNat n PR).fault = none) :
    s.awlRead r v n = ((s.readBlock 0 r.req.asid r.req.root v.toNat n PR).found s,
      .ok (s.readBlock 0 r.req.asid r.req.root v.toNat n PR).bytes) := by
  simp only [State.awlRead, h]

theorem awlWrite_ok {s : State} {die : Nat} {r : AwlRun} {v : Word} {bs : List Byte} {n : Nat} (hd : s.cur.die = die)
    (hn : bs.length = n)
    (h : s.checkRange r.req.asid r.req.root PW v.toNat n = none) :
    s.awlWrite r v bs = (s.writeVa (512 + die) r.req.asid r.req.root v.toNat bs, none) := by
  simp only [State.awlWrite, hd, hn, h]

section Run
variable {s : State} {die : Nat} {r : AwlRun} {x : AwlSlot} (h : s.RunsAwl die r x)
include h

theorem awlLw_loads {d a : Fin 16} {i : Fin 16384} {p : W32} {v : Word} (hp : x.wr a = p)
    (hv : r.req.arg + p.setWidth 64 + BitVec.ofInt 64 (imm14 i) = v) (halign : v.toNat % 4 = 0)
    (hread : (s.readBlock 0 r.req.asid r.req.root v.toNat 4 PR).fault = none) :
    execAwlLw d a i s = .next (((s.readBlock 0 r.req.asid r.req.root v.toNat 4 PR).found s).awlAt die r (r.pc + 1)
      (x.setW d (BitVec.ofNat 32 (ofBytes (s.readBlock 0 r.req.asid r.req.root v.toNat 4 PR).bytes)))) := by
  refine awlRun_goes h rfl rfl ?_
  simp only [hp, awlAddr, hv, halign, awlRead_ok hread, ne_eq, not_true_eq_false, if_false]

theorem awlSw_stores {d a : Fin 16} {i : Fin 16384} {p : W32} {v : Word} (hp : x.wr a = p)
    (hv : r.req.arg + p.setWidth 64 + BitVec.ofInt 64 (imm14 i) = v) (halign : v.toNat % 4 = 0)
    (hwrite : s.checkRange r.req.asid r.req.root PW v.toNat 4 = none) :
    execAwlSw d a i s = .next ((s.writeVa (512 + die) r.req.asid r.req.root v.toNat (bytesOf 4 (x.wr d).toNat)).awlAt
      die r (r.pc + 1) x) := by
  refine awlRun_goes h rfl rfl ?_
  simp only [hp, awlAddr, hv, halign, awlWrite_ok h.onDie (length_bytesOf ..) hwrite, ne_eq, not_true_eq_false, if_false]

/-- A candidate load fills the list, and the blocks that it fills lose their marks (R305, R429). -/
theorem awlCld_loads {a b : Fin 16} {p : W32} {v : Word} {n : Nat} (hp : x.wr a = p) (hv : r.req.arg + p.setWidth 64 = v)
    (hn : (x.wr b).toNat = n) (halign : p.toNat % 8 = 0) (hcap : n ≤ x.cap)
    (hread : (s.readBlock 0 r.req.asid r.req.root v.toNat (8 * n) PR).fault = none) :
    execAwlCld a b s = .next (((s.readBlock 0 r.req.asid r.req.root v.toNat (8 * n) PR).found s).awlAt die r (r.pc + 1)
      { x with
        cands := (List.range n).map fun k =>
          (BitVec.ofNat 32 (num (s.readBlock 0 r.req.asid r.req.root v.toNat (8 * n) PR).bytes (8 * k) 4),
            BitVec.ofNat 32 (num (s.readBlock 0 r.req.asid r.req.root v.toNat (8 * n) PR).bytes (8 * k + 4) 4))
        badBlocks := x.badBlocks.filter fun k => n ≤ 512 * k
        scrubbed := x.scrubbed.filter fun k => n ≤ 512 * k }) := by
  refine awlRun_goes h rfl rfl ?_
  simp only [hp, awlAddr_zero, hv, hn, halign, Nat.not_lt.2 hcap, awlRead_ok hread, ne_eq, not_true_eq_false, if_false]

theorem awlTok_stores {a b : Fin 16} {p q : W32} {v : Word} (hp : x.wr a = p) (hq : x.wr b = q)
    (hv : r.req.arg + q.setWidth 64 = v) (hoff : q.toNat % 16 = 0) (halign : v.toNat % 16 = 0)
    (hwrite : s.checkRange r.req.asid r.req.root PW v.toNat 16 = none) :
    execAwlTok a b s = .next ((s.writeVa (512 + die) r.req.asid r.req.root v.toNat
      (tokenRecord p r.req.slot die x.gen x.draw)).awlAt die r (r.pc + 1) x) := by
  refine awlRun_goes h rfl rfl ?_
  simp only [hp, hq, awlAddr_zero, hv, hoff, halign, h.onDie, awlWrite_ok h.onDie (length_tokenRecord ..) hwrite, ne_eq,
    not_true_eq_false, or_self, if_false]

/-! ## Candidates (R306, R307, R309) -/

theorem awlCtopk_sorts {a : Fin 16} (hbad : x.badBelow x.cands.length = false) (h1 : 1 ≤ (x.wr a).toNat)
    (h2 : (x.wr a).toNat ≤ 4096) (hnan : ∀ c ∈ x.cands, (f32 c.2).isNan = false) :
    execAwlCtopk a s = .next (s.awlAt die r (r.pc + 1)
      { x with cands := (sortCands x.cands).take (x.wr a).toNat }) := by
  have hk : ¬((x.wr a).toNat = 0 ∨ 4096 < (x.wr a).toNat) := by omega
  have hany : (x.cands.any fun c => (f32 c.2).isNan) = false := by simpa using hnan
  refine awlTry_goes h rfl rfl ?_
  simp only [hk, hbad, hany, Bool.false_eq_true, if_false]

theorem awlCpen_penalises {d a b : Fin 16} {n : Option Nat} (ha : a.val < 8) (hb : b.val < 8)
    (hbad : x.badBelow x.cands.length = false) (hn : x.node (x.wr d) = some n) :
    execAwlCpen d a b s = .next (s.awlAt die r (r.pc + 1) { x with cands := x.cands.map fun c =>
      (c.1, penalLogit c.2 (x.fr a) (x.fr b) (min 65535 (x.base c.1 + (match n with
        | some k => x.pathTokens k
        | none => []).count c.1))) }) := by
  refine awlTry_goes h rfl (fields2_in ha hb) ?_
  cases n with
  | none | some => simp only [hn, hbad, Bool.false_eq_true, if_false]

theorem awlCget_reads {d a b : Fin 16} {c : W32 × W32} (ha : a.val < 8) (hc : x.cands[(x.wr b).toNat]? = some c)
    (hbad : x.badBlocks.contains ((x.wr b).toNat / 512) = false) :
    execAwlCget d a b s = .next (s.awlAt die r (r.pc + 1) ((x.setW d c.1).setF a c.2)) := by
  refine awlTry_goes h rfl (rng_in ha) ?_
  simp only [hc, hbad, Bool.false_eq_true, if_false]

/-- A pick without a NaN names the first candidate above the target, or the last one that counts. -/
theorem awlCpick_picks {d a b : Fin 16} {c : W32 × W32} {l : List (W32 × W32)} {m target : W32} {sums : List (W32 × W32)}
    (ha : a.val < 8) (hb : b.val < 4) (hl : x.cands = c :: l) (hbad : x.badBelow (l.length + 1) = false)
    (hnan : ∀ k ∈ c :: l, (f32 k.2).isNan = false) (hm : l.foldl (fun v k => maxF v k.2) c.2 = m)
    (hsums : pickSums m (x.fr a) 0 (c :: l) = sums)
    (htarget : mulF (drawF (x.gr b)) ((sums.map Prod.snd).getLastD 0) = target)
    (hterms : pickNan m (x.fr a) (c :: l) sums = false) (hnum : (f32 target).isNan = false) :
    execAwlCpick d a b s = .next (s.awlAt die r (r.pc + 1) (x.setW d (BitVec.ofNat 32
      ((((List.range sums.length).find? fun i => (f32 target).ltNum (f32 (sums.getD i (0, 0)).2)).or
        ((List.range sums.length).reverse.find? fun i => (sums.getD i (0, 0)).1 != 0)).getD 0)))) := by
  have hany : ((c :: l).any fun q => (f32 q.2).isNan) = false := List.any_eq_false.2 fun q hq => by simp [hnan q hq]
  refine awlTry_goes h rfl (fields2_in ha hb) ?_
  simp only [hl, List.length_cons, hbad, hany, hm, hsums, htarget, hterms, hnum, Bool.or_self, Bool.false_eq_true, if_false]

/-! ## Draws, penalties and draft trees (R298, R308 to R310) -/

/-- A penalty is added to a count, and a full table answers −1. -/
theorem awlPadd_counts {d a b : Fin 16} {c : Option Nat} {y : AwlSlot}
    (hy : x.penalise (x.wr a) ((x.wr b).toNat % 65536) = (c, y)) :
    execAwlPadd d a b s = .next (s.awlAt die r (r.pc + 1) (y.setW d (match c with
      | some n => BitVec.ofNat 32 n
      | none => 0xFFFFFFFF))) := by
  refine awlPure_goes h rfl rfl ?_
  cases c with
  | none | some => simp only [hy]

theorem awlDnode_adds {d a b : Fin 16} {n : Option Nat} (hn : x.node (x.wr b) = some n) (hroom : x.tree.length < 64) :
    execAwlDnode d a b s = .next (s.awlAt die r (r.pc + 1)
      ({ x with tree := x.tree ++ [(x.wr a, n)] }.setW d (BitVec.ofNat 32 x.tree.length))) := by
  refine awlTry_goes h rfl rfl ?_
  simp only [hn, Nat.not_le.2 hroom, if_false]

theorem awlDcommit_none {d a : Fin 16} (hp : x.wr a = 0xFFFFFFFF) :
    execAwlDcommit d a s = .next (s.awlAt die r (r.pc + 1) ({ x with tree := [] }.setW d 0)) := by
  have hn : x.node (x.wr a) = some none := if_pos hp
  refine awlTry_goes h rfl rfl ?_
  simp only [hn]

theorem awlDcommit_path {d a : Fin 16} (hp : x.wr a ≠ 0xFFFFFFFF) (hlt : (x.wr a).toNat < x.tree.length) :
    execAwlDcommit d a s = .next (s.awlAt die r (r.pc + 1)
      ({ (x.commit (x.pathTokens (x.wr a).toNat)).2 with tree := [] }.setW d
        (BitVec.ofNat 32 (x.commit (x.pathTokens (x.wr a).toNat)).1))) := by
  have hn : x.node (x.wr a) = some (some (x.wr a).toNat) := (if_neg hp).trans (if_pos hlt)
  refine awlTry_goes h rfl rfl ?_
  simp only [hn]

end Run

/-! ## The candidate that a pick names (R307) -/

theorem find?_reverse_range {q : Nat → Bool} {n k : Nat} (h : (List.range n).reverse.find? q = some k) :
    k < n ∧ q k = true ∧ ∀ i < n, k < i → q i = false := by
  induction n with
  | zero => simp at h
  | succ n ih =>
    rw [List.range_succ, List.reverse_append, List.reverse_singleton, List.singleton_append, List.find?_cons] at h
    cases hq : q n with
    | true =>
      obtain rfl : n = k := by simpa [hq] using h
      exact ⟨n.lt_succ_self, hq, fun i hi hk => absurd hk (by omega)⟩
    | false =>
      obtain ⟨hk, hqk, hlater⟩ := ih (by simpa [hq] using h)
      refine ⟨hk.trans n.lt_succ_self, hqk, fun i hi hki => ?_⟩
      obtain rfl | hne := eq_or_ne i n
      · exact hq
      · exact hlater i (by omega) hki

/-- The first index that `p` accepts, or else the last one that `q` accepts. -/
theorem first_or_last (n : Nat) (p q : Nat → Bool) :
    let k := (((List.range n).find? p).or ((List.range n).reverse.find? q)).getD 0
    ((∃ i < n, p i = true) → k < n ∧ p k = true ∧ ∀ i < k, ¬p i = true) ∧
      ((∀ i < n, ¬p i = true) → (∃ i < n, q i = true) → k < n ∧ q k = true ∧ ∀ i < n, k < i → q i = false) := by
  intro k
  cases hfirst : (List.range n).find? p with
  | some j =>
    have hk : k = j := by simp [k, hfirst]
    obtain ⟨hp, hj, hbefore⟩ := List.find?_range_eq_some.1 hfirst
    have hjn := List.mem_range.1 hj
    exact ⟨fun _ => hk ▸ ⟨hjn, hp, fun i hi => by simpa using hbefore i hi⟩, fun hnone => absurd hp (hnone j hjn)⟩
  | none =>
    have hnone := List.find?_range_eq_none.1 hfirst
    refine ⟨fun ⟨i, hi, hp⟩ => absurd hp (by simpa using hnone i hi), fun _ ⟨i, hi, hq⟩ => ?_⟩
    cases hlast : (List.range n).reverse.find? q with
    | some j =>
      have hk : k = j := by simp [k, hfirst, hlast]
      exact hk ▸ find?_reverse_range hlast
    | none =>
      exact absurd hq (List.find?_eq_none.1 hlast i (by simpa using hi))

/-- Settles O38: each word by what its operands meet, and a pick by `first_or_last`. -/
theorem awlUnits : Obligations.AwlUnits := by
  intro s r d a b i die hrun hf hpc x p q on imm read writable store
  have h : s.RunsAwl die r x := ⟨rfl, hrun, rfl, hf, hpc⟩
  refine ⟨?words, ?cld, ?tok, fun hbad => ⟨?ctopk, ?cpen⟩, fun ha c hc hblock => ?cget, ?rdraw, ?cpick, ?padd, ?dnode, ?dbest,
    ?dcommit⟩
  case words =>
    intro v halign
    exact ⟨awlLw_loads h rfl rfl halign,
      awlSw_stores h rfl rfl halign⟩
  case cld =>
    intro v n halign hcap hread
    exact awlCld_loads h rfl rfl rfl halign hcap hread
  case tok =>
    intro v hoff halign hwrite
    exact awlTok_stores h rfl rfl rfl hoff halign hwrite
  case ctopk => exact awlCtopk_sorts h hbad
  case cpen => exact fun ha hb n hn => awlCpen_penalises h ha hb hbad hn
  case cget => exact awlCget_reads h ha hc hblock
  case rdraw => exact fun hd ha => awlTry_goes (o := execAwlRdraw d a s) h rfl (fields2_in hd ha) rfl
  case cpick =>
    intro ha hb c l hl hbad hnan m sums target above hterms hnum
    refine ⟨_, awlCpick_picks h ha hb hl hbad hnan rfl rfl rfl hterms hnum, ?_⟩
    obtain ⟨hfirst, hlast⟩ := first_or_last sums.length (fun i => (f32 target).ltNum (f32 (sums.getD i (0, 0)).2))
      fun i => (sums.getD i (0, 0)).1 != 0
    refine ⟨hfirst, fun hnone hsome => ?_⟩
    obtain ⟨hlt, hcounts, hlater⟩ := hlast hnone (by simpa only [bne_iff_ne] using hsome)
    exact ⟨hlt, bne_iff_ne.1 hcounts, fun k hk hgt => bne_eq_false_iff_eq.1 (hlater k hk hgt)⟩
  case padd =>
    exact ⟨fun n y hy => awlPadd_counts h hy, fun y hy => awlPadd_counts h hy⟩
  case dnode => exact fun n hn hroom => awlDnode_adds h hn hroom
  case dbest => exact awlPure_goes (o := execAwlDbest d a b s) h rfl rfl rfl
  case dcommit =>
    exact ⟨awlDcommit_none h, fun hlt hp => awlDcommit_path h hp hlt⟩

end Sys2Proof.Machine
end


section
/-! SUPPORT. Runs, admission and retirement of Awl slots, the Awl window, and the statement about them. -/

namespace Sys2Proof.Machine

section Start
variable {s : State} {d : Fin 8} {i : Nat} {r : AwlReq} (hr : s.startable d i = some r)
include hr

/-! ## Starting a run (R193, R300, R428) -/

theorem awlRunStart_outcome (he : r.entry < 0xFFFE) :
    let u := s.dropRun d (awlPlace i).1 (awlPlace i).2
    let a := (u.kdie d).awl
    let run : AwlRun := ⟨r, awlSource d (awlPlace i).1, r.entry⟩
    execAwlRunStart d i s =
      if r.gen ≠ (a.slot r.slot).gen ∨ (r.entry < 8192 ∧ (a.slot r.slot).occ = false) then .next u
      else if 8192 ≤ r.entry then .next (u.awlFault d run 1 r.arg)
      else .next (u.setAwl d { a with runs := a.runs ++ [run] }) := by
  simp only [execAwlRunStart, hr, Nat.not_le.2 he, if_false]

/-! ## Admission (R301, R428, R429) -/

section Admit
variable (he : r.entry = 0xFFFF)
include he

theorem awlAdmit_stale (hg : r.gen ≠ (((s.dropRun d (awlPlace i).1 (awlPlace i).2).kdie d).awl.slot r.slot).gen) :
    execAwlAdmit d i s = .next (s.dropRun d (awlPlace i).1 (awlPlace i).2) := by
  simp only [execAwlAdmit, hr, he, hg, ne_eq, not_true_eq_false, not_false_eq_true, if_false, if_true]

/-- An admission whose record is good takes the slot and its blocks, or sends 2^32 (R301). -/
theorem awlAdmit_record {v : State} {b : List Byte}
    (hg : r.gen = (((s.dropRun d (awlPlace i).1 (awlPlace i).2).kdie d).awl.slot r.slot).gen) (halign : r.arg.toNat % 64 = 0)
    (hread : (s.dropRun d (awlPlace i).1 (awlPlace i).2).awlRead ⟨r, awlSource d (awlPlace i).1, r.entry⟩ r.arg 64 = (v, .ok b))
    (hgood : admissionBad b = false) :
    let x := ((s.dropRun d (awlPlace i).1 (awlPlace i).2).kdie d).awl.slot r.slot
    let e := (v.kdie d).awl
    execAwlAdmit d i s =
      if x.occ = true ∨ e.freeBlk < num b 32 1 then .next (v.postAdd (.awl d) r.k (2 ^ 32))
      else .next ((v.setAwl d ({ e with freeBlk := e.freeBlk - num b 32 1 }.setSlot r.slot
        { occ := true, gen := (x.gen + 1) % 65536, key := b.take 32, draw := BitVec.ofNat 64 (num b 40 8),
          nblk := num b 32 1 })).postAdd (.awl d) r.k 1) := by
  simp only [execAwlAdmit, hr, he, ← hg, halign, he ▸ hread, hgood, ne_eq, not_true_eq_false, Bool.false_eq_true, if_false,
    Fin.ofNat_val_eq_self]

end Admit

/-! ## Retirement (R301) -/

theorem awlRetire_outcome (he : r.entry = 0xFFFE) :
    let u := s.dropRun d (awlPlace i).1 (awlPlace i).2
    let a := (u.kdie d).awl
    let x := a.slot r.slot
    execAwlRetire d i s = if r.gen ≠ x.gen then .next u
      else .next ((u.setAwl d ({ a with freeBlk := a.freeBlk + x.nblk }.setSlot r.slot { gen := x.gen })).postAdd (.awl d) r.k 1) := by
  simp only [execAwlRetire, hr, he, ne_eq, not_true_eq_false, if_false, Fin.ofNat_val_eq_self]

end Start

/-! ## The Awl window (R302, R429) -/

theorem awlProgramWordWrite_outcome {s : State} {i : Nat} (d : Fin 8) (w : W32) (hi : i < 8192) (hh : s.hostReach = true) :
    execAwlProgramWordWrite d i w s =
      if (s.kdie d).awl.hold = true ∧ (s.kdie d).awl.runs = [] then
        .next (s.setAwl d { (s.kdie d).awl with prog := sput (s.kdie d).awl.prog i w })
      else .next (s.record d d 6 0xFFFF AWLF 3 true false (BitVec.ofNat 64 (0x40000 + d.val * 0x10000 + 4 * i))
        (BitVec.ofNat 64 (i + 7 * 2 ^ 40))) := by
  simp only [execAwlProgramWordWrite, Nat.not_le.2 hi, hh, Bool.true_eq_false, or_self, if_false, List.isEmpty_iff]

/-- Settles O52: each event by the branch of its outcome that its hypotheses name. -/
theorem awlEvents : Obligations.AwlEvents := by
  intro s d i r p u a x run
  refine ⟨fun hr => ⟨fun he => ?starts, fun hlow hhigh hg => ?faults, fun he => ⟨awlAdmit_stale hr he, ?joins⟩, fun he => ?retires⟩,
    fun w hi hh => ?programs, fun w hh => ?holds⟩
  case starts =>
    have hstart := awlRunStart_outcome hr (by omega)
    refine ⟨fun hg hocc => hstart.trans ?_, fun hstale => hstart.trans (if_pos ?_)⟩
    · exact (if_neg (by simp [a, x, u, p, hg, hocc])).trans (if_neg (Nat.not_le.2 he))
    · exact hstale.imp_right fun hocc => ⟨he, hocc⟩
  case faults =>
    refine (awlRunStart_outcome hr hhigh).trans ((if_neg ?_).trans (if_pos hlow))
    exact fun hstale => hstale.elim (fun h => h hg) fun h => absurd h.1 (Nat.not_lt.2 hlow)
  case joins =>
    intro hg halign v b hread hgood n e
    have hadmit := awlAdmit_record hr he hg halign hread hgood
    refine ⟨fun hocc hroom => hadmit.trans (if_neg ?_), fun hfull => hadmit.trans (if_pos hfull)⟩
    exact fun hfull => hfull.elim (fun h => absurd (h.symm.trans hocc) (by decide)) fun h => absurd h (Nat.not_lt.2 hroom)
  case retires =>
    have hretire := awlRetire_outcome hr he
    exact ⟨fun hg => hretire.trans (if_pos hg), fun hg => hretire.trans (if_neg (not_not.2 hg))⟩
  case programs =>
    have hwrite := awlProgramWordWrite_outcome d w hi hh
    refine ⟨fun hhold hruns => hwrite.trans (if_pos ⟨hhold, hruns⟩), fun hbusy => hwrite.trans (if_neg ?_)⟩
    rintro ⟨hhold, hruns⟩
    exact hbusy.elim (fun h => absurd (h.symm.trans hhold) (by decide)) fun h => h hruns
  case holds => exact congrArg _ (if_pos hh)

end Sys2Proof.Machine
end

section
/-! SUPPORT. Replays of the command graph: each event under its guard, and the statement about them. -/

namespace Sys2Proof.Machine

/-! ## Registers and latching (R312, R313, R430) -/

theorem grecWrite_next (s : State) (w : Word) : exec (.grecWrite w) s = .next
    (if s.hostReach && s.hub.graph.replays.isEmpty then s.setGraph { s.hub.graph with grec := BitVec.ofNat 64 (field w 0 57) }
      else s) := rfl

section Go
variable {s : State} (hready : s.isReady graphUnit = true)
include hready

/-- A GO while two replays are latched sets DROP; otherwise a record that keeps to R311 is latched, and another one is a fault. -/
theorem gctlGo_outcome (hh : s.hostReach = true) :
    let g := s.hub.graph
    let gen := (g.gen + 1) % 2 ^ 32
    let r := s.readGraph g.grec
    let u := r.found (s.setGraph { g with gen := gen })
    let h := u.hub.graph
    execGctlGo s =
      if 2 ≤ g.replays.length then .next (s.setGraph { g with drop := true })
      else if r.synd ≠ 0 then .next (u.graphFault 0x1FFF r.synd r.reason gen g.grec)
      else .next (u.setGraph { h with
        replays := h.replays ++ [{ gen := gen, recVa := g.grec, done := r.done, nodes := r.nodes, snapshot := h.gp,
                                   since := s.now }],
        gnode := if h.replays.any Replay.busy then h.gnode else 0 }) := by
  simp only [execGctlGo, graphDown_of_ready hready, hh, Option.isSome_none, Bool.false_eq_true, Bool.true_eq_false, or_self,
    if_false]

/-! ## Dispatch (R314, R430, R432) -/

variable {r : Replay} {b : GraphNode} (hc : s.hub.graph.current = some (r, b))
include hc

theorem graphNodeDispatch_outcome (hr : r.refused = none) :
    execGraphNodeDispatch s = if s.nodeReady b = true then .next ((s.drew.dispatchNode r b).2.nodeDone r (s.drew.dispatchNode r b).1)
      else .next s.drew := by
  cases hn : s.nodeReady b with
  | true | false =>
    simp only [execGraphNodeDispatch, hc, graphDown_of_ready hready, hr, hn, Option.isSome_none, Bool.or_self, Bool.not_true,
      Bool.not_false, Bool.false_eq_true, if_false, if_true]

/-- A refused node that is refused again leaves one record, 1 ms after the first refusal. -/
theorem graphNodeRedispatch_refused {t : Nat} (hr : r.refused = some t) (he : (s.dispatchNode r b).1 = .refused) :
    execGraphNodeRedispatch s =
      if r.logged = true ∨ s.now < t + 1000000 then .next ((s.dispatchNode r b).2.nodeDone r .refused)
      else .next (((s.dispatchNode r b).2.nodeDone { r with logged := true } .refused).record
        (gnDie b) (gnDie b) 3 0 HEAPF 1 false false 0 (BitVec.ofNat 64 (s.nodeContext r b))) := by
  simp only [execGraphNodeRedispatch, hc, hr, graphDown_of_ready hready, he, Option.isSome_none, Bool.false_eq_true, if_false]

theorem graphNodeRedispatch_taken {t : Nat} (hr : r.refused = some t) (he : (s.dispatchNode r b).1 ≠ .refused) :
    execGraphNodeRedispatch s = .next ((s.dispatchNode r b).2.nodeDone r (s.dispatchNode r b).1) := by
  simp only [execGraphNodeRedispatch, hc, hr, graphDown_of_ready hready, Option.isSome_none, Bool.false_eq_true, if_false]

end Go

theorem graphWaitRecord_late {s : State} {r : Replay} {b : GraphNode} (hc : s.hub.graph.current = some (r, b))
    (hunmet : s.nodeUnmet b = true) (hr : r.refused = none) (hl : r.logged = false) (hlate : r.since + 100000000 ≤ s.now) :
    execGraphWaitRecord s = .next ((s.setGraph { s.hub.graph with
      replays := replaceBusy { r with logged := true } s.hub.graph.replays }).record
        16 16 18 0 GRAPHF 1 false false (gnWait b) (BitVec.ofNat 64 r.next)) := by
  simp only [execGraphWaitRecord, hc, hunmet, hr, hl, Nat.not_lt.2 hlate, Option.isSome_none, Bool.true_eq_false,
    Bool.false_eq_true, or_self, if_false]

/-! ## The end of a replay (R314, R430) -/

theorem graphReplayEnd_completes {s : State} {i : Nat} {r : Replay} (hr : s.hub.graph.replays[i]? = some r) (hb : r.busy = false)
    (hruns : ∀ t ∈ r.openRuns, s.runOpen t = false) (hcmds : ∀ c ∈ r.openCmds, s.cmdOf c = none)
    (hadds : ∀ a ∈ s.adds, a.sender ≠ .graph r.gen) :
    execGraphReplayEnd i s = .next ((s.setGraph { s.hub.graph with replays := s.hub.graph.replays.eraseIdx i }).sendAdd .replay
      r.done (if r.faulted then 2 ^ 32 else 1)) := by
  have h1 : r.openRuns.any s.runOpen = false := List.any_eq_false.2 fun t ht => by simp [hruns t ht]
  have h2 : (r.openCmds.any fun id => (s.cmdOf id).isSome) = false := List.any_eq_false.2 fun c hc => by simp [hcmds c hc]
  have h3 : (s.adds.any fun a => a.sender == .graph r.gen) = false := List.any_eq_false.2 fun a ha => by simpa using hadds a ha
  simp only [execGraphReplayEnd, hr, hb, h1, h2, h3, Bool.or_self, Bool.false_eq_true, if_false]

/-- Settles O53: each event by the branch of its outcome that its hypotheses name. -/
theorem graphEvents : Obligations.GraphEvents := by
  intro s i w g put
  refine ⟨fun hh hnone => ?writes, fun hsome => ?ignored, fun hready => ⟨fun hh hfull => ?drops, fun hh hroom => ?latches,
    fun r b hc => ⟨fun hr => ⟨fun hn => ?dispatches, fun hn => ?waits⟩, fun t hr => ⟨graphNodeRedispatch_taken hready hc hr,
      fun he => ⟨fun hquiet => ?again, fun hl hlate => ?logs⟩⟩⟩⟩,
    fun r b => graphWaitRecord_late, fun r => graphReplayEnd_completes⟩
  case writes => exact (grecWrite_next s w).trans (congrArg _ (if_pos (by simp [hh, g, hnone])))
  case ignored => exact (grecWrite_next s w).trans (congrArg _ (if_neg (by simp [g, hsome])))
  case drops => exact (gctlGo_outcome hready hh).trans (if_pos hfull)
  case latches =>
    have hgo := (gctlGo_outcome hready hh).trans (if_neg (Nat.not_le.2 hroom))
    exact ⟨fun hsynd => hgo.trans (if_pos hsynd), fun hsynd => hgo.trans (if_neg (not_not.2 hsynd))⟩
  case dispatches => exact (graphNodeDispatch_outcome hready hc hr).trans (if_pos hn)
  case waits => exact (graphNodeDispatch_outcome hready hc hr).trans (if_neg (Bool.eq_false_iff.1 hn))
  case again => exact (graphNodeRedispatch_refused hready hc hr he).trans (if_pos hquiet)
  case logs =>
    refine (graphNodeRedispatch_refused hready hc hr he).trans (if_neg ?_)
    exact fun hquiet => hquiet.elim (Bool.eq_false_iff.1 hl) (Nat.not_lt.2 hlate)

end Sys2Proof.Machine
end

section
/-! SUPPORT. Queries at a T-die: executions, their ends, holds, waves and the reduction tree, and the statement about them. -/

namespace Sys2Proof.Machine

section Entry
variable {s : State} {n : Fin 22} {i : Nat} {e : TEntry} {k : CtxCmd} (he : s.entryOf n i = some (e, k))
include he

/-! ## Executions (R278, R282, R284, R285) -/

section Execute
variable (hop : e.op = 0x29) (hrun : e.running = false) (hcomplete : e.complete = false)
include hop hrun hcomplete

/-- A query whose group has other heads than its block, or another head size, fails as a note. -/
theorem queryExecute_mismatch {c : CtxEntry} {g : KvGroup} (hstart : e.started = false) (hmay : (s.tdie n).mayStart e = true)
    (hc : slook (s.tdie n).ctxs e.ctx = some c) (hg : c.find (cbLayer k.block) (cbGroup k.block) = some g)
    (hdiff : (g.heads != cbHeads k.block || g.hdim != cbHdim k.block) = true) :
    execQueryExecute n i s = .next (s.failAsNote n i e k 3 2) := by
  simp only [execQueryExecute, he, hop, hrun, hcomplete, hstart, hmay, hc, hg, hdiff, Option.bind_some, Option.any_some, ne_eq,
    not_true_eq_false, Bool.false_eq_true, Bool.true_eq_false, and_self, and_false, or_self, if_false, if_true]

/-- An execution runs with no write seen yet; the first one fixes the token count (R282). -/
theorem queryExecute_runs (hmay : e.started = false → (s.tdie n).mayStart e = true ∧
      ∀ c g, slook (s.tdie n).ctxs e.ctx = some c → c.find (cbLayer k.block) (cbGroup k.block) = some g →
        g.heads = cbHeads k.block ∧ g.hdim = cbHdim k.block) :
    ∃ u x, execQueryExecute n i s = .next (s.setTdie n u) ∧ u.entries = (s.tdie n).entries.set i x ∧ x.started = true ∧
      x.running = true ∧ x.wsig = 0 ∧ x.n = if e.started then e.n else
        ((((slook (s.tdie n).ctxs e.ctx).bind fun c => c.find (cbLayer k.block) (cbGroup k.block))).map KvGroup.n).getD 0 := by
  have hguard : ¬(e.op ≠ 0x29 ∨ e.running = true ∨ e.complete = true ∨ (e.started = false ∧ (s.tdie n).mayStart e = false)) := by
    rintro (h | h | h | ⟨hstart, h⟩)
    · exact h hop
    · exact absurd (hrun.symm.trans h) (by decide)
    · exact absurd (hcomplete.symm.trans h) (by decide)
    · exact absurd (h.symm.trans (hmay hstart).1) (by decide)
  have hsame : ¬(e.started = false ∧ (((slook (s.tdie n).ctxs e.ctx).bind fun c =>
      c.find (cbLayer k.block) (cbGroup k.block)).any fun x => x.heads != cbHeads k.block || x.hdim != cbHdim k.block) = true) := by
    rintro ⟨hstart, hany⟩
    obtain ⟨g, hg, hdiff⟩ := Option.any_eq_true .. |>.1 hany
    obtain ⟨c, hc, hfind⟩ := Option.bind_eq_some_iff.1 hg
    obtain ⟨hheads, hhdim⟩ := (hmay hstart).2 c g hc hfind
    simp [hheads, hhdim] at hdiff
  simp only [execQueryExecute, he, hguard, hsame, if_false]
  refine ⟨_, _, rfl, rfl, ?_, rfl, rfl, ?_⟩
  · cases hs : e.started with
    | true => exact hs
    | false => rfl
  · cases hs : e.started with
    | true | false => rfl

end Execute

/-- An execution that has ended commits, unless a write that it may have missed reached one of its lines (R283 to R285). -/
theorem queryExecutionEnd_outcome (hrun : e.running = true) :
    let v := if e.holding then s else s.mergeLines (s.executionLines n e k)
    let x := (v.tdie n).entries.getD i e
    x.running = true → execQueryExecutionEnd n i s =
      if x.rsig &&& x.wsig ≠ 0 ∧ x.holding = false then .next (v.setTdie n
        { (v.tdie n).setEntry i { x with running := false, conflicts := x.conflicts + 1 } with
          reexec := ((v.tdie n).reexec + 1) % 2 ^ 32 })
      else .next (v.commitQuery n i x k) := by
  intro v x hx
  have hv : (if e.running && !e.holding then s.mergeLines (s.executionLines n e k) else s) = v := by
    cases hh : e.holding with
    | true | false => simp [v, hrun, hh]
  simp only [execQueryExecutionEnd, he, hv]
  exact if_neg (by rw [hx]; decide)

/-! ## Holds (R271, R417, R435) -/

theorem contextHoldTimeout_fails (hheld : e.held = true) (hseq : e.seq ≠ 0) (hlate : e.since + 1000000 ≤ s.now) :
    execContextHoldTimeout n i s = .next (((s.ctxFail n e.ctx e.seq 2 2 true k.blockVa).setTdie n
      { s.tdie n with entries := (s.tdie n).entries.eraseIdx i }).partDone e.cmd n (2 ^ 32)) := by
  have hguard : (!e.held || e.seq == 0 || decide (s.now < e.since + 1000000)) = false := by
    simpa [hheld, hseq] using hlate
  simp only [execContextHoldTimeout, he, hguard, Bool.false_eq_true, if_false]

theorem tableFullHoldTimeout_logs (hheld : e.held = true) (hseq : e.seq = 0) (hlog : e.logged = false)
    (hlate : e.since + 1000000 < s.now) :
    execTableFullHoldTimeout n i s = .next ((s.setTdie n ((s.tdie n).setEntry i { e with logged := true })).ctxFail
      n e.ctx e.seq 1 1 true k.blockVa) := by
  simp only [execTableFullHoldTimeout, he, hheld, hseq, hlog, Nat.not_le.2 hlate, beq_self_eq_true, Bool.and_self,
    Bool.false_eq_true, or_self, if_true, if_false]

end Entry

/-- A write that a fourth execution has held off for more than 100 µs leaves one record. -/
theorem writeHoldTimeout_logs {s : State} {n : Fin 22} {late : Nat × Nat × Bool → Bool} {e : TEntry} {w : Nat × Nat × Bool}
    (hlate : (fun w => !w.2.2 && decide (w.2.1 + 100000 < s.now)) = late)
    (he : ((s.tdie n).entries.find? fun x => x.running && x.waits.any late) = some e) (hw : e.waits.find? late = some w) :
    execWriteHoldTimeout n s = .next ((s.setTdie n { s.tdie n with entries := (s.tdie n).entries.map fun (x : TEntry) =>
      if x = e then { e with waits := e.waits.map fun y => if y = w then (y.1, y.2.1, true) else y } else x }).ctxFail
        n e.ctx e.seq 7 1 false (BitVec.ofNat 64 w.1)) := by
  simp only [execWriteHoldTimeout, hlate, he, hw, Option.getD_some]

/-! ## Waves, the active-bank limit and the tree (R279, R293, R294) -/

theorem activeBankLimitRaise_raises {s : State} {n : Fin 22} {m : Nat} (hdie : tdieOk s.hub.expanders n = true)
    (hm : (s.tdie n).actlim < m) (hmax : m ≤ 1024) (hstep : m % 16 = 0) :
    execActiveBankLimitRaise n m s = .next (s.setTdie n { s.tdie n with actlim := m }) :=
  congrArg _ (if_pos (by simp [hdie, hm, hmax, hstep]))

/-- The tree changes its shape and its engine map while no query executes (R279). -/
theorem reductionTreeShapeChange_changes {s : State} {n : Fin 22} {map : List (Nat × Nat)} (shape : Bool)
    (hdie : tdieOk s.hub.expanders n = true) (hidle : ∀ y ∈ (s.tdie n).entries, y.running = false)
    (hmap : ∀ p ∈ map, p.1 < 64 ∧ p.2 < 64) :
    execReductionTreeShapeChange n shape map s = .next (s.setTdie n
      { s.tdie n with shape := shape, phys := map.foldl (fun m p => sput m p.1 p.2) (s.tdie n).phys }) := by
  have hentries : ((s.tdie n).entries.all fun e => !e.running) = true := List.all_eq_true.2 fun y hy => by simp [hidle y hy]
  have hpairs : (map.all fun p => decide (p.1 < 64) && decide (p.2 < 64)) = true :=
    List.all_eq_true.2 fun p hp => by simpa using hmap p hp
  simp only [execReductionTreeShapeChange, hdie, hentries, hpairs, Bool.and_self, if_true]

/-- Settles O51: each event by the branch that its hypotheses name. -/
theorem queryEvents : Obligations.QueryEvents := by
  intro s n i e k t
  refine ⟨fun he => ⟨fun hop hrun hcomplete => ⟨fun hstart hmay c hc => ⟨fun g hg hdiff => ?mismatch, fun hsame => ?first⟩,
      fun hstart => ?again⟩, fun hrun => ?ends, contextHoldTimeout_fails he, tableFullHoldTimeout_logs he⟩, ?writes,
    fun hdie => ⟨?wave, fun m hm hmax hstep => ?limit, fun shape map hidle hmap => ?shape⟩⟩
  case mismatch => exact queryExecute_mismatch he hop hrun hcomplete hstart hmay hc hg hdiff
  case first =>
    obtain ⟨u, x, hexec, hu, hx, hr, hw, hn⟩ := queryExecute_runs he hop hrun hcomplete fun _ => ⟨hmay, fun c' g hc' hg => by
      obtain rfl : c = c' := Option.some.inj (hc.symm.trans hc')
      exact hsame g hg⟩
    refine ⟨u, x, hexec, hu, hx, hr, ?_, hw⟩
    rw [hn, hstart, show slook (s.tdie n).ctxs e.ctx = some c from hc]
    rfl
  case again =>
    obtain ⟨u, x, hexec, hu, hx, hr, hw, hn⟩ := queryExecute_runs he hop hrun hcomplete fun h =>
      absurd (h.symm.trans hstart) (by decide)
    exact ⟨u, x, hexec, hu, hr, hn.trans (if_pos hstart), hw⟩
  case ends =>
    intro v x hx
    have hend := queryExecutionEnd_outcome he hrun hx
    refine ⟨fun hsig hhold => hend.trans (if_pos ⟨hsig, hhold⟩), fun hcommit => hend.trans (if_neg ?_)⟩
    rintro ⟨hsig, hhold⟩
    exact hcommit.elim hsig fun h => absurd (h.symm.trans hhold) (by decide)
  case writes =>
    intro late x w hx hw
    exact writeHoldTimeout_logs rfl hx hw
  case wave => exact congrArg _ (if_pos hdie)
  case limit => exact activeBankLimitRaise_raises hdie hm hmax hstep
  case shape => exact reductionTreeShapeChange_changes shape hdie hidle hmap

end Sys2Proof.Machine
end

section
/-! SUPPORT. Pre-emption, saves, resumption and cancellation at a K-die: each event under its guard, and the statement about
them. -/

namespace Sys2Proof.Machine

/-! ## Requests and their service (R317, R318, R388) -/

/-- A record with work left, none of whose cores is free, asks for the core that is pre-empted first. -/
theorem preemptionRequest_raises {s : State} {d : Fin 8} {i x : Nat} {r : NestRec} (hr : (s.kdie d).recs[i]? = some r)
    (hlin : coveredBy (s.kdie d).prefixes r.lin = false) (hwork : r.saved ≠ [] ∨ r.next < r.total)
    (hbusy : ∀ y ∈ ((List.range 64).filter fun j => bitOf r.cores.toNat j).map fun j => 64 * d.val + j, s.isFree y = false)
    (hroom : (s.kdie d).areas.length < 64)
    (hfirst : ∀ j < 64, ∀ p, (s.core (64 * d.val + j)).preq = some p → p.record ≠ r.id)
    (hready : s.isReady (.nest d) = true)
    (hx : (((List.range 64).filter fun j => bitOf r.cores.toNat j).map fun j => 64 * d.val + j).foldl
      (s.lowerOf r.cls) none = some x) :
    execPreemptionRequest d i s = .next (s.setCore x { s.core x with preq := some ⟨r.id, (s.core x).cycle, s.stubborn x⟩ }) := by
  have hleft : (r.saved.isEmpty && decide (r.total ≤ r.next)) = false := by
    rcases hwork with h | h
    · simp [List.isEmpty_eq_false_iff.2 h]
    · simp [Nat.not_le.2 h]
  have hfree : ((((List.range 64).filter fun j => bitOf r.cores.toNat j).map fun j => 64 * d.val + j).any s.isFree) = false :=
    List.any_eq_false.2 fun y hy => by simp [hbusy y hy]
  have hasked : ((List.range 64).any fun j => (s.core (64 * d.val + j)).preq.any fun p => p.record == r.id) = false := by
    refine List.any_eq_false.2 fun j hj h => ?_
    obtain ⟨p, hp, hid⟩ := Option.any_eq_true .. |>.1 h
    exact hfirst j (List.mem_range.1 hj) p hp (beq_iff_eq.1 hid)
  simp only [execPreemptionRequest, hr, hlin, hleft, hfree, hasked, hready, Nat.not_le.2 hroom, decide_false, Bool.not_true,
    Bool.or_self, Bool.false_eq_true, if_false, hx]

theorem preempt_saves {s : State} {c id n a : Nat} (hw : (s.core c).work = .iteration id n)
    (ha : ((List.range 64).find? fun a => !(s.kdie (dieOf c)).areas.contains a) = some a) :
    s.preempt c = (s.setCore c { (s.core c).landPushes with work := .saving id n a, preq := none, yielded := false }).setKdie
      (dieOf c) { s.kdie (dieOf c) with areas := (s.kdie (dieOf c)).areas ++ [a] } := by
  simp only [State.preempt, hw, ha]

theorem preemptionService_serves {s : State} {c : CoreIx} {p : PreReq} {id n : Nat} (hw : (s.core c).work = .iteration id n)
    (hp : (s.core c).preq = some p) (hy : p.atYield = false) (hrun : (s.core c).allStopped = false)
    (hact : (s.core c).acted = false) (hlost : (s.core c).lost = none) (hfrozen : (s.core c).frozen = none)
    (hroom : (s.kdie (dieOf c)).areas.length < 64) (htrap : s.nextEngineTrap c = none) (hdead : (s.core c).deadlocked = false) :
    execPreemptionService c s = .next (s.preempt c) := by
  have hserves : s.servesNow c = true := by
    simp only [State.servesNow, hp, hy, hrun, hact, hlost, hfrozen, hw, hroom, Work.stands, Option.any_some, Option.isNone_none,
      Bool.not_false, Bool.and_self, decide_true]
  simp only [execPreemptionService, hserves, htrap, hdead, Option.isNone_none, Bool.not_false, Bool.and_self, if_true]

/-! ## Cancellation (R325 to R327, R388) -/

section Cancel
variable {s : State} {c : CoreIx} {id n a : Nat} {j : CancelJob} (hact : (s.core c).acted = false)
  (hj : j ∈ (s.kdie (dieOf c)).cancels) (hm : s.matched c j.lin = true)
include hact hj hm

theorem cancelCoreStop_due : (!(s.core c).acted && s.cancelDue c) = true := by
  have hdue : s.cancelDue c = true := List.any_eq_true.2 ⟨j, hj, hm⟩
  rw [hact, hdue]
  rfl

theorem cancelCoreStop_iteration (hw : (s.core c).work = .iteration id n) :
    execCancelCoreStop c s = .next (s.cancelWork c id n none) := by
  simp only [execCancelCoreStop, cancelCoreStop_due hact hj hm, hw, if_true]

theorem cancelCoreStop_restoring (hw : (s.core c).work = .restoring id n a) :
    execCancelCoreStop c s = .next (s.cancelWork c id n (some a)) := by
  simp only [execCancelCoreStop, cancelCoreStop_due hact hj hm, hw, if_true]

end Cancel

theorem cancelArrivalKdie_arrives {s : State} {d : Fin 8} {i : Nat} {m : CtxMsg} {q : CtxCmd} (hm : s.ctxMsgs[i]? = some m)
    (hq : s.cmdOf m.cmd = some q) (hdie : m.die = d.val) (hop : q.op = 0x2B) (horder : s.inOrder i m q.core = true) :
    let p := lineageAt q.block 0x18 (num q.block 0x28 1)
    let e := s.kdie d
    execCancelArrivalKdie d i s = .next (({ s with ctxMsgs := s.ctxMsgs.eraseIdx i } : State).setKdie d { e with
      recv := (e.recv + 1) % 2 ^ 32, prefixes := (p :: e.prefixes).take 1024, cancels := e.cancels ++ [CancelJob.mk q.id p] }) := by
  simp only [execCancelArrivalKdie, hm, hq, hdie, hop, horder, ne_eq, not_true_eq_false, Bool.not_true, Bool.false_eq_true,
    or_self, if_false]

/-- A CANCEL is done at a K-die once no core of it runs what it matches (R326). -/
theorem cancelEffectsDone_purges {s : State} {d : Fin 8} {i : Nat} {j : CancelJob} (hj : (s.kdie d).cancels[i]? = some j)
    (hnone : ∀ x < 64, s.matched (64 * d.val + x) j.lin = false) :
    let u := s.purge d j.lin
    let e := u.kdie d
    execCancelEffectsDone d i s = .next { u.setKdie d { e with done := (e.done + 1) % 2 ^ 32, cancels := e.cancels.eraseIdx i } with
      cmds := u.cmds.map fun k => if k.id = j.cmd then { k with kpending := k.kpending.filter (· ≠ d.val) } else k } := by
  have hany : ((List.range 64).any fun c => s.matched (64 * d.val + c) j.lin) = false :=
    List.any_eq_false.2 fun x hx => by simp [hnone x (List.mem_range.1 hx)]
  simp only [execCancelEffectsDone, hj, hany, Bool.false_eq_true, if_false]

/-! ## Saves, resumption and restores (R318 to R320, R437) -/

/-- A save that is over frees its core; its iteration is saved, or a CANCEL has matched it and its area is free again. -/
theorem saveEnd_outcome {s : State} {c : CoreIx} {id n a : Nat} (hw : (s.core c).work = .saving id n a)
    (hs : s.saveSettled c = true) :
    let u := s.saveForced c n a
    let mine := fun (x : Add) => x.src.any fun p => p.1 == c.val
    let p := u.core c
    let v := ({ u with adds := u.adds.filter fun x => !mine x } : State).setCore c p.fresh
    let e := v.kdie (dieOf c)
    ∀ r, e.rec? id = some r → execSaveEnd c s =
      if (coveredBy e.prefixes p.lineage || coveredBy e.prefixes r.lin) = true then
        .next ((v.setKdie (dieOf c) ({ e with areas := e.areas.filter (· ≠ a) }.loseIteration none id n false true)).settleRecs
          (dieOf c))
      else .next (v.setKdie (dieOf c) (e.setRec { r with
        running := r.running.filter (fun p => p.2 ≠ n)
        saved := r.saved ++ [⟨n, a, p.packed, s.coreCounters c, u.adds.filter mine⟩] })) := by
  intro u mine p v e r hr
  simp only [execSaveEnd, hw, hs, Bool.not_true, Bool.false_eq_true, if_false]
  split
  · next hnone => exact absurd (hr.symm.trans hnone) nofun
  · next x hsome =>
    obtain rfl : r = x := Option.some.inj (hr.symm.trans hsome)
    rfl

theorem restoreEnd_continues {s : State} {c : CoreIx} {id n a : Nat} (hw : (s.core c).work = .restoring id n a)
    (hd : areaDigest (dieOf c) (s.poolGet (dieOf c) a) = ((s.poolGet (dieOf c) a).drop 0x30).take 32) :
    execRestoreEnd c s = .next ((s.setKdie (dieOf c) { s.kdie (dieOf c) with
      areas := (s.kdie (dieOf c)).areas.filter (· ≠ a) }).setCore c { s.core c with work := .iteration id n }) := by
  simp only [execRestoreEnd, hw, hd, if_true]

/-- A saved iteration begins restoring: its core is what was saved, but for the mailbox and what firmware bound to the core. -/
theorem iterationResume_restores {s : State} {c : CoreIx} {r : NestRec} {it : SavedIter} (hf : s.firstServed c = true)
    (hr : s.search c = some (r, true)) (hit : r.firstSaved = some it) :
    ∃ u : State, execIterationResume c s = .next (u.released c) ∧
      u.core c = { it.core with
        mbox := (s.core c).mbox, asid := (s.core c).asid, root := (s.core c).root, loaded := (s.core c).loaded
        work := .restoring r.id it.linear it.area, dispatched := (s.kdie (dieOf c)).dispatches } ∧
      u.kdie (dieOf c) = { (s.kdie (dieOf c)).setRec { r with
          saved := r.saved.filter (fun x => x.linear ≠ it.linear), running := r.running ++ [(c.val, it.linear)] } with
        last := sput (s.kdie (dieOf c)).last r.cls r.id, dispatches := (s.kdie (dieOf c)).dispatches + 1 } := by
  simp only [execIterationResume, hf, hr, hit, Bool.not_true, Bool.false_eq_true, if_false]
  exact ⟨_, rfl, core_setCore .., kdie_setKdie ..⟩

/-- Settles O55: each event by the branch that its hypotheses name. -/
theorem scheduleEvents : Obligations.ScheduleEvents := by
  intro s d c i k kd t
  refine ⟨?requests, fun id n hw => ⟨?serves, fun hact j hj hm => cancelCoreStop_iteration hact hj hm hw⟩,
    fun id n a hw => ⟨restoreEnd_continues hw, fun hact j hj hm => cancelCoreStop_restoring hact hj hm hw⟩, ?saves,
    fun hf r it hr hit => iterationResume_restores hf hr hit,
    fun m q hm hq hdie hop horder => cancelArrivalKdie_arrives hm hq hdie hop horder,
    fun j hj hnone => cancelEffectsDone_purges hj hnone⟩
  case requests =>
    intro r x hr cores hlin hwork hbusy hroom hfirst hready hx
    exact preemptionRequest_raises hr hlin hwork hbusy hroom hfirst hready hx
  case serves =>
    intro p a hp hy hrun hact hlost hfrozen hroom htrap hdead ha
    exact (preemptionService_serves hw hp hy hrun hact hlost hfrozen hroom htrap hdead).trans (congrArg _ (preempt_saves hw ha))
  case saves =>
    intro id n a hw hs u mine p v e r hr
    have hsave := saveEnd_outcome hw hs r hr
    refine ⟨fun hcore hrec => hsave.trans (if_neg ?_), fun hcovered => hsave.trans (if_pos ?_)⟩
    · rw [hcore, hrec]
      decide
    · exact Bool.or_eq_true_iff.2 hcovered

end Sys2Proof.Machine
end

section
/-! SUPPORT. Die links, optical channels and expander ports: what each event does to the ends it names, and the statement
about them. -/

namespace Sys2Proof.Machine

/-! ## The ends of a link -/

/-- The other end of a link is another end. -/
theorem peerEnd_place_ne {n : Fin 22} {m : Fin 12} {a b : Nat} (h : peerEnd n m = some (a, b)) :
    12 * n.val + m.val ≠ 12 * a + b := by
  have hall : ∀ n : Fin 22, ∀ m : Fin 12, (peerEnd n m).all fun p => 12 * n.val + m.val != 12 * p.1 + p.2 := by decide
  simpa [h] using hall n m

@[simp] theorem linkAt_setLink_self (s : State) (n m : Nat) (f : Link → Link) :
    (s.setLink n m f).linkAt n m = f (s.linkAt n m) := sget_sput_self ..

theorem linkAt_setLink_of_ne (s : State) {n m a b : Nat} (f : Link → Link) (h : 12 * a + b ≠ 12 * n + m) :
    (s.setLink n m f).linkAt a b = s.linkAt a b := sget_sput_of_ne _ _ _ h

@[simp] theorem linkAt_withMsgs (s : State) (l : List Msg) (n m : Nat) :
    State.linkAt { s with msgs := l } n m = s.linkAt n m := rfl

@[simp] theorem linkAt_accept (s : State) (x : Msg) (n m : Nat) :
    State.linkAt { s with hub := s.hub.accept x } n m = s.linkAt n m := rfl

@[simp] theorem setLink_msgs (s : State) (n m : Nat) (f : Link → Link) : (s.setLink n m f).msgs = s.msgs := rfl

@[simp] theorem setLink_accepted (s : State) (n m : Nat) (f : Link → Link) :
    (s.setLink n m f).hub.accepted = s.hub.accepted := rfl

@[simp] theorem roll_buffer (l : Link) (now : Nat) : (l.roll now).buffer = l.buffer := by
  unfold Link.roll
  extract_lets w
  split <;> rfl

@[simp] theorem roll_discard (l : Link) (now : Nat) : (l.roll now).discard = l.discard := by
  unfold Link.roll
  extract_lets w
  split <;> rfl

@[simp] theorem roll_expect (l : Link) (now : Nat) : (l.roll now).expect = l.expect := by
  unfold Link.roll
  extract_lets w
  split <;> rfl

/-! ## What acknowledgements and corrected errors leave alone -/

theorem takeAcks_keeps (s : State) (n : Nat) :
    (s.takeAcks n).hub.links = s.hub.links ∧ (s.takeAcks n).msgs = s.msgs ∧ (s.takeAcks n).hub.accepted = s.hub.accepted := by
  unfold State.takeAcks
  extract_lets h done
  split
  · exact ⟨rfl, rfl, rfl⟩
  split <;> exact ⟨rfl, rfl, rfl⟩

@[simp] theorem takeAcks_linkAt (s : State) (k n m : Nat) : (s.takeAcks k).linkAt n m = s.linkAt n m := by
  simp only [State.linkAt, (takeAcks_keeps s k).1]

@[simp] theorem takeAcks_msgs (s : State) (n : Nat) : (s.takeAcks n).msgs = s.msgs := (takeAcks_keeps s n).2.1

@[simp] theorem takeAcks_accepted (s : State) (n : Nat) : (s.takeAcks n).hub.accepted = s.hub.accepted :=
  (takeAcks_keeps s n).2.2

theorem record_links (s : State) (n d uk ui synd cls : Nat) (intr trap : Bool) (addr info : Word) :
    (s.record n d uk ui synd cls intr trap addr info).hub.links = s.hub.links := by
  obtain ⟨x, k, h⟩ := record_hub_shape s n d uk ui synd cls intr trap addr info
  rw [h]

theorem record_lost (s : State) (n d uk ui synd cls : Nat) (intr trap : Bool) (addr info : Word) :
    (s.record n d uk ui synd cls intr trap addr info).hub.lost = s.hub.lost := by
  obtain ⟨x, k, h⟩ := record_hub_shape s n d uk ui synd cls intr trap addr info
  rw [h]

theorem corrected_keeps (s : State) (d uk ui : Nat) :
    (s.corrected d uk ui).hub.links = s.hub.links ∧ (s.corrected d uk ui).msgs = s.msgs := by
  unfold State.corrected
  split
  · exact ⟨rfl, rfl⟩
  extract_lets s1 key sec old n _ s2
  split
  · exact ⟨record_links .., rfl⟩
  · exact ⟨rfl, rfl⟩

@[simp] theorem corrected_linkAt (s : State) (d uk ui n m : Nat) : (s.corrected d uk ui).linkAt n m = s.linkAt n m := by
  simp only [State.linkAt, (corrected_keeps s d uk ui).1]

@[simp] theorem corrected_msgs (s : State) (d uk ui : Nat) : (s.corrected d uk ui).msgs = s.msgs :=
  (corrected_keeps s d uk ui).2

/-! ## A flit arrives (R438, R439) -/

/-- The 1 ms windows of both ends of a link move on with time. -/
def State.rolled (s : State) (n m a b : Nat) : State := (s.setLink n m fun l => l.roll s.now).setLink a b fun l => l.roll s.now

/-- A flit in its sequence leaves the buffer of the end at die a, and the end at die n expects the next one. -/
def State.handsOver (s : State) (n m a b : Nat) (room : Bool) (x : Msg) (rest : List (Nat × Msg)) : State :=
  (s.setLink n m fun l => { l with expect := (l.expect + 1) % 256 }).setLink a b fun l =>
    { l with buffer := rest, row := 0, refused := if room then l.refused else l.refused ++ [x] }

/-- The die whose messages end at a link module: a port link's ends are the expander's and its hub die's. -/
def linkDie (n m : Nat) : Nat := if n < 18 then n else if m = 0 then n else 16 + (n - 18) / 2

section
variable {s : State} {n : Fin 22} {m : Fin 12} {a b : Nat}

theorem rolled_near (hp : peerEnd n m = some (a, b)) : (s.rolled n m a b).linkAt n m = (s.linkAt n m).roll s.now := by
  simp [State.rolled, linkAt_setLink_of_ne _ _ (peerEnd_place_ne hp)]

theorem rolled_far (hp : peerEnd n m = some (a, b)) : (s.rolled n m a b).linkAt a b = (s.linkAt a b).roll s.now := by
  simp [State.rolled, linkAt_setLink_of_ne _ _ (peerEnd_place_ne hp).symm]

@[simp] theorem rolled_msgs : (s.rolled n m a b).msgs = s.msgs := rfl

@[simp] theorem rolled_accepted : (s.rolled n m a b).hub.accepted = s.hub.accepted := rfl

variable {crcOk room : Bool} {q : Nat} {x : Msg} {rest : List (Nat × Msg)}
  (hp : peerEnd n m = some (a, b)) (hopen : s.linkOpen n m = true) (hbuf : (s.linkAt a b).buffer = (q, x) :: rest)
include hp hopen hbuf

/-- With a flit waiting at the sender, no fresh message is drawn: the flit meets the receiver's end as the windows move on. -/
theorem flitArrives_waiting : s.flitArrives n m crcOk room =
    if (s.linkAt n m).discard then s.rolled n m a b
    else if !crcOk ∨ q ≠ (s.linkAt n m).expect then
      (((s.rolled n m a b).setLink n m fun l => { l with discard := true }).setLink a b fun l =>
        if crcOk then l else { l with row := l.row + 1, crcs := l.crcs + 1 }).corrected
          (linkPlace n m).1 (linkPlace n m).2.1 (linkPlace n m).2.2
    else
      let s3 := (s.rolled n m a b).handsOver n m a b room x rest
      if room = false then s3
      else if x.dst ≠ linkDie n m then ({ s3 with msgs := s3.msgs ++ [x] } : State).takeAcks (linkDie n m)
      else ({ s3 with hub := s3.hub.accept x } : State).takeAcks (linkDie n m) := by
  have hfar : (((s.setLink n m fun l => l.roll s.now).setLink a b fun l => l.roll s.now).linkAt a b).buffer = (q, x) :: rest :=
    (congrArg Link.buffer (rolled_far hp)).trans ((roll_buffer ..).trans hbuf)
  have hnear : ((s.setLink n m fun l => l.roll s.now).setLink a b fun l => l.roll s.now).linkAt n m =
      (s.linkAt n m).roll s.now := rolled_near hp
  unfold State.flitArrives
  simp only [hp, hopen, hbuf, hfar, hnear, List.isEmpty_cons, Bool.false_and, Bool.not_true, Bool.false_eq_true, if_false,
    roll_discard, roll_expect]
  rfl

/-- An end that discards leaves the flit where it waits. -/
theorem flitArrives_discards (hd : (s.linkAt n m).discard = true) :
    ((s.flitArrives n m crcOk room).linkAt a b).buffer = (q, x) :: rest ∧ (s.flitArrives n m crcOk room).msgs = s.msgs := by
  rw [flitArrives_waiting hp hopen hbuf, if_pos hd, rolled_far hp]
  exact ⟨(roll_buffer ..).trans hbuf, rfl⟩

/-- A flit with a failed CRC, or out of its sequence, stays where it waits, and the end discards from now on. -/
theorem flitArrives_rejects (hd : (s.linkAt n m).discard = false) (hbad : crcOk = false ∨ q ≠ (s.linkAt n m).expect) :
    ((s.flitArrives n m crcOk room).linkAt n m).discard = true ∧
      ((s.flitArrives n m crcOk room).linkAt a b).buffer = (q, x) :: rest ∧ (s.flitArrives n m crcOk room).msgs = s.msgs := by
  have hne := peerEnd_place_ne hp
  rw [flitArrives_waiting hp hopen hbuf, if_neg (by simp [hd]), if_pos (by simpa using hbad)]
  refine ⟨by simp [linkAt_setLink_of_ne _ _ hne], ?_, by simp⟩
  cases crcOk <;> simp [linkAt_setLink_of_ne _ _ hne.symm, rolled_far hp, hbuf]

/-- A flit in its sequence leaves the sender's buffer. -/
theorem flitArrives_advances (hd : (s.linkAt n m).discard = false) (hcrc : crcOk = true) (hq : q = (s.linkAt n m).expect) :
    ((s.flitArrives n m crcOk room).linkAt n m).discard = false ∧
      ((s.flitArrives n m crcOk room).linkAt a b).buffer = rest ∧
      ((s.flitArrives n m crcOk room).linkAt n m).expect = (q + 1) % 256 := by
  have hne := peerEnd_place_ne hp
  rw [flitArrives_waiting hp hopen hbuf, if_neg (by simp [hd]), if_neg (by simp [hcrc, hq])]
  have hnear : ((s.rolled n m a b).handsOver n m a b room x rest).linkAt n m =
      { (s.linkAt n m).roll s.now with expect := (q + 1) % 256 } := by
    simp [State.handsOver, linkAt_setLink_of_ne _ _ hne, rolled_near hp, hq]
  have hfar : (((s.rolled n m a b).handsOver n m a b room x rest).linkAt a b).buffer = rest := by simp [State.handsOver]
  dsimp only
  split
  · simp [hnear, hfar, hd]
  split
  · simp [hnear, hfar, hd]
  · simp [hnear, hfar, hd]

/-- Without a buffer the message is returned to the sender. -/
theorem flitArrives_refuses (hd : (s.linkAt n m).discard = false) (hcrc : crcOk = true) (hq : q = (s.linkAt n m).expect)
    (hroom : room = false) :
    x ∈ ((s.flitArrives n m crcOk room).linkAt a b).refused ∧ (s.flitArrives n m crcOk room).msgs = s.msgs := by
  rw [flitArrives_waiting hp hopen hbuf, if_neg (by simp [hd]), if_neg (by simp [hcrc, hq])]
  simp [hroom, State.handsOver]

/-- With a buffer the message is accepted at its destination, and waits at an intermediate die. -/
theorem flitArrives_accepts (hd : (s.linkAt n m).discard = false) (hcrc : crcOk = true) (hq : q = (s.linkAt n m).expect)
    (hroom : room = true) :
    (s.flitArrives n m crcOk room).msgs = (if x.dst = linkDie n m then s.msgs else s.msgs ++ [x]) ∧
      (s.flitArrives n m crcOk room).hub.accepted =
        if x.dst = linkDie n m then (s.hub.accept x).accepted else s.hub.accepted := by
  rw [flitArrives_waiting hp hopen hbuf, if_neg (by simp [hd]), if_neg (by simp [hcrc, hq])]
  by_cases hdst : x.dst = linkDie n m
  · simp [hroom, hdst, Hub.accept, State.handsOver]
  · simp [hroom, hdst, State.handsOver]

end

/-! ## Retrains (R441, R448) -/

section
variable {s : State} {n : Fin 22} {m : Fin 12} (htrain : (s.linkAt n m).train = true) (hup : s.linkUp n m = true)
include htrain hup

/-- A first or second attempt that fails is followed by another. -/
theorem retrainAttemptEnd_again (hatt : (s.linkAt n m).attempt < 2) : exec (.retrainAttemptEnd n m false) s =
    .next ((s.countAttempt n m).setEnds n m fun l => { l with fails := l.fails + 1, attempt := l.attempt + 1 }) := by
  show execRetrainAttemptEnd n m false s = _
  simp [execRetrainAttemptEnd, htrain, hup, hatt]

/-- The third attempt that fails takes a port, or a link of package dies, down. -/
theorem retrainAttemptEnd_down (hatt : 2 ≤ (s.linkAt n m).attempt) : exec (.retrainAttemptEnd n m false) s =
    .next (if 18 ≤ n.val then (s.countAttempt n m).portDown n m else (s.countAttempt n m).linkDown n m) := by
  show execRetrainAttemptEnd n m false s = _
  simp [execRetrainAttemptEnd, htrain, hup, Nat.not_lt.2 hatt]

/-- A first attempt that passes keeps the full width and rate. -/
theorem retrainAttemptEnd_full (hatt : (s.linkAt n m).attempt = 0) (hw : (s.linkAt n m).width = 2)
    (hr : (s.linkAt n m).rate = 0) : exec (.retrainAttemptEnd n m true) s =
    let t := (s.countAttempt n m).setEnds n m fun l =>
      { l with width := 2, rate := 0, train := false, fails := 0, discard := false }
    .next (if 18 ≤ n.val then t.portBack n else t) := by
  show execRetrainAttemptEnd n m true s = _
  simp [execRetrainAttemptEnd, htrain, hup, hatt, hw, hr, attemptResult]

/-- A second attempt that passes leaves a link of package dies at half its width, with a record at both dies. -/
theorem retrainAttemptEnd_half {a b : Nat} (hp : peerEnd n m = some (a, b)) (hatt : (s.linkAt n m).attempt = 1)
    (hw : (s.linkAt n m).width = 2) (hr : (s.linkAt n m).rate = 0) (hn : n.val < 18) :
    exec (.retrainAttemptEnd n m true) s =
      .next (((((s.countAttempt n m).setEnds n m fun l =>
        { l with width := 1, rate := 0, train := false, fails := 0, discard := false }).linkRecord n m LDEG 1 true 0x0201)).linkRecord
          a b LDEG 1 true 0x0201) := by
  show execRetrainAttemptEnd n m true s = _
  simp [execRetrainAttemptEnd, htrain, hup, hatt, hw, hr, attemptResult, State.degraded, hp, Nat.not_le.2 hn]

end

/-! ## Optical channels (R444, R445) -/

theorem substitute_lost (h : Hub) (plane q : Nat) : (h.substitute plane q).lost = h.lost := by
  unfold Hub.substitute
  split <;> rfl

theorem loseChannel_lost (h : Hub) (plane q : Nat) : (h.loseChannel plane q).lost = h.lost ++ [512 * plane + q] := by
  unfold Hub.loseChannel
  extract_lets h1 key w h2
  split
  · exact substitute_lost ..
  split
  · exact substitute_lost ..
  · rfl

theorem loseChannels_lost (plane : Nat) (qs : List Nat) (h : Hub) :
    (qs.foldl (fun h x => h.loseChannel plane x) h).lost = h.lost ++ qs.map fun q => 512 * plane + q := by
  induction qs generalizing h with
  | nil => simp
  | cons q qs ih => simp [ih, loseChannel_lost]

/-- A channel that is not yet lost is among those that are lost with it. -/
theorem mem_losesWith {s : State} {plane q : Nat} (h : s.hub.lost.contains (512 * plane + q) = false) :
    q ∈ s.losesWith plane q := by
  unfold State.losesWith
  split
  · exact List.mem_singleton_self q
  · refine List.mem_filter.2 ⟨List.mem_map.2 ⟨q % 8, List.mem_range.2 (Nat.mod_lt _ (by decide)), by omega⟩, ?_⟩
    rw [h]
    rfl

theorem clearReady_lost (s : State) (u : UnitId) : (s.clearReady u).hub.lost = s.hub.lost := by
  unfold State.clearReady
  split <;> rfl

section
variable {s : State} {plane : Fin 2} {q : Fin 512} (hlost : s.hub.lost.contains (512 * plane.val + q.val) = false)
  (hready : s.isReady (.fibre (Fin.ofNat 256 (128 * plane.val + q.val / 8))) = true)
include hlost hready

/-- A channel that is not lost, of a fibre that is ready, ends its attempt. -/
theorem channel_attempts : (s.hub.lost.contains (512 * plane.val + q.val) ||
    !s.isReady (.fibre (Fin.ofNat 256 (128 * plane.val + q.val / 8)))) = false := by
  rw [hlost, hready]
  rfl

/-- An attempt that passes ends the retrain. -/
theorem opticalRetrainAttemptEnd_passes : ∃ t, execOpticalRetrainAttemptEnd plane q true s = .next t ∧
    t.hub.lost = s.hub.lost ∧ (sget {} t.hub.channels (512 * plane.val + q.val)).train = false ∧
    (sget {} t.hub.channels (512 * plane.val + q.val)).fails = 0 := by
  unfold execOpticalRetrainAttemptEnd
  extract_lets key f u s0 _ s1 l n _ put
  rw [if_neg (ne_true_of_eq_false (channel_attempts hlost hready)), if_pos rfl]
  exact ⟨_, rfl, rfl, by simp [key]⟩

/-- A first or second attempt that fails leaves the channel in its retrain. -/
theorem opticalRetrainAttemptEnd_fails
    (hfails : (sget {} s.hub.channels (512 * plane.val + q.val)).train = false ∨
      (sget {} s.hub.channels (512 * plane.val + q.val)).fails < 2) :
    ∃ t, execOpticalRetrainAttemptEnd plane q false s = .next t ∧ t.hub.lost = s.hub.lost ∧
      (sget {} t.hub.channels (512 * plane.val + q.val)).train = true ∧
      (sget {} t.hub.channels (512 * plane.val + q.val)).fails =
        (if (sget {} s.hub.channels (512 * plane.val + q.val)).train then
          (sget {} s.hub.channels (512 * plane.val + q.val)).fails else 0) + 1 := by
  unfold execOpticalRetrainAttemptEnd
  extract_lets key f u s0 _ s1 l n _ put
  have hl : l = sget {} s.hub.channels (512 * plane.val + q.val) := rfl
  rw [← hl] at hfails ⊢
  have hn : n < 3 := by
    rcases hfails with h | h
    · simp [n, h]
    · simp only [n]
      split <;> omega
  rw [if_neg (ne_true_of_eq_false (channel_attempts hlost hready)), if_neg (by decide), if_pos hn]
  exact ⟨_, rfl, rfl, by simp [key], by simp [key, n]⟩

/-- The third attempt that fails loses the channel. -/
theorem opticalRetrainAttemptEnd_loses (htrain : (sget {} s.hub.channels (512 * plane.val + q.val)).train = true)
    (hfails : (sget {} s.hub.channels (512 * plane.val + q.val)).fails = 2) :
    ∃ t, execOpticalRetrainAttemptEnd plane q false s = .next t ∧ 512 * plane.val + q.val ∈ t.hub.lost := by
  unfold execOpticalRetrainAttemptEnd
  extract_lets key f u s0 _ s1 l n _ put qs _ h p s2
  have hl : l = sget {} s.hub.channels (512 * plane.val + q.val) := rfl
  rw [← hl] at htrain hfails
  have hn : n = 3 := by simp [n, htrain, hfails]
  have hs2 : s2.hub.lost = s.hub.lost ++ qs.map fun q => 512 * plane.val + q :=
    (record_lost ..).trans (loseChannels_lost plane qs s1.hub)
  have hmem : key ∈ s2.hub.lost := by
    rw [hs2]
    exact List.mem_append_right _ (List.mem_map.2 ⟨q.val, mem_losesWith (s := s1) hlost, rfl⟩)
  rw [if_neg (ne_true_of_eq_false (channel_attempts hlost hready)), if_neg (by decide), if_neg (by omega)]
  refine ⟨_, rfl, ?_⟩
  split
  · rw [clearReady_lost]
    exact hmem
  · exact hmem

end

/-! ## Messages and ports (R331, R449) -/

theorem messageForward_sends {s : State} {i l : Nat} {x : Msg} (hx : s.msgs[i]? = some x)
    (hl : linkTo x.via x.dst = some l) (hopen : s.linkOpen x.via l = true) (hroomy : s.roomy x.via l = true) :
    execMessageForward i s =
      .next (({ s with msgs := s.msgs.eraseIdx i } : State).setLink x.via l (Link.send x)) := by
  simp only [execMessageForward, hx, hl, hopen, hroomy, Bool.and_self, if_true]

/-- A pod message of hub die 16 goes by way of a package die to hub die 17. -/
theorem podForward_out {s : State} {i : Nat} (hv : s.hub.valid = true) (he : s.hub.egress = false) (hi : i < 32)
    (hr : i ∈ s.routes 16 17) :
    execPodForward i s = .next ((s.keep (s.newMsg 16 17 i)).sendTo 16 i (s.newMsg 16 17 i)) := by
  have h64 : i < 64 := by omega
  simp [execPodForward, hv, he, hi, hr, h64, Nat.mod_eq_of_lt hi]

/-- A pod message of hub die 17 goes by way of a package die to hub die 16. -/
theorem podForward_back {s : State} {i : Nat} (hv : s.hub.valid = true) (he : s.hub.egress = false) (hlo : 32 ≤ i)
    (hi : i < 64) (hr : i - 32 ∈ s.routes 17 16) :
    execPodForward i s = .next ((s.keep (s.newMsg 17 16 (i - 32))).sendTo 17 (i - 32) (s.newMsg 17 16 (i - 32))) := by
  have hmod : i % 32 = i - 32 := by omega
  simp [execPodForward, hv, he, Nat.not_lt.2 hlo, hi, hr, hmod]

theorem flitRefusalResend_sends {s : State} {n : Fin 22} {m : Fin 12} {i : Nat} {x : Msg}
    (hx : (s.linkAt n m).refused[i]? = some x) (hopen : s.linkOpen n m = true) (hroomy : s.roomy n m = true) :
    execFlitRefusalResend n m i s =
      .next ((s.setLink n m fun l => { l with refused := l.refused.eraseIdx i }).setLink n m (Link.send x)) := by
  simp only [execFlitRefusalResend, hx, hopen, hroomy, Bool.and_self, if_true]

/-- A sender whose receiver discards replays, and past its bounds retrains, with a record of the receiver. -/
theorem flitReplay_replays {s : State} {n : Fin 22} {m : Fin 12} {a b : Nat} (hp : peerEnd n m = some (a, b))
    (hopen : s.linkOpen n m = true) (hd : (s.linkAt a b).discard = true) :
    execFlitReplay n m s = if 4 ≤ (s.linkAt n m).row ∨ 64 ≤ (s.linkAt n m).crcs then
      .next (((s.setLink n m fun l => l.roll s.now).linkRecord a b LCRC 1 false
        ((((s.linkAt n m).buffer.map Prod.fst).headD 0) + 256 * (s.linkAt n m).row)).retrain n m)
    else .next (((s.setLink n m fun l => l.roll s.now).setLink n m fun l => { l with reps := l.reps + 1 }).setLink a b fun l =>
      { l with discard := false }) := by
  simp only [execFlitReplay, hp, hopen, hd, Bool.not_true, Bool.or_self, Bool.false_eq_true, if_false]

theorem linkLossOfLock_retrains {s : State} {n : Fin 22} {m : Fin 12} (hopen : s.linkOpen n m = true) :
    execLinkLossOfLock n m s = .next (s.setEnds n m fun l =>
      { l with train := true, fails := 0, attempt := 0, row := 0, crcs := 0 }) :=
  congrArg Host.Outcome.next (if_pos hopen)

/-- With a message of an expander overdue for the first time, its port retrains. -/
theorem expanderAckTimeout_retrains {s : State} {n : Fin 22} {t : Nat} (hn : 18 ≤ n.val)
    (hx : s.hub.expanders.contains n.val = true) (hready : s.isReady (portOf n) = true) (hu : s.unacked n = some t)
    (ht : t + 1000000 ≤ s.now) (hnone : slook s.hub.xsince n = none) :
    let u : State := { s with hub := { s.hub with xsince := sput s.hub.xsince n t } }
    execExpanderAckTimeout n s = .next (if u.linkOpen n 0 then u.retrain n 0 else u) := by
  have hguard : (decide (n.val < 18) || !s.hub.expanders.contains n.val || !s.isReady (portOf n) ||
      decide (s.now < t + 1000000) || (slook s.hub.xsince n).isSome) = false := by
    rw [hx, hready, hnone, decide_eq_false (Nat.not_lt.2 hn), decide_eq_false (Nat.not_lt.2 ht)]
    rfl
  unfold execExpanderAckTimeout
  rw [hu]
  exact if_neg (ne_true_of_eq_false hguard)

theorem expanderFenceTimeout_fences {s : State} {n : Fin 22} {t : Nat} (hx : slook s.hub.xsince n = some t)
    (hn : 18 ≤ n.val) (ht : t + 10000000 ≤ s.now) (hclosed : s.linkOpen n 0 = false) :
    execExpanderFenceTimeout n s = .next (s.fenceExpander n) := by
  simp only [execExpanderFenceTimeout, hx, hn, ht, hclosed, decide_true, Bool.not_false, Bool.and_self, if_true]

/-- Settles O59: each event by the branch that its hypotheses name. -/
theorem linkEvents : Obligations.LinkEvents := by
  intro s n m i
  refine ⟨fun x l hx hl hopen hroomy => messageForward_sends hx hl hopen hroomy,
    fun hv he => ⟨fun hi hr => podForward_out hv he hi hr, fun hlo hi hr => podForward_back hv he hlo hi hr⟩, ?flits,
    fun x hx hopen hroomy => flitRefusalResend_sends hx hopen hroomy, ?retrains,
    fun plane q hlost hready => ⟨opticalRetrainAttemptEnd_passes hlost hready, opticalRetrainAttemptEnd_fails hlost hready,
      opticalRetrainAttemptEnd_loses hlost hready⟩,
    fun t hn hx hready hu ht hnone => expanderAckTimeout_retrains hn hx hready hu ht hnone,
    fun t hx hn ht hclosed => expanderFenceTimeout_fences hx hn ht hclosed⟩
  case flits =>
    intro a b hp hopen here
    have hmem : ∀ crcOk room, (s.flitArrives n m crcOk room).mem = s.mem :=
      fun crcOk room => congrArg Prod.fst (flitArrives_memCores s n m crcOk room)
    have hhere : linkDie n m = here := if_congr Iff.rfl rfl (if_congr Fin.val_eq_zero_iff rfl rfl)
    refine ⟨fun crcOk room q x rest hbuf => ⟨_, rfl, hmem crcOk room, fun hd => flitArrives_discards hp hopen hbuf hd,
        fun hd => ⟨fun hbad => flitArrives_rejects hp hopen hbuf hd hbad, fun hcrc hq => ?_⟩⟩,
      fun crcOk room _ => ⟨_, rfl, hmem crcOk room⟩, fun hd => ⟨fun hrow hcrcs => ?_, fun hpast => ?_⟩,
      linkLossOfLock_retrains hopen⟩
    · obtain ⟨hkeeps, hleaves, hnext⟩ := flitArrives_advances (room := room) hp hopen hbuf hd hcrc hq
      rw [← hhere]
      exact ⟨hkeeps, hleaves, hnext, flitArrives_refuses hp hopen hbuf hd hcrc hq,
        flitArrives_accepts hp hopen hbuf hd hcrc hq⟩
    · exact (flitReplay_replays hp hopen hd).trans (if_neg (by omega))
    · exact (flitReplay_replays hp hopen hd).trans (if_pos hpast)
  case retrains =>
    intro htrain hup l u trained stopped
    refine ⟨fun hatt => retrainAttemptEnd_again htrain hup hatt, fun hatt => ⟨fun hn => ?_, fun hn => ?_⟩,
      fun hatt hw hr => retrainAttemptEnd_full htrain hup hatt hw hr,
      fun a b hp hatt hw hr hn => retrainAttemptEnd_half htrain hup hp hatt hw hr hn⟩
    · exact (retrainAttemptEnd_down htrain hup hatt).trans (congrArg _ (if_neg (Nat.not_le.2 hn)))
    · exact (retrainAttemptEnd_down htrain hup hatt).trans (congrArg _ (if_pos hn))

end Sys2Proof.Machine
end
